-- ==== Sys2Proof/Word.lean ====
section
/-! DEFINITION. The plain words of the part: bytes, data units, binding words, and the one saturating sum. -/

namespace Sys2Proof

/-- One byte of a frame, a message or a secret (11_frame_and_record_formats.md). -/
abbrev Byte := BitVec 8

/-- One data unit: a block of 4096 bytes (00_scope.md, Blocks and addresses). -/
abbrev UnitData := BitVec 32768

/-- A binding word: 32 bytes (R128). -/
abbrev BindingWord := BitVec 256

/-- A secret or a token: its bytes in order (R59, R138). -/
abbrev Secret := List Byte

/-- Addition that saturates at `cap` (R61, R67, R143, R187). -/
def satAdd (cap a b : Nat) : Nat := min cap (a + b)

end Sys2Proof
end

