-- ==== Sys2Proof/Syntax.lean ====
section
/-! DEFINITION. The commands of the part: one constructor of `Instr` per row of spec/opcode_table.json, with the
operands that the owning rule gives the frame, message or event. -/

namespace Sys2Proof

/-- A key of the part (device key, range key or media key), named by the draw of the random source that gave it.
R6: a key drawn fresh is unequal to every key the part already holds, and no key leaves the part. -/
structure Key where
  draw : Nat
  deriving DecidableEq, Repr

/-- A salt (of a range, R1, or of a derivation, R59), named by the draw that gave it; its 32 bits are
`Config.saltBits`. R9 and R15 read two draws as different salts. -/
structure Salt where
  draw : Nat
  deriving DecidableEq, Repr

/-- The class of a transfer descriptor (R29); READ and WRITE are the ordinary classes. -/
inductive XferClass where
  | read | write | migrateRead | migrateWrite
  deriving DecidableEq, Repr

/-- The three range attributes (R1). -/
structure Attributes where
  autoOpen : Bool
  bindingRequired : Bool
  lockOnSleep : Bool
  deriving DecidableEq, Repr

/-- An extent `[start, start + len)` of LBAs (00_scope.md, Extents). -/
structure Extent where
  start : Nat
  len : Nat
  deriving DecidableEq, Repr

/-- What a range record that fails its store check reads as (R1): the fields the rule goes on using. -/
structure DamagedRange where
  defined : Bool
  extent : Option Extent
  attributes : Attributes
  generation : Nat
  salt : Salt
  deriving DecidableEq, Repr

/-- A stored record that fails its check as a cold start loads it (R185, R186). -/
inductive Damage where
  /-- The first (`false`) or the second (`true`) copy of the factory record (R186). -/
  | factoryCopy (second : Bool)
  | range (index : Fin 16) (found : DamagedRange)
  | credential (index : Fin 8)
  | wrapEntry (index : Fin 64)
  | chargedCount
  | policy
  | bindingDigest
  | remoteToken
  | watchRecord
  | rekeyRecord
  | eraseJournal
  | incidentList
  | bootCount
  deriving DecidableEq, Repr

/-- The commands: the frames, messages and events of spec/opcode_table.json. `id` is a request identifier (R174),
`cred` and `secret` the first two fields of every credential-bearing request (R190). Coded fields stand as the bytes
the frame carries, so that a value outside its table is refused by the block that owns the request (R190, R191). -/
inductive Instr where
  /-- COLD_START (R187): the records that fail their check, the levels found at the four watch lines (bit n for line
  n), and, where power is lost again before start-up ends (R189), how many store writes it completes first. -/
  | coldStart (damage : List Damage) (levels : BitVec 4) (cut : Option Nat)
  | linkHello
  | linkResetIndication
  /-- MALFORMED_FRAME (R191): the kind code as received. -/
  | malformedFrame (kind : Byte)
  | xferOpen (tag : Fin 32) (cls : XferClass) (start count order : Nat)
  | xferUnit (tag : Fin 32) (index : Nat) (payload : UnitData)
  | cipherUnitTake
  | xferStop (tag : Fin 32)
  | orderDone (num : Nat) (ok : Bool)
  | migrationOrderDeadlineExpiry
  | migrateOrderSend
  /-- SCRUB_ORDER_DEADLINE_EXPIRY (R164): the number of the order whose deadline expires. -/
  | scrubOrderDeadlineExpiry (num : Nat)
  | status (id : BitVec 16)
  | fetchNotices (id : BitVec 16)
  | setAttentionMask (id : BitVec 16) (mask : BitVec 16)
  | lock (id : BitVec 16) (range : Byte)
  | lockAll (id : BitVec 16)
  | secRequestBadKind (id : BitVec 16) (kind : Byte)
  /-- UNLOCK (R78): `ranges` empty means ALL. -/
  | unlock (id : BitVec 16) (cred : Byte) (secret : Secret) (ranges : List Byte)
  | derivationComplete
  | takeOwnership (id : BitVec 16) (secret : Secret)
  | changeSecret (id : BitVec 16) (cred : Byte) (secret newSecret : Secret)
  | setSecret (id : BitVec 16) (cred : Byte) (secret : Secret) (target : Byte) (newSecret : Secret)
  | enableCredential (id : BitVec 16) (cred : Byte) (secret : Secret) (target : Byte)
  | removeCredential (id : BitVec 16) (cred : Byte) (secret : Secret) (target : Byte)
  /-- GRANT (R93): `second` empty means that none is carried. -/
  | grant (id : BitVec 16) (cred : Byte) (secret : Secret) (target range access : Byte) (second : Secret)
  | revoke (id : BitVec 16) (cred : Byte) (secret : Secret) (target range : Byte)
  | defineRange (id : BitVec 16) (cred : Byte) (secret : Secret) (range : Byte) (start len : Nat) (attrs : Byte)
  | deleteRange (id : BitVec 16) (cred : Byte) (secret : Secret) (range : Byte)
  | setRangeAttributes (id : BitVec 16) (cred : Byte) (secret : Secret) (range attrs : Byte)
  | eraseRange (id : BitVec 16) (cred : Byte) (secret : Secret) (range : Byte)
  /-- SET_POLICY (R102): the 42 bytes of the policy layout (R190). -/
  | setPolicy (id : BitVec 16) (cred : Byte) (secret : Secret) (policy : List Byte)
  | bindToPlatform (id : BitVec 16) (cred : Byte) (secret : Secret)
  | unbind (id : BitVec 16) (cred : Byte) (secret : Secret)
  | setRemoteToken (id : BitVec 16) (cred : Byte) (secret token : Secret)
  | readIncidents (id : BitVec 16) (cred : Byte) (secret : Secret) (position : Byte)
  | clearIncidents (id : BitVec 16) (cred : Byte) (secret : Secret)
  | rekeyStart (id : BitVec 16) (cred : Byte) (secret : Secret) (range : Byte)
  | rekeyResume (id : BitVec 16) (cred : Byte) (secret : Secret)
  | eraseAll (id : BitVec 16) (cred : Byte) (secret : Secret)
  | reprovision (id : BitVec 16) (cred : Byte) (secret : Secret)
  | storeWriteComplete
  | closeComplete (range : Fin 16)
  | closeDeadlineExpiry (range : Fin 16)
  | slotDrainComplete (slot : Fin 18)
  | holdoffExpiry
  | bind (word : BindingWord)
  | bindingDeadlineExpiry
  | checkin (word : BindingWord)
  | checkinTimerExpiry
  | sleep
  | wake
  | alert (severity : Byte)
  | remoteErase (token : Secret)
  | platformFetch
  | platformSetMask (mask : BitVec 16)
  /-- PLATFORM_MALFORMED_MESSAGE (R192): the kind code received. -/
  | platformMalformedMessage (kind : Byte)
  | platformRead
  | platformLinkReset
  | watchLineEdge (line : Fin 4) (level : Bool)
  | holdDownExpiry (line : Fin 4)
  | decayTimerExpiry
  | outboundFrameSent
  deriving DecidableEq, Repr

end Sys2Proof
end

