-- ==== Sys2Proof/Config.lean ====
section
/-! DEFINITION. What the manual leaves to the part or to the writer: the opaque keyed operations and the values no
rule states. None has a body: no proof can use a particular value. -/

namespace Sys2Proof.Config

/-- The 32 bits of a drawn salt (R1, R59); they enter the cipher's tweak alone. -/
opaque saltBits : Salt → BitVec 32

/-- The block cipher (R6): a slot's media key, the tweak (salt, LBA), the direction (`true` enciphers) and one unit. -/
opaque cipher : Key → BitVec 32 → Nat → Bool → UnitData → UnitData

/-- The two parameter bytes of a BINDING_MISMATCH incident, whose three sources (0 BIND, 1 CHECKIN, 2 UNLOCK, in the
order R153 names them) R153 does not code. -/
opaque bindingSourceCode : Fin 3 → BitVec 16

/-- The two parameter bytes of an incident whose kind has no parameter (R153 gives "none" and no bytes). -/
opaque noParameter : BitVec 16

/-- The record kind's place in the table of R183 numbers STORE_DAMAGE parameters from 0; no rule states the second
byte for a record kind that has no index. -/
opaque damageIndexFill : Nat → Byte

/-- The cause, step and frontier bytes (1, 1, 5) of the STATUS answer's journal part while no journal exists: the table
of R190 gives 0xFF for the result alone. -/
opaque absentJournal : Fin 7 → Byte

/-- Byte `n` of a SEC_REQUEST body that ends before it: R174 has the answer BAD_FORMAT repeat an identifier and a kind, and no
rule says which where the body is too short to hold them (entry 31 of the log). -/
opaque missingRequestByte : Nat → Byte

end Sys2Proof.Config
end

