-- ==== Sys2Proof/Machine/State.lean ====
section
/-! DEFINITION. Everything the manual gives the part to hold, as plain data, block by block (00_scope.md, The part in
outline), the reasons a step can stop, and the part right after reset. -/

namespace Sys2Proof.Machine

/-! ## Names and codes -/

/-- Result and reason codes (11_frame_and_record_formats.md, 11.4). -/
inductive Code where
  | ok | already | inProgress | noAnswer | channelBusy | badFormat
  | tagBusy | badCount | outOfRange | erasing | locked | readOnly | erased | fenced | badOrder | stopped
  | badValue | notNow | holdOff | emptySlot | disabled | roleRefused | denied
  | notOpen | tableFull | overlap | rekeyActive | noSlot | notActive | targetMismatch | noWord | notSet
  | notFaulted
  | opened | alreadyOpen | busyClosing | bindingPending | boundElsewhere | notGranted
  | accepted | early | wrongWord | replaced | created
  deriving DecidableEq, Repr

/-- The watch states (R141, R142). -/
inductive WatchState where
  | settled | wary | alarmed | erasing | erased
  deriving DecidableEq, Repr

/-- The binding states (R126). -/
inductive Binding where
  | unbound | unknown | matched | mismatched | absent
  deriving DecidableEq, Repr

/-- The supervision states (R130). -/
inductive Supervision where
  | off | waiting | armed | suspended
  deriving DecidableEq, Repr

/-- The sleep states (R134). -/
inductive SleepState where
  | awake | asleep
  deriving DecidableEq, Repr

/-- The access of a wrap entry (R15). -/
inductive Access where
  | full | read
  deriving DecidableEq, Repr

/-- The access level of an open range (R5). -/
inductive Level where
  | readOnly | readWrite
  deriving DecidableEq, Repr

/-- The mode of a watch line (R150). -/
inductive LineMode where
  | ignore | rise | fall | both
  deriving DecidableEq, Repr

/-- A credential's role, fixed by its slot (R59). -/
inductive Role where
  | owner | user | recovery
  deriving DecidableEq, Repr

/-- A credential's state (R60). -/
inductive CredState where
  | empty | active | disabled
  deriving DecidableEq, Repr

/-- The states of a rekey record (R108). -/
inductive RekeyState where
  | running | paused | faulted
  deriving DecidableEq, Repr

/-- What started an erase (R156). -/
inductive EraseCause where
  | score | exhaustion | remote | owner | unknown
  deriving DecidableEq, Repr

/-- How an erase ended (R168). -/
inductive EraseResult where
  | complete | scrubSkipped | scrubAbandoned
  deriving DecidableEq, Repr

/-- The statuses of an XFER_END (R49). -/
inductive EndStatus where
  | done | donePadded | aborted | stopped | sequenceError
  deriving DecidableEq, Repr

/-- A wrap entry's credential: one of the eight, or DEVICE (R15). -/
inductive Holder where
  | slot (c : Fin 8)
  | device
  deriving DecidableEq, Repr

/-! ## Keys -/

/-- A credential key: what Derive gives for a secret, a derivation salt and a work factor (R6). -/
structure CredKey where
  secret : Secret
  salt : Salt
  wf : Nat
  deriving DecidableEq, Repr

/-- A verifier with its derivation salt and work factor (R59). The check value is computed from the credential key
alone, and a wrong secret does not give the right key (R6, R64): it is held as that key. -/
structure Verifier where
  check : CredKey
  salt : Salt
  wf : Nat
  deriving DecidableEq, Repr

/-- What a range key is wrapped under (R6, R7). -/
inductive WrapUnder where
  | device (k : Key)
  | cred (k : CredKey)
  deriving DecidableEq, Repr

/-- A wrapped range key (R6): unwrapping under anything but `under` is a mismatch. -/
structure WrappedKey where
  key : Key
  under : WrapUnder
  deriving DecidableEq, Repr

/-- A sealed media key (R6): a media key sealed under a range key. -/
structure SealedKey where
  media : Key
  under : Key
  deriving DecidableEq, Repr

/-- The digest of a binding word (R104, R128), held as the word it is the digest of. -/
structure BindingDigest where
  word : BindingWord
  deriving DecidableEq, Repr

/-! ## The persistent records (R183) -/

/-- The factory record (R186). -/
structure FactoryRec where
  capacity : Nat
  identity : BitVec 128
  deriving DecidableEq, Repr

/-- The persistent part of a range record (R1). Its index is its place in the table; its extent is its start and
length. -/
structure RangeRec where
  defined : Bool
  extent : Option Extent
  attributes : Attributes
  generation : Nat
  salt : Salt
  current : Option SealedKey
  next : Option SealedKey
  erased : Bool
  deriving DecidableEq, Repr

/-- A credential record (R59). Its slot is its place in the table and fixes its role. -/
structure CredRec where
  state : CredState
  verifier : Option Verifier
  ownCount : Nat
  deriving DecidableEq, Repr

/-- A wrap entry (R15). -/
structure WrapEntry where
  holder : Holder
  range : Fin 16
  access : Access
  salt : Salt
  wrapped : WrappedKey
  deriving DecidableEq, Repr

/-- The policy (R101). `weights` stands in the order of the evidence table of R143. -/
structure Policy where
  freeAttempts : Nat
  holdBase : Nat
  holdCap : Nat
  wipeLimit : Nat
  disableLimit : Nat
  workFactor : Nat
  t1 : Nat
  t2 : Nat
  t3 : Nat
  eraseByScore : Bool
  checkinEnable : Bool
  scrubEnable : Bool
  weights : Vector Nat 14
  decayStep : Nat
  relief : Nat
  gMin : Nat
  lineHold : Vector Nat 4
  decayPeriod : Nat
  gMax : Nat
  bindingDeadline : Nat
  lineModes : Vector LineMode 4
  retryLimit : Nat
  deriving DecidableEq, Repr

/-- The watch record (R141). -/
structure WatchRec where
  state : WatchState
  score : Nat
  deriving DecidableEq, Repr

/-- The rekey record (R108). -/
structure RekeyRec where
  range : Fin 16
  frontier : Nat
  retry : Nat
  state : RekeyState
  nextGeneration : Nat
  deriving DecidableEq, Repr

/-- The erase journal (R156). -/
structure Journal where
  cause : EraseCause
  step : Nat
  frontier : Nat
  skip : List Extent
  result : Option EraseResult
  deriving DecidableEq, Repr

/-- A piece of evidence with its parameter (R143, R153); a BINDING_MISMATCH source is 0 BIND, 1 CHECKIN, 2 UNLOCK. -/
inductive Evidence where
  | credentialFailed (c : Fin 8)
  | bindingMismatch (source : Fin 3)
  | bindingAbsent
  | checkinEarly (elapsed : Nat)
  | checkinMissed
  | line (n : Fin 4) (level : Bool)
  | alert (severity : Fin 4)
  | remoteTokenBad
  deriving DecidableEq, Repr

/-- What an incident records, with its parameter (R153). A record kind is its place in the table of R183. -/
inductive IncidentKind where
  | evidence (e : Evidence)
  | stateChange (w : WatchState)
  | eraseStep (step : Nat)
  | storeDamage (record : Fin 13) (index : Option Nat)
  deriving DecidableEq, Repr

/-- An incident (R153). -/
structure Incident where
  kind : IncidentKind
  boot : Nat
  uptime : Nat
  score : Nat
  deriving DecidableEq, Repr

/-- One set of all the persistent records (R183): the store holds one, and the blocks' working copies are another. -/
structure Records where
  factory : FactoryRec
  ranges : Vector RangeRec 16
  creds : Vector CredRec 8
  wraps : Vector (Option WrapEntry) 64
  charged : Nat
  policy : Policy
  digest : Option BindingDigest
  token : Option Verifier
  watch : WatchRec
  rekey : Option RekeyRec
  journal : Option Journal
  incidents : List Incident
  boot : Nat
  deriving DecidableEq, Repr

/-! ## The store's arbiter (R184) -/

/-- A requested write: one record's new content, whole (R183). -/
inductive RecWrite where
  | range (i : Fin 16) (r : RangeRec)
  | cred (i : Fin 8) (c : CredRec)
  | wrap (i : Fin 64) (e : Option WrapEntry)
  | charged (n : Nat)
  | policy (p : Policy)
  | digest (d : Option BindingDigest)
  | token (v : Option Verifier)
  | watch (w : WatchRec)
  | rekey (r : Option RekeyRec)
  | journal (j : Option Journal)
  | incidents (l : List Incident)
  | boot (n : Nat)
  deriving DecidableEq, Repr

/-- The blocks that own records (R183). -/
inductive Block where
  | rangeTable | credentialUnit | theftWatch | rekeyEngine | eraseEngine | intervalTimer
  deriving DecidableEq, Repr

/-- A write in the arbiter with the blocks that asked for it, more than one where requests were joined (R184); numbered so
that the work waiting on it can name it (the number is the model's). -/
structure PendingWrite where
  id : Nat
  blocks : List Block
  what : RecWrite
  deriving DecidableEq, Repr

/-- Work of the engines that goes on when store writes have completed. -/
inductive Cont where
  /-- The journal's step 0 is written: the watch completes its entry to ERASING (R157). -/
  | eraseEntered
  /-- The writes of an erase step are done: the engine goes on to this step (R159). -/
  | eraseNext (step : Nat)
  /-- The journal holds a frontier at or past C/2 (R166). -/
  | scrubHalf
  /-- The scrub's last writes are done: step 5 with this result (R168). -/
  | scrubEnd (r : EraseResult)
  /-- The record of REKEY_START or REKEY_RESUME is written: a window is chosen (R112, R113). -/
  | rekeyWindow
  /-- A completion's record write is done: its closing steps (R119). -/
  | rekeyClosing
  /-- The two writes that end a rekey are done (R120). -/
  | rekeyEnded (r : Fin 16)
  deriving DecidableEq, Repr

/-- Work waiting for the writes `ids`. -/
structure Wait where
  ids : List Nat
  job : Cont
  deriving DecidableEq, Repr

/-- The Persistent Store: its content as the last completed writes left it, the write in progress and the waiting
writes in arrival order. `nextId`, `touched` (the writes that the command being taken has asked for; empty between
commands) and `waits` are the model's own. -/
structure Store where
  nv : Records
  active : Option PendingWrite
  queue : List PendingWrite
  nextId : Nat
  touched : List Nat
  waits : List Wait
  deriving DecidableEq, Repr

/-! ## Ranges and slots -/

/-- Who waits on a close (R3): the LOCK or LOCK_ALL in progress, or the SLEEP in progress. -/
inductive Waiter where
  | security | sleep
  deriving DecidableEq, Repr

/-- What an OPEN or CLOSING range holds (R4). -/
structure Held where
  level : Level
  key : Key
  current : Fin 18
  next : Option (Fin 18)
  deriving DecidableEq, Repr

/-- A range's state with what that state holds (R3, R4); a CLOSING range has its deadline, in whole seconds
remaining, and its close waiters. -/
inductive RangeRun where
  | locked
  | opened (h : Held)
  | closing (h : Held) (deadline : Nat) (waiters : List Waiter)
  | erased
  deriving DecidableEq, Repr

/-- The runtime part of a range record (R3). -/
structure RangeRt where
  run : RangeRun
  sleepMark : Bool
  deriving DecidableEq, Repr

/-- A key slot (R10). -/
inductive Slot where
  | empty
  | live (owner : Fin 16) (key : Key) (pins : Nat)
  | draining (owner : Fin 16) (key : Key) (pins : Nat)
  deriving DecidableEq, Repr

/-! ## Transfers -/

/-- A segment's treatment (R29). -/
inductive Treatment where
  | cipher (slot : Fin 18)
  | pad
  deriving DecidableEq, Repr

/-- A segment (R29). -/
structure Segment where
  extent : Extent
  range : Fin 16
  treatment : Treatment
  deriving DecidableEq, Repr

/-- The fields of an ADMITTED or ABORTING entry (R29). -/
structure Xfer where
  cls : XferClass
  extent : Extent
  order : Option Nat
  segs : List Segment
  next : Nat
  answered : Nat
  ciphered : Nat
  padded : Bool
  deriving DecidableEq, Repr

/-- A transfer table entry (R29). A HELD entry's arrival position is its tag's place in the hold list. -/
inductive Entry where
  | free
  | held (cls : XferClass) (extent : Extent)
  | admitted (x : Xfer)
  | aborting (x : Xfer)
  deriving DecidableEq, Repr

/-- The Admission Unit: the transfer table (R29) and the fence hold list, oldest first (R30). -/
structure Admission where
  table : Vector Entry 32
  hold : List (Fin 32)
  deriving DecidableEq, Repr

/-- A unit in the unit input buffer (R41). -/
structure BufUnit where
  tag : Fin 32
  index : Nat
  payload : UnitData
  deriving DecidableEq, Repr

/-! ## The engines -/

/-- The channel a derivation request comes from (R62). -/
inductive Channel where
  | security | platform
  deriving DecidableEq, Repr

/-- A derivation job (R62). -/
structure DerivJob where
  channel : Channel
  secret : Secret
  salt : Salt
  wf : Nat
  deriving DecidableEq, Repr

/-- The Derivation Engine (R62). -/
structure Derivation where
  job : Option DerivJob
  waiting : List DerivJob
  deriving DecidableEq, Repr

/-- The outstanding migration order (R109); `deadline` is whole seconds remaining. -/
structure MigOrder where
  num : Nat
  window : Extent
  deadline : Nat
  deriving DecidableEq, Repr

/-- The Rekey Engine's volatile state (R109). `seen` is the range and frontier that the walk goes on seeing while the
record that moves them is being written (R117); `completing` says that a completion's closing steps (R119) are owed. -/
structure RekeyEngine where
  order : Option MigOrder
  fence : Option Extent
  intended : Option Extent
  counter : Nat
  seen : Option (Fin 16 × Nat)
  completing : Bool
  deriving DecidableEq, Repr

/-- An outstanding scrub order (R156): its number, the start of its chunk, its deadline in whole seconds remaining. -/
structure ScrubOrder where
  num : Nat
  chunk : Nat
  deadline : Nat
  deriving DecidableEq, Repr

/-- The Erase Engine's volatile state (R156): the outstanding orders, the retry counts that are not 0 (chunk start,
count) and the chunks above the frontier marked done. `starting` names the write of a step 0 that has not completed
(R157); `stopping` says that the scrub was abandoned and its last write is awaited (R165). -/
structure EraseEngine where
  orders : List ScrubOrder
  retries : List (Nat × Nat)
  done : List Nat
  starting : Option Nat
  stopping : Bool
  deriving DecidableEq, Repr

/-- The Credential Unit's volatile state: the hold-off timer, stopped or with its seconds remaining (R61), and the
pending set (R82), listed ascending. -/
structure CredUnit where
  holdoff : Option Nat
  pendingSet : List (Fin 16)
  deriving DecidableEq, Repr

/-- The Theft Watch's volatile state (R126, R130, R134, R147, R150): countdown timers hold their seconds remaining,
the check-in and decay timers the seconds elapsed. -/
structure TheftWatch where
  binding : Binding
  lastWord : Option BindingWord
  deadline : Option Nat
  supervision : Supervision
  checkin : Nat
  sleep : SleepState
  decay : Option Nat
  levels : Vector Bool 4
  holdDowns : Vector (Option Nat) 4
  deriving DecidableEq, Repr

/-! ## Notices, answers and frames -/

/-- A notice with its parameter (9.4 of 09_links_channels_and_notices.md). -/
inductive Notice where
  | watchState (w : WatchState)
  | eraseStep (step : Nat)
  | eraseDone (r : EraseResult)
  | holdoffEnd (n : Nat)
  | autoOpenFailed (r : Fin 16)
  | rekeyHalf (r : Fin 16)
  | rekeyDone (r : Fin 16)
  | rekeyFault (r : Fin 16)
  | scrubHalf
  | commandLost (kind : Byte) (result : Code)
  deriving DecidableEq, Repr

/-- A notice queue entry (R179); `seq` is the model's number for it, by which a fetch removes what it delivered. -/
structure NoticeEntry where
  notice : Notice
  gap : Bool
  seq : Nat
  deriving DecidableEq, Repr

/-- One range in the STATUS answer (R190). -/
structure RangeStatus where
  defined : Bool
  run : RangeRun
  attributes : Attributes
  extent : Option Extent
  deriving DecidableEq, Repr

/-- The status block of the STATUS answer (R175, R190). -/
structure StatusBlock where
  watch : WatchRec
  decay : Nat
  levels : Vector Bool 4
  holdDowns : List Nat
  incidents : Nat
  binding : Binding
  deadline : Nat
  supervision : Supervision
  checkin : Nat
  sleep : SleepState
  pendingSet : List (Fin 16)
  ranges : List RangeStatus
  free : Nat
  held : Nat
  admitted : Nat
  aborting : Nat
  holdList : Nat
  creds : List (Role × CredState × Nat)
  charged : Nat
  holdoff : Nat
  rekey : Option RekeyRec
  order : Option MigOrder
  fence : Option Extent
  policy : Policy
  driveUp : Bool
  platformUp : Bool
  secNotices : Nat
  platNotices : Nat
  secMask : BitVec 16
  platMask : BitVec 16
  wraps : List (Holder × Fin 16 × Access)
  journal : Option Journal
  scrubOrders : Nat
  deriving DecidableEq, Repr

/-- The answer bodies of R190. -/
inductive AnswerBody where
  | empty
  | status (b : StatusBlock)
  | notices (delivered : List NoticeEntry) (left : Nat)
  | mask (m : BitVec 16)
  | seconds (n : Nat)
  | rangeResults (l : List (Fin 16 × Code))
  | rangeList (l : List (Fin 16))
  | code (c : Code)
  | policy (p : Policy)
  | offset (n : Nat)
  | incidents (held : Nat) (l : List Incident)
  | eraseStep (step : Nat)
  deriving DecidableEq, Repr

/-- The frames the part sends (R190, frame table of 11.1). -/
inductive OutFrame where
  | linkReady (capacity : Nat) (identity : BitVec 128) (boot : Nat)
  | linkError (kind : Byte)
  | xferAdmit (tag : Fin 32)
  | xferHeld (tag : Fin 32)
  | xferRefuse (tag : Fin 32) (reason : Code) (range : Option (Fin 16))
  | xferUnit (tag : Fin 32) (pad : Bool) (index : Nat) (payload : UnitData)
  | xferEnd (tag : Fin 32) (status : EndStatus) (answered ciphered : Nat)
  | migrate (num : Nat) (window : Extent)
  | scrub (num : Nat) (window : Extent)
  | secAnswer (id : BitVec 16) (kind : Byte) (result : Code) (body : AnswerBody)
  deriving DecidableEq, Repr

/-- The status fields of every platform answer (R140). -/
structure PlatStatus where
  watch : WatchState
  binding : Binding
  supervision : Supervision
  checkin : Nat
  sleep : SleepState
  step : Option Nat
  deriving DecidableEq, Repr

/-- What the platform answer buffer holds (R177): an answer, or the placeholder of a PLATFORM_FETCH. -/
inductive PlatAnswer where
  | answer (kind : Byte) (result : Code) (body : AnswerBody)
  | fetch
  deriving DecidableEq, Repr

/-- What a platform read transaction returns (R177). -/
structure ReadAnswer where
  kind : Byte
  result : Code
  status : PlatStatus
  body : AnswerBody
  deriving DecidableEq, Repr

/-! ## Channels -/

/-- How far the security request in progress has come. -/
inductive SecPhase where
  /-- Just taken (R174). -/
  | taken
  /-- Charged, its two writes not complete (R67). -/
  | charging
  /-- Its test's derivation requested (R67). -/
  | testing
  /-- Its second secret's derivation, or TAKE_OWNERSHIP's, requested (R71, R89). -/
  | second
  /-- A LOCK or LOCK_ALL waiting on closes (R21). -/
  | closing
  /-- A SET_POLICY whose record is being written (R102). -/
  | policyWrite (p : Policy)
  /-- A REPROVISION whose steps 1 to 4 are being written (R170): the ranges opened. -/
  | reprovisioning (opened : List (Fin 16))
  /-- Its answer ready, waiting for store writes (R87). -/
  | answering (c : Code) (b : AnswerBody)
  deriving DecidableEq, Repr

/-- The security request in progress (R174): the request with its identifier and kind, the answer-lost flag, the
credential keys held for it (R8), the store writes its answer waits for and whether it waits for an erase's step 0. -/
structure SecJob where
  req : Instr
  lost : Bool
  phase : SecPhase
  keys : List CredKey
  writes : List Nat
  awaitsErase : Bool
  deriving DecidableEq, Repr

/-- How far the platform message in progress has come. -/
inductive PlatPhase where
  | taken
  /-- A SLEEP waiting on closes (R134). -/
  | closing
  /-- A REMOTE_ERASE's derivation requested, with the copied verifier (R138). -/
  | token (v : Verifier)
  | answering (c : Code)
  deriving DecidableEq, Repr

/-- The platform message in progress (R177): its kind code, the answer-dropped flag, its waits as for `SecJob`. -/
structure PlatJob where
  kind : Byte
  dropped : Bool
  phase : PlatPhase
  writes : List Nat
  awaitsErase : Bool
  deriving DecidableEq, Repr

/-- The Command Processor (R174, R177, R179, R181, R182): the channel states (no request is IDLE), the notice queues,
the attention masks and the two attention lines. `seq` numbers notices. -/
structure CommandProcessor where
  sec : Option SecJob
  plat : Option PlatJob
  secQueue : List NoticeEntry
  platQueue : List NoticeEntry
  secMask : BitVec 16
  platMask : BitVec 16
  secAttn : Bool
  platAttn : Bool
  seq : Nat
  deriving DecidableEq, Repr

/-- The Drive Link Interface (R171, R172, R173): the link state, the unit input buffer, the inbound frames held back
behind a unit that finds the buffer full, and the frames produced and not yet sent. `lastSent`, the frame that left
last, is the model's window on the link. -/
structure DriveLink where
  up : Bool
  units : List BufUnit
  inbound : List Instr
  outbox : List OutFrame
  lastSent : Option OutFrame
  deriving DecidableEq, Repr

/-- The Platform Link Interface (R177). `lastRead`, what the last read transaction returned (none where the part did
not acknowledge), is the model's window on the bus. -/
structure PlatformLink where
  up : Bool
  buffer : Option PlatAnswer
  lastRead : Option ReadAnswer
  deriving DecidableEq, Repr

/-- How far start-up has come. -/
inductive PartPhase where
  /-- Power was lost in start-up (R189): the part waits for its next cold start. -/
  | starting
  /-- Step 2 is done and no copy of the factory record was good (R186): the uptime runs, and nothing else goes on. -/
  | held
  /-- Start-up has ended (R188, step 10). -/
  | running
  deriving DecidableEq, Repr

/-- The part. `copies` are the blocks' working copies of the records (R183); `draws` counts the draws of the random
source (R6); `deviceKey` is the device key (R7); `pending` is the queue of commands waiting to be taken. -/
structure State where
  phase : PartPhase
  drive : DriveLink
  platform : PlatformLink
  adm : Admission
  ranges : Vector RangeRt 16
  slots : Vector Slot 18
  cred : CredUnit
  derive : Derivation
  rekey : RekeyEngine
  erase : EraseEngine
  watch : TheftWatch
  cmd : CommandProcessor
  uptime : Nat
  copies : Records
  store : Store
  draws : Nat
  deviceKey : Key
  pending : List Instr
  deriving DecidableEq, Repr

/-- Why the part stops. -/
inductive Fault where
  /-- Raised by CIPHER_UNIT_TAKE alone: the unit's entry is ADMITTED and no segment holds its LBA, or its CIPHER
  segment names an EMPTY slot. R35 and R43 exclude both, so no run reaches it. Safe: it claims nothing of the part. -/
  | noMediaKey
  deriving DecidableEq, Repr

/-- Why a command has no meaning. -/
inductive Refusal where
  /-- A command that the model has not given its meaning; no arm answers it. Safe. -/
  | notModelled (mnemonic : String)
  deriving DecidableEq, Repr

/-! ## The part right after reset -/

/-- No range attribute. -/
def Attributes.none : Attributes := ⟨false, false, false⟩

/-- An undefined range's record (R1, R88). -/
def RangeRec.undefined : RangeRec :=
  { defined := false, extent := none, attributes := Attributes.none, generation := 0, salt := ⟨0⟩,
    current := none, next := none, erased := false }

/-- An EMPTY credential record (R88). -/
def CredRec.empty : CredRec := { state := .empty, verifier := none, ownCount := 0 }

/-- The defaults of R101. -/
def Policy.default : Policy :=
  { freeAttempts := 3, holdBase := 5, holdCap := 3600, wipeLimit := 20, disableLimit := 8, workFactor := 8,
    t1 := 64, t2 := 160, t3 := 240, eraseByScore := true, checkinEnable := false, scrubEnable := true,
    weights := #v[12, 96, 48, 16, 40, 0, 0, 0, 0, 8, 24, 64, 128, 64],
    decayStep := 16, relief := 32, gMin := 60, lineHold := #v[5, 5, 5, 5], decayPeriod := 10, gMax := 900,
    bindingDeadline := 60, lineModes := #v[.ignore, .ignore, .ignore, .ignore], retryLimit := 2 }

/-- The device key: the first draw made (R7). -/
def factoryDeviceKey : Key := ⟨0⟩

/-- Range 0's factory range key, media key and salt (R88): the next draws. -/
def factoryRangeKey : Key := ⟨1⟩
def factoryMediaKey : Key := ⟨2⟩
def factorySalt : Salt := ⟨3⟩

/-- The factory values of the records (R88). The capacity and the identity are those of the log's entry on the
factory record. -/
def Records.factoryImage : Records :=
  { factory := { capacity := 2 ^ 15, identity := 0 }
    ranges := (Vector.replicate 16 RangeRec.undefined).set 0
      { defined := true, extent := none, attributes := ⟨true, false, false⟩, generation := 0, salt := factorySalt,
        current := some ⟨factoryMediaKey, factoryRangeKey⟩, next := none, erased := false }
    creds := Vector.replicate 8 CredRec.empty
    wraps := (Vector.replicate 64 none).set 0 (some ⟨.device, 0, .full, factorySalt, ⟨factoryRangeKey, .device factoryDeviceKey⟩⟩)
    charged := 0, policy := Policy.default, digest := none, token := none, watch := ⟨.settled, 0⟩, rekey := none,
    journal := none, incidents := [], boot := 0 }

/-- Every kind of notice in an attention mask (R181). -/
def fullMask : BitVec 16 := 0x3FF

/-- The part right after reset: a factory part (R88) whose first cold start has ended (R187, R188). Its one record that
changed is the boot count, and range 0 has opened through its DEVICE entry. -/
def State.reset : State :=
  let recs : Records := { Records.factoryImage with boot := 1 }
  { phase := .running
    drive := { up := false, units := [], inbound := [], outbox := [], lastSent := none }
    platform := { up := true, buffer := none, lastRead := none }
    adm := { table := Vector.replicate 32 .free, hold := [] }
    ranges := (Vector.replicate 16 ⟨.locked, false⟩).set 0 ⟨.opened ⟨.readWrite, factoryRangeKey, 0, none⟩, false⟩
    slots := (Vector.replicate 18 .empty).set 0 (.live 0 factoryMediaKey 0)
    cred := { holdoff := none, pendingSet := [] }
    derive := { job := none, waiting := [] }
    rekey := { order := none, fence := none, intended := none, counter := 1, seen := none, completing := false }
    erase := { orders := [], retries := [], done := [], starting := none, stopping := false }
    watch := { binding := .unbound, lastWord := none, deadline := some 60, supervision := .off, checkin := 0,
               sleep := .awake, decay := some 0, levels := Vector.replicate 4 false,
               holdDowns := Vector.replicate 4 none }
    cmd := { sec := none, plat := none, secQueue := [], platQueue := [], secMask := fullMask, platMask := fullMask,
             secAttn := false, platAttn := false, seq := 0 }
    uptime := 0
    copies := recs
    store := { nv := recs, active := none, queue := [], nextId := 1, touched := [], waits := [] }
    draws := 4
    deviceKey := factoryDeviceKey
    pending := [] }

end Sys2Proof.Machine
end

