-- ==== Sys2Proof/Machine/Ops.lean ====
section
/-! DEFINITION. The named operations every block shares: the records and their writes, the random source, incidents,
notices and attention lines, frames, answers, key slots. -/

namespace Sys2Proof.Machine

/-! ## Time and constants -/

/-- Close deadline: 2 s (R21). -/
def closeSeconds : Nat := 2
/-- Migration order deadline: 30 s (R109). -/
def migrateSeconds : Nat := 30
/-- Scrub order deadline: 120 s (R156). -/
def scrubSeconds : Nat := 120
/-- Migration chunk: 256 blocks (R114). -/
def migrateChunk : Nat := 256
/-- Scrub chunk: 2048 blocks (R163). -/
def scrubChunk : Nat := 2048
/-- The unit input buffer holds 8 units (R41). -/
def unitBufferSize : Nat := 8
/-- The fence hold list holds 8 entries (R30). -/
def holdListSize : Nat := 8

/-! ## Extents -/

/-- The end of an extent; exact, never reduced (00_scope.md, Extents). -/
def extentEnd (e : Extent) : Nat := e.start + e.len

/-- Whether an extent contains an LBA. -/
def extentHas (e : Extent) (x : Nat) : Bool := decide (e.start ≤ x) && decide (x < extentEnd e)

/-- Whether two extents share an LBA. -/
def extentsOverlap (a b : Extent) : Bool :=
  decide (a.start < extentEnd b) && decide (b.start < extentEnd a)

/-! ## Records and writes (R183, R184) -/

/-- The block that owns the record a write is for (R183), and asks for the write unless the rule names another. R183 gives the
policy no owner ('read by several blocks'): DESIGN CHOICE (entry 51 of the log), it is the Credential Unit's, which R102
has store it. -/
def writeOwner : RecWrite → Block
  | .range _ _ => .rangeTable
  | .cred _ _ => .credentialUnit
  | .wrap _ _ => .credentialUnit
  | .charged _ => .credentialUnit
  | .policy _ => .credentialUnit
  | .digest _ => .theftWatch
  | .token _ => .theftWatch
  | .watch _ => .theftWatch
  | .rekey _ => .rekeyEngine
  | .journal _ => .eraseEngine
  | .incidents _ => .theftWatch
  | .boot _ => .intervalTimer

/-- Which record a write is for: its kind's place in the table of R183 and its index. -/
def writeRecord : RecWrite → Nat × Nat
  | .range i _ => (1, i)
  | .cred i _ => (2, i)
  | .wrap i _ => (3, i)
  | .charged _ => (4, 0)
  | .policy _ => (5, 0)
  | .digest _ => (6, 0)
  | .token _ => (7, 0)
  | .watch _ => (8, 0)
  | .rekey _ => (9, 0)
  | .journal _ => (10, 0)
  | .incidents _ => (11, 0)
  | .boot _ => (12, 0)

/-- A record takes its new content whole (R183). -/
def applyWrite (w : RecWrite) (r : Records) : Records :=
  match w with
  | .range i v => { r with ranges := r.ranges.set i v }
  | .cred i v => { r with creds := r.creds.set i v }
  | .wrap i v => { r with wraps := r.wraps.set i v }
  | .charged n => { r with charged := n }
  | .policy p => { r with policy := p }
  | .digest d => { r with digest := d }
  | .token v => { r with token := v }
  | .watch w => { r with watch := w }
  | .rekey k => { r with rekey := k }
  | .journal j => { r with journal := j }
  | .incidents l => { r with incidents := l }
  | .boot n => { r with boot := n }

/-- R184: block `b`'s request for a record with a waiting write, the record's last and with no later waiting write of `b`,
gives that write its content, and the write is then `b`'s too. Answers the number of the write joined and the queue. -/
def coalesce (b : Block) (w : RecWrite) : List PendingWrite → Option (Nat × List PendingWrite)
  | [] => none
  | q :: rest =>
    if writeRecord q.what = writeRecord w
        ∧ rest.all (fun x => !x.blocks.contains b && decide (writeRecord x.what ≠ writeRecord w)) = true then
      some (q.id, { q with blocks := if q.blocks.contains b then q.blocks else q.blocks ++ [b], what := w } :: rest)
    else (coalesce b w rest).map fun r => (r.1, q :: r.2)

/-- R184: the arbiter takes block `b`'s write request. It begins at once where no write is in progress, joins a waiting
write of its record where R184 lets it, and goes to the tail of the queue otherwise. -/
def requestWrite (b : Block) (w : RecWrite) (st : Store) : Store :=
  match st.active with
  | none =>
    { st with active := some ⟨st.nextId, [b], w⟩, nextId := st.nextId + 1, touched := st.touched ++ [st.nextId] }
  | some _ =>
    match coalesce b w st.queue with
    | some (id, q) => { st with queue := q, touched := st.touched ++ [id] }
    | none =>
      { st with
        queue := st.queue ++ [⟨st.nextId, [b], w⟩], nextId := st.nextId + 1, touched := st.touched ++ [st.nextId] }

/-- Ask for a write without changing the working copy (a policy takes effect when it is written, R103). -/
def askWrite (w : RecWrite) (s : State) : State := { s with store := requestWrite (writeOwner w) w s.store }

/-- R183: the working copy changes, and at that moment block `b` requests its write. -/
def putBy (b : Block) (w : RecWrite) (s : State) : State :=
  { s with copies := applyWrite w s.copies, store := requestWrite b w s.store }

/-- R183: the working copy changes, and its owner requests the write. -/
def put (w : RecWrite) (s : State) : State := putBy (writeOwner w) w s

def putRange (i : Fin 16) (r : RangeRec) (s : State) : State := put (.range i r) s
def putCred (i : Fin 8) (c : CredRec) (s : State) : State := put (.cred i c) s
def putWrap (i : Fin 64) (e : Option WrapEntry) (s : State) : State := put (.wrap i e) s
def putWatch (w : WatchRec) (s : State) : State := put (.watch w) s
def putRekey (k : Option RekeyRec) (s : State) : State := put (.rekey k) s
def putJournal (j : Option Journal) (s : State) : State := put (.journal j) s

/-- The writes that `f` asks for, with the state it leaves; the writes asked for before stay noted. -/
def withTouched (f : State → State) (s : State) : List Nat × State :=
  let t := f { s with store := { s.store with touched := [] } }
  (t.store.touched, { t with store := { t.store with touched := s.store.touched ++ t.store.touched } })

/-- Note work to be done when the writes `ids` have completed. -/
def addWait (ids : List Nat) (job : Cont) (s : State) : State :=
  { s with store := { s.store with waits := s.store.waits ++ [⟨ids, job⟩] } }

/-- R184: the write in progress completes: the store holds its content, every waiter is told, the next begins. -/
def completeWrite (s : State) : State :=
  match s.store.active with
  | none => s
  | some p =>
    let told : List Nat → List Nat := fun l => l.filter (fun i => i != p.id)
    { s with
      store := { s.store with
        nv := applyWrite p.what s.store.nv
        active := s.store.queue.head?
        queue := s.store.queue.tail
        waits := s.store.waits.map fun w => { w with ids := told w.ids } }
      cmd := { s.cmd with
        sec := s.cmd.sec.map fun j => { j with writes := told j.writes }
        plat := s.cmd.plat.map fun j => { j with writes := told j.writes } } }

/-- The writes of a block that have not completed. -/
def unwrittenOf (b : Block) (s : State) : List Nat :=
  let l := s.store.active.toList ++ s.store.queue
  (l.filter fun p => decide (writeOwner p.what = b)).map PendingWrite.id

/-! ## The random source (R6) -/

/-- Draw a fresh key: unequal to every key drawn before. -/
def drawKey (s : State) : Key × State := (⟨s.draws⟩, { s with draws := s.draws + 1 })

/-- Draw a fresh salt. -/
def drawSalt (s : State) : Salt × State := (⟨s.draws⟩, { s with draws := s.draws + 1 })

/-! ## Incidents (R153, R154) -/

/-- R154: the incident list holds 24; the oldest goes as a further one joins. -/
def joinIncident (i : Incident) (l : List Incident) : List Incident :=
  if l.length < 24 then l ++ [i] else l.tail ++ [i]

/-- Add an incident with the boot count, the uptime and the score as they stand, and write the list (R153, R154). -/
def addIncident (k : IncidentKind) (s : State) : State :=
  put (.incidents (joinIncident ⟨k, s.copies.boot, s.uptime, s.copies.watch.score⟩ s.copies.incidents)) s

/-! ## Notices and attention lines (R179 to R182) -/

/-- A notice kind's mask bit (11.3). -/
def noticeBit : Notice → Nat
  | .watchState _ => 0
  | .eraseStep _ => 1
  | .eraseDone _ => 2
  | .holdoffEnd _ => 3
  | .autoOpenFailed _ => 4
  | .rekeyHalf _ => 5
  | .rekeyDone _ => 6
  | .rekeyFault _ => 7
  | .scrubHalf => 8
  | .commandLost _ _ => 9

/-- R182: a line is asserted while its queue holds an entry whose kind is in its mask. -/
def attention (queue : List NoticeEntry) (mask : BitVec 16) : Bool :=
  queue.any fun e => mask.getLsbD (noticeBit e.notice)

/-- R179: a notice joins at the tail; a full queue discards its oldest and marks the entry that is then the oldest. -/
def joinQueue (cap : Nat) (e : NoticeEntry) (q : List NoticeEntry) : List NoticeEntry :=
  if q.length < cap then q ++ [e]
  else
    match q.tail with
    | [] => [e]
    | h :: rest => { h with gap := true } :: (rest ++ [e])

/-- Replace the security queue; the line's level is set anew (R182). -/
def setSecQueue (q : List NoticeEntry) (s : State) : State :=
  { s with cmd := { s.cmd with secQueue := q, secAttn := attention q s.cmd.secMask } }

/-- Replace the platform queue; the line's level is set anew (R182). -/
def setPlatQueue (q : List NoticeEntry) (s : State) : State :=
  { s with cmd := { s.cmd with platQueue := q, platAttn := attention q s.cmd.platMask } }

/-- Replace the security mask (R181); the line's level is set anew (R182). -/
def setSecMask (m : BitVec 16) (s : State) : State :=
  { s with cmd := { s.cmd with secMask := m, secAttn := attention s.cmd.secQueue m } }

/-- Replace the platform mask (R181); the line's level is set anew (R182). -/
def setPlatMask (m : BitVec 16) (s : State) : State :=
  { s with cmd := { s.cmd with platMask := m, platAttn := attention s.cmd.platQueue m } }

/-- Number the next notice entry. -/
def bumpSeq (s : State) : State := { s with cmd := { s.cmd with seq := s.cmd.seq + 1 } }

/-- Queue a notice on the security channel: at most 32 entries (R179). -/
def noticeSec (n : Notice) (s : State) : State :=
  bumpSeq (setSecQueue (joinQueue 32 ⟨n, false, s.cmd.seq⟩ s.cmd.secQueue) s)

/-- Queue a notice on the platform channel: at most 16 entries (R179). -/
def noticePlat (n : Notice) (s : State) : State :=
  bumpSeq (setPlatQueue (joinQueue 16 ⟨n, false, s.cmd.seq⟩ s.cmd.platQueue) s)

/-- Queue a notice on both channels, each on its own (R179). -/
def noticeBoth (n : Notice) (s : State) : State := noticePlat n (noticeSec n s)

/-! ## Frames and security answers (R171, R172, R176) -/

/-- A frame is produced; while the link is DOWN the part sends none (R171). -/
def pushFrame (f : OutFrame) (s : State) : State :=
  if s.drive.up then { s with drive := { s.drive with outbox := s.drive.outbox ++ [f] } } else s

/-- The request kind codes of R190; `none` for a command that is no security request. -/
def requestCode : Instr → Option Byte
  | .status _ => some 0x01
  | .fetchNotices _ => some 0x02
  | .setAttentionMask _ _ => some 0x03
  | .lock _ _ => some 0x04
  | .lockAll _ => some 0x05
  | .unlock _ _ _ _ => some 0x10
  | .takeOwnership _ _ => some 0x20
  | .changeSecret _ _ _ _ => some 0x21
  | .setSecret _ _ _ _ _ => some 0x22
  | .enableCredential _ _ _ _ => some 0x23
  | .removeCredential _ _ _ _ => some 0x24
  | .grant _ _ _ _ _ _ _ => some 0x25
  | .revoke _ _ _ _ _ => some 0x26
  | .defineRange _ _ _ _ _ _ _ => some 0x30
  | .deleteRange _ _ _ _ => some 0x31
  | .setRangeAttributes _ _ _ _ _ => some 0x32
  | .eraseRange _ _ _ _ => some 0x33
  | .setPolicy _ _ _ _ => some 0x40
  | .bindToPlatform _ _ _ => some 0x41
  | .unbind _ _ _ => some 0x42
  | .setRemoteToken _ _ _ _ => some 0x43
  | .readIncidents _ _ _ _ => some 0x44
  | .clearIncidents _ _ _ => some 0x45
  | .rekeyStart _ _ _ _ => some 0x50
  | .rekeyResume _ _ _ => some 0x51
  | .eraseAll _ _ _ => some 0x60
  | .reprovision _ _ _ => some 0x61
  | .secRequestBadKind _ kind => some kind
  | _ => none

/-- The request identifier of a security request (R174). -/
def requestId : Instr → BitVec 16
  | .status id => id
  | .fetchNotices id => id
  | .setAttentionMask id _ => id
  | .lock id _ => id
  | .lockAll id => id
  | .unlock id _ _ _ => id
  | .takeOwnership id _ => id
  | .changeSecret id _ _ _ => id
  | .setSecret id _ _ _ _ => id
  | .enableCredential id _ _ _ => id
  | .removeCredential id _ _ _ => id
  | .grant id _ _ _ _ _ _ => id
  | .revoke id _ _ _ _ => id
  | .defineRange id _ _ _ _ _ _ => id
  | .deleteRange id _ _ _ => id
  | .setRangeAttributes id _ _ _ _ => id
  | .eraseRange id _ _ _ => id
  | .setPolicy id _ _ _ => id
  | .bindToPlatform id _ _ => id
  | .unbind id _ _ => id
  | .setRemoteToken id _ _ _ => id
  | .readIncidents id _ _ _ => id
  | .clearIncidents id _ _ => id
  | .rekeyStart id _ _ _ => id
  | .rekeyResume id _ _ => id
  | .eraseAll id _ _ => id
  | .reprovision id _ _ => id
  | .secRequestBadKind id _ => id
  | _ => 0

/-- The kind code an answer repeats (R174). -/
def answerKind (c : Instr) : Byte := (requestCode c).getD 0

/-- R176: the answer of the request in progress falls due. With the answer-lost flag set or the link DOWN a
COMMAND_LOST notice takes its place; either way the channel returns to IDLE and the keys held for it go (R8). An answer
counts as sent (R174) when it joins the outbound frames, not when its frame leaves: the channel is IDLE at once, and the next
request can be taken while the frame still waits. DESIGN CHOICE (entry 72 of the log). -/
def secReply (c : Code) (b : AnswerBody) (s : State) : State :=
  match s.cmd.sec with
  | none => s
  | some j =>
    let idle : State := { s with cmd := { s.cmd with sec := none } }
    if j.lost = true ∨ s.drive.up = false then noticeSec (.commandLost (answerKind j.req) c) idle
    else pushFrame (.secAnswer (requestId j.req) (answerKind j.req) c b) idle

/-- Change the security request in progress. -/
def modSec (f : SecJob → SecJob) (s : State) : State :=
  { s with cmd := { s.cmd with sec := s.cmd.sec.map f } }

/-- An answer that is ready is sent once nothing it waits for is left (R87, R176). -/
def secAnswerDue (s : State) : State :=
  match s.cmd.sec with
  | some j =>
    match j.phase with
    | .answering c b => if j.writes = [] ∧ j.awaitsErase = false then secReply c b s else s
    | _ => s
  | none => s

/-- Whether this command has started an erase whose step 0 its requester waits for (R146, R158). -/
def eraseStartedHere (s : State) : Bool :=
  match s.erase.starting with
  | some id => s.store.touched.contains id
  | none => false

/-- The request's work is done: it answers when the store writes asked for have completed (R69, R87), and after the
step 0 of an erase its own work started (R146). -/
def secFinish (c : Code) (b : AnswerBody) (s : State) : State :=
  secAnswerDue (modSec (fun j => { j with
    phase := .answering c b
    writes := j.writes ++ s.store.touched
    awaitsErase := j.awaitsErase || eraseStartedHere s }) s)

/-! ## Platform answers (R177) -/

/-- R177: a message's answer falls due: it is placed in the buffer, or discarded where the reset marked it. -/
def platReply (c : Code) (b : AnswerBody) (s : State) : State :=
  match s.cmd.plat with
  | none => s
  | some j =>
    { s with
      cmd := { s.cmd with plat := none }
      platform := { s.platform with buffer := if j.dropped then none else some (.answer j.kind c b) } }

/-- Change the platform message in progress. -/
def modPlat (f : PlatJob → PlatJob) (s : State) : State :=
  { s with cmd := { s.cmd with plat := s.cmd.plat.map f } }

/-- A platform answer that is ready falls due once nothing it waits for is left. -/
def platAnswerDue (s : State) : State :=
  match s.cmd.plat with
  | some j =>
    match j.phase with
    | .answering c => if j.writes = [] ∧ j.awaitsErase = false then platReply c .empty s else s
    | _ => s
  | none => s

/-- The message's work is done; its answer waits for the writes `ids` and for the step 0 of an erase it started. -/
def platFinish (c : Code) (ids : List Nat) (s : State) : State :=
  platAnswerDue (modPlat (fun j => { j with
    phase := .answering c
    writes := ids
    awaitsErase := eraseStartedHere s }) s)

/-! ## Close waiters (R3, R21, R134) -/

/-- The waiters of a range's close. -/
def waitersOf : RangeRun → List Waiter
  | .closing _ _ ws => ws
  | _ => []

/-- Whether some close still has this waiter. -/
def awaited (w : Waiter) (s : State) : Bool :=
  (List.finRange 16).any fun r => (waitersOf s.ranges[r].run).contains w

/-- A LOCK or LOCK_ALL waits for the writes `ids` that its close has asked for (R108), unless its answer is lost: then
these writes are not waited for, and where no earlier one is owed the answer falls due in the event of the close (R176). A
write that an earlier close of the same LOCK_ALL asked for, before the answer was lost, is still waited for: DESIGN CHOICE
(entry 73 of the log). -/
def awaitWrites (ids : List Nat) (s : State) : State :=
  modSec (fun j => if j.lost then j else { j with writes := j.writes ++ ids }) s

/-- Answer OK a LOCK, LOCK_ALL or SLEEP whose last close has completed (R21, R135); a LOCK or LOCK_ALL once the writes of its
closes have completed too (R108). -/
def settleWaiters (s : State) : State :=
  let s1 := match s.cmd.sec with
    | some j =>
      if j.phase = SecPhase.closing ∧ awaited .security s = false then
        secAnswerDue (modSec (fun j => { j with phase := .answering .ok .empty }) s)
      else s
    | none => s
  match s1.cmd.plat with
  | some j => if j.phase = PlatPhase.closing ∧ awaited .sleep s1 = false then platReply .ok .empty s1 else s1
  | none => s1

/-! ## Key slots (R10 to R14) -/

def setSlot (k : Fin 18) (v : Slot) (s : State) : State := { s with slots := s.slots.set k v }

/-- The EMPTY slots, lowest first. -/
def emptySlots (s : State) : List (Fin 18) :=
  (List.finRange 18).filter fun k => decide (s.slots[k] = .empty)

/-- R13: retirement moves LIVE to DRAINING, and on to EMPTY with no pin. -/
def retiredSlot : Slot → Slot
  | .live o k n => if n = 0 then .empty else .draining o k n
  | v => v

/-- R12: one pin more. -/
def pinnedSlot : Slot → Slot
  | .live o k n => .live o k (n + 1)
  | .draining o k n => .draining o k (n + 1)
  | .empty => .empty

/-- R12, R13: one pin less; a DRAINING slot with none left is EMPTY and its key destroyed. -/
def unpinnedSlot : Slot → Slot
  | .live o k n => .live o k (n - 1)
  | .draining o k n => if n ≤ 1 then .empty else .draining o k (n - 1)
  | .empty => .empty

def retireSlot (k : Fin 18) (s : State) : State := setSlot k (retiredSlot s.slots[k]) s
def pinSlot (k : Fin 18) (s : State) : State := setSlot k (pinnedSlot s.slots[k]) s
def unpinSlot (k : Fin 18) (s : State) : State := setSlot k (unpinnedSlot s.slots[k]) s

/-- A slot's media key, unless EMPTY (R10). -/
def slotKey : Slot → Option Key
  | .empty => none
  | .live _ k _ => some k
  | .draining _ k _ => some k

/-- A slot's pin count; an EMPTY slot's is 0 (R10). -/
def slotPins : Slot → Nat
  | .empty => 0
  | .live _ _ n => n
  | .draining _ _ n => n

/-- The slots a range holds are retired (R13). -/
def retireHeld (h : Held) (s : State) : State :=
  let s1 := retireSlot h.current s
  match h.next with
  | some k => retireSlot k s1
  | none => s1

/-- R11: one slot for a media key, the lowest EMPTY one. -/
def allocOne (owner : Fin 16) (media : Key) (s : State) : Option (Fin 18 × State) :=
  match emptySlots s with
  | k :: _ => some (k, setSlot k (.live owner media 0) s)
  | [] => none

/-- R11: two slots in one step, the lower-numbered for CURRENT, or neither. -/
def allocTwo (owner : Fin 16) (current next : Key) (s : State) : Option (Fin 18 × Fin 18 × State) :=
  match emptySlots s with
  | k :: l :: _ => some (k, l, setSlot l (.live owner next 0) (setSlot k (.live owner current 0) s))
  | _ => none

/-! ## Ranges -/

def setRun (r : Fin 16) (run : RangeRun) (s : State) : State :=
  { s with ranges := s.ranges.set r { s.ranges[r] with run := run } }

def setMark (r : Fin 16) (b : Bool) (s : State) : State :=
  { s with ranges := s.ranges.set r { s.ranges[r] with sleepMark := b } }

def setEntry (t : Fin 32) (e : Entry) (s : State) : State :=
  { s with adm := { s.adm with table := s.adm.table.set t e } }

/-- Whether a range is OPEN. -/
def isOpen : RangeRun → Bool
  | .opened _ => true
  | _ => false

/-- What an OPEN or CLOSING range holds (R4). -/
def heldBy : RangeRun → Option Held
  | .opened h => some h
  | .closing h _ _ => some h
  | _ => none

/-! ## Taking a command -/

/-- Forget the writes noted. -/
def clearTouched (s : State) : State := { s with store := { s.store with touched := [] } }

/-- A command is taken whole: the writes it asks for are noted while it is taken, and forgotten after. -/
def event (f : State → State) (s : State) : Host.Outcome State Fault Refusal := .next (clearTouched (f (clearTouched s)))

end Sys2Proof.Machine
end

