-- ==== Sys2Proof/Machine/Operands.lean ====
section
/-! DEFINITION. The operand forms of the requests and messages: the coded fields of R190, the policy's 42 bytes (R190,
R102) and the form checks of R65 with the fields of each request. -/

namespace Sys2Proof.Machine

/-- A secret's length, and that of any second secret (R65). -/
def secretFits (s : Secret) : Bool := decide (8 ≤ s.length) && decide (s.length ≤ 64)

/-- A range index, after its check that it is below 16. -/
def rangeIx (b : Byte) : Fin 16 := Fin.ofNat 16 b.toNat

/-- A credential index, after its check that it is below 8. -/
def credIx (b : Byte) : Fin 8 := Fin.ofNat 8 b.toNat

/-- A target: 0 to 7 the credential slot, 8 DEVICE (R190), after its check. -/
def holderOf (b : Byte) : Holder := if b.toNat = 8 then .device else .slot (credIx b)

/-- An access: 0 FULL, 1 READ (R190), after its check. -/
def accessOf (b : Byte) : Access := if b.toNat = 0 then .full else .read

/-- The level an access opens at: FULL gives READ_WRITE, READ gives READ_ONLY (R5). -/
def levelOf : Access → Level
  | .full => .readWrite
  | .read => .readOnly

/-- An attribute set: bit 0 AUTO_OPEN, bit 1 BINDING_REQUIRED, bit 2 LOCK_ON_SLEEP (R190). -/
def attributesOf (b : Byte) : Attributes := ⟨b.getLsbD 0, b.getLsbD 1, b.getLsbD 2⟩

/-- An attribute set with none of bits 3 to 7 set (R190). -/
def attributesFit (b : Byte) : Bool := decide (b.toNat < 8)

/-- Slot 0 is the OWNER, slots 1 to 6 USERs, slot 7 RECOVERY (R59). -/
def roleOf (c : Fin 8) : Role := if c = 0 then .owner else if c = 7 then .recovery else .user

/-- The ranges a list names, ascending (R78). -/
def listedRanges (l : List Byte) : List (Fin 16) :=
  (List.finRange 16).filter fun r => l.any fun b => decide (b.toNat = r.val)

/-! ## The policy -/

/-- Byte `i` of a policy. -/
def policyByte (l : List Byte) (i : Nat) : Nat := (l.getD i 0).toNat

/-- `n` bytes from byte `i`, least significant first (11_frame_and_record_formats.md). -/
def policyField (l : List Byte) (i : Nat) : Nat → Nat
  | 0 => 0
  | n + 1 => policyByte l i + 256 * policyField l (i + 1) n

/-- A flag byte carries its flag in bit 0. -/
def policyFlag (l : List Byte) (i : Nat) : Bool := (l.getD i 0).getLsbD 0

/-- A value brought into `[lo, hi]` (R102). -/
def clamp (lo hi n : Nat) : Nat := if n < lo then lo else if hi < n then hi else n

/-- The wipe limit: 1 to 3 become 4, above 64 becomes 64, and 0 stays (R102). -/
def clampWipe (n : Nat) : Nat := if n = 0 then 0 else clamp 4 64 n

/-- The mode of line `n`: bits 2n and 2n + 1 of the line mode byte (R190). -/
def lineModeOf (b : Nat) (n : Nat) : LineMode :=
  let m := b / 4 ^ n % 4
  if m = 0 then .ignore else if m = 1 then .rise else if m = 2 then .fall else .both

/-- A policy as carried, every field brought into its stored range (R102), laid out as R190 gives it. -/
def readPolicy (l : List Byte) : Policy :=
  let b := policyByte l
  let modes := b 40
  { freeAttempts := clamp 0 7 (b 0)
    holdBase := clamp 1 60 (b 1)
    holdCap := clamp 60 86400 (policyField l 2 4)
    wipeLimit := clampWipe (b 6)
    disableLimit := clamp 0 32 (b 7)
    workFactor := clamp 4 12 (b 8)
    t1 := b 9, t2 := b 10, t3 := b 11
    eraseByScore := policyFlag l 12
    checkinEnable := policyFlag l 13
    scrubEnable := policyFlag l 14
    weights := #v[b 15, b 16, b 17, b 18, b 19, b 20, b 21, b 22, b 23, b 24, b 25, b 26, b 27, b 28]
    decayStep := b 29
    relief := b 30
    gMin := b 31
    lineHold := #v[b 32, b 33, b 34, b 35]
    decayPeriod := clamp 1 255 (b 36)
    gMax := clamp 10 3600 (policyField l 37 2)
    bindingDeadline := clamp 1 255 (b 39)
    lineModes := #v[lineModeOf modes 0, lineModeOf modes 1, lineModeOf modes 2, lineModeOf modes 3]
    retryLimit := clamp 0 7 (b 41) }

/-- R102: the byte offset of the first field that refuses a policy: a threshold out of the order
1 ≤ T1 ≤ T2 ≤ T3, or a g_min at or above the clamped g_max. -/
def policyRefusal (l : List Byte) : Option Nat :=
  let p := readPolicy l
  if p.t1 < 1 then some 9
  else if p.t2 < p.t1 then some 10
  else if p.t3 < p.t2 then some 11
  else if p.gMax ≤ p.gMin then some 31
  else none

/-! ## Form checks (R65) -/

/-- A refusal: a reason code and its answer body. -/
abbrev Refused := Option (Code × AnswerBody)

/-- Refuse unless a check holds. -/
def orRefuse (ok : Bool) (c : Code) (rest : Refused) : Refused := if ok then rest else some (c, .empty)

/-- R65: the first two fields, before the fields of the request itself. Of two checks that fail the one listed first in R65
answers: DESIGN CHOICE (entry 48 of the log). -/
def credentialForm (cred : Byte) (secret : Secret) (rest : Refused) : Refused :=
  orRefuse (decide (cred.toNat < 8)) .badValue (orRefuse (secretFits secret) .badFormat rest)

/-- An index of 1 to 15 (R96, R98). -/
def definable (b : Byte) : Bool := decide (1 ≤ b.toNat) && decide (b.toNat < 16)

/-- A target slot of 1 to 7 (R90, R91, R92). -/
def targetSlot (b : Byte) : Bool := decide (1 ≤ b.toNat) && decide (b.toNat < 8)

/-- R96: the extent of a DEFINE_RANGE on a drive of capacity `C`. -/
def extentForm (capacity start len : Nat) : Bool :=
  decide (start % 8 = 0) && decide (len % 8 = 0) && decide (8 ≤ len) && decide (start + len ≤ capacity)

/-- R93: whether a GRANT needs a second secret: its target is a credential other than the presenter. -/
def needsSecond (cred target : Byte) : Bool := decide (target.toNat < 8) && decide (target ≠ cred)

/-- R93: a second secret that a GRANT needs, missing or of a wrong size, is refused BAD_VALUE. R65 has BAD_FORMAT for a size;
the request's own rule is followed: DESIGN CHOICE (entry 24 of the log). Where none is needed it is ignored (R71, R94). -/
def grantSecond (cred target : Byte) (second : Secret) (rest : Refused) : Refused :=
  orRefuse (!needsSecond cred target || secretFits second) .badValue rest

/-- The form check of a credential-bearing request (R65), with the fields its own rule names; `none` passes. The checks are
made in the order in which R65 lists them, so that a second secret of a wrong size answers before a wrong target: DESIGN
CHOICE (entry 48 of the log). A SET_POLICY refused for its credential index names no policy field, and its answer is empty:
DEDUCED (entry 54 of the log). -/
def formCheck (capacity : Nat) : Instr → Refused
  | .unlock _ cred secret ranges =>
    credentialForm cred secret
      (orRefuse (ranges.all (fun b => decide (b.toNat < 16)) && decide ranges.Nodup) .badValue none)
  | .changeSecret _ cred secret new => credentialForm cred secret (orRefuse (secretFits new) .badFormat none)
  | .setSecret _ cred secret target new =>
    credentialForm cred secret (orRefuse (secretFits new) .badFormat (orRefuse (targetSlot target) .badValue none))
  | .enableCredential _ cred secret target => credentialForm cred secret (orRefuse (targetSlot target) .badValue none)
  | .removeCredential _ cred secret target => credentialForm cred secret (orRefuse (targetSlot target) .badValue none)
  | .grant _ cred secret target range access second =>
    credentialForm cred secret (grantSecond cred target second
      (orRefuse (decide (target.toNat ≤ 8) && decide (range.toNat < 16) && decide (access.toNat < 2)) .badValue none))
  | .revoke _ cred secret target range =>
    credentialForm cred secret (orRefuse (decide (target.toNat ≤ 8) && decide (range.toNat < 16)) .badValue none)
  | .defineRange _ cred secret range start len attrs =>
    credentialForm cred secret
      (orRefuse (definable range && extentForm capacity start len && attributesFit attrs) .badValue none)
  | .deleteRange _ cred secret range => credentialForm cred secret (orRefuse (definable range) .badValue none)
  | .setRangeAttributes _ cred secret range attrs =>
    credentialForm cred secret (orRefuse (decide (range.toNat < 16) && attributesFit attrs) .badValue none)
  | .eraseRange _ cred secret range => credentialForm cred secret (orRefuse (decide (range.toNat < 16)) .badValue none)
  | .setPolicy _ cred secret policy =>
    credentialForm cred secret ((policyRefusal policy).map fun i => (.badValue, .offset i))
  | .bindToPlatform _ cred secret => credentialForm cred secret none
  | .unbind _ cred secret => credentialForm cred secret none
  | .setRemoteToken _ cred secret token =>
    credentialForm cred secret (orRefuse (decide (token = []) || secretFits token) .badFormat none)
  | .readIncidents _ cred secret position =>
    credentialForm cred secret (orRefuse (decide (position.toNat < 24)) .badValue none)
  | .clearIncidents _ cred secret => credentialForm cred secret none
  | .rekeyStart _ cred secret range => credentialForm cred secret (orRefuse (decide (range.toNat < 16)) .badValue none)
  | .rekeyResume _ cred secret => credentialForm cred secret none
  | .eraseAll _ cred secret => credentialForm cred secret none
  | .reprovision _ cred secret => credentialForm cred secret none
  | _ => none

/-- The credential index and the secret of a credential-bearing request (R65). -/
def credentials : Instr → Option (Fin 8 × Secret)
  | .unlock _ c s _ => some (credIx c, s)
  | .changeSecret _ c s _ => some (credIx c, s)
  | .setSecret _ c s _ _ => some (credIx c, s)
  | .enableCredential _ c s _ => some (credIx c, s)
  | .removeCredential _ c s _ => some (credIx c, s)
  | .grant _ c s _ _ _ _ => some (credIx c, s)
  | .revoke _ c s _ _ => some (credIx c, s)
  | .defineRange _ c s _ _ _ _ => some (credIx c, s)
  | .deleteRange _ c s _ => some (credIx c, s)
  | .setRangeAttributes _ c s _ _ => some (credIx c, s)
  | .eraseRange _ c s _ => some (credIx c, s)
  | .setPolicy _ c s _ => some (credIx c, s)
  | .bindToPlatform _ c s => some (credIx c, s)
  | .unbind _ c s => some (credIx c, s)
  | .setRemoteToken _ c s _ => some (credIx c, s)
  | .readIncidents _ c s _ => some (credIx c, s)
  | .clearIncidents _ c s => some (credIx c, s)
  | .rekeyStart _ c s _ => some (credIx c, s)
  | .rekeyResume _ c s => some (credIx c, s)
  | .eraseAll _ c s => some (credIx c, s)
  | .reprovision _ c s => some (credIx c, s)
  | _ => none

end Sys2Proof.Machine
end

