-- ==== Sys2Proof/Machine/Flags.lean ====
section
/-! DEFINITION. What the states decide: the hold-off length, the channel's gating table, the requests' needs on the
watch and on the role, and the range, transfer and link conditions other rules test. -/

namespace Sys2Proof.Machine

/-- R73: the free attempts count as set while the watch is SETTLED and as 0 in every other state. -/
def freeAttempts (p : Policy) (w : WatchState) : Nat := if w = .settled then p.freeAttempts else 0

/-- R73: the hold-off length h(n) in seconds for a global charged count n. -/
def holdoffLength (p : Policy) (w : WatchState) (n : Nat) : Nat :=
  let free := freeAttempts p w
  if n ≤ free then 0
  else
    let k := n - free - 1
    if 17 ≤ k then p.holdCap else min p.holdCap (p.holdBase * 2 ^ k)

/-- R68, R75: a timer for a length of 0 stays stopped. -/
def startTimer (seconds : Nat) : Option Nat := if seconds = 0 then none else some seconds

/-- The watch states in which the drive is still the owner's to use: SETTLED, WARY, ALARMED. -/
def alive : WatchState → Bool
  | .settled => true
  | .wary => true
  | .alarmed => true
  | .erasing => false
  | .erased => false

/-- SETTLED or WARY: the states in which decay runs (R147) and auto-open is made (R81). -/
def calm : WatchState → Bool
  | .settled => true
  | .wary => true
  | _ => false

/-- The watch states in which an administrative request is taken (R86). UNLOCK has no entry of its own in R86; its
watch check is check 1 of R66. -/
def watchNeed (c : Instr) (w : WatchState) : Bool :=
  match c with
  | .setPolicy _ _ _ _ => decide (w = .settled)
  | .rekeyStart _ _ _ _ => calm w
  | .rekeyResume _ _ _ => calm w
  | .reprovision _ _ _ => decide (w = .erased)
  | _ => alive w

/-- R175: whether the Command Processor passes a request in a watch state. -/
def channelPasses (c : Instr) (w : WatchState) : Bool :=
  match c with
  | .status _ => true
  | .fetchNotices _ => true
  | .setAttentionMask _ _ => true
  | .unlock _ _ _ _ => true
  | c => watchNeed c w

/-- R66, check 6: every credential-bearing request needs OWNER, but for UNLOCK and CHANGE_SECRET. -/
def roleSuits (c : Instr) (r : Role) : Bool :=
  match c with
  | .unlock _ _ _ _ => true
  | .changeSecret _ _ _ _ => true
  | _ => decide (r = .owner)

/-- R66, check 1, for UNLOCK: NOT_NOW in ERASING, ERASED in ERASED. Any other request has met R175 by the same
table. -/
def unlockWatch (c : Instr) (w : WatchState) : Refused :=
  match c with
  | .unlock _ _ _ _ =>
    if w = .erasing then some (.notNow, .empty) else if w = .erased then some (.erased, .empty) else none
  | c => if watchNeed c w then none else some (.notNow, .empty)

/-- R66: the gating checks in order; `none` passes. -/
def gatingCheck (c : Instr) (cred : Fin 8) (s : State) : Refused :=
  match unlockWatch c s.copies.watch.state with
  | some r => some r
  | none =>
    match s.cred.holdoff with
    | some n => some (.holdOff, .seconds n)
    | none =>
      if s.copies.creds[cred].state = .empty then some (.emptySlot, .empty)
      else if s.copies.creds[cred].state = .disabled then some (.disabled, .empty)
      else if s.copies.watch.state = .alarmed ∧ roleOf cred = .user then some (.roleRefused, .empty)
      else if roleSuits c (roleOf cred) then none
      else some (.roleRefused, .empty)

/-- R70: a success verdict's effect withheld, with the answer; `none` applies it. -/
def verdictWithheld (c : Instr) (cred : Fin 8) (w : WatchState) : Option Code :=
  match c with
  | .unlock _ _ _ _ =>
    if alive w then (if w = .alarmed ∧ roleOf cred = .user then some .roleRefused else none) else some .erased
  | .reprovision _ _ _ => if w = .erased then none else some .notNow
  | c =>
    if alive w then
      (if w = .alarmed ∧ roleOf cred = .user then some .roleRefused
       else if watchNeed c w then none else some .notNow)
    else some .notNow

/-! ## Ranges and transfers -/

/-- The extent of a defined range 1 to 15 (R2). -/
def definedExtent (recs : Records) (r : Fin 16) : Option Extent :=
  if r ≠ 0 ∧ recs.ranges[r].defined = true then recs.ranges[r].extent else none

/-- Whether a range exists: range 0 always does (R1). -/
def rangeDefined (recs : Records) (r : Fin 16) : Bool := decide (r = 0) || recs.ranges[r].defined

/-- Whether an entry is ADMITTED with a segment in a range (R22). -/
def admittedIn (r : Fin 16) : Entry → Bool
  | .admitted x => x.segs.any fun g => decide (g.range = r)
  | _ => false

/-- Whether an entry is an ADMITTED WRITE overlapping a window (R115). -/
def admittedWriteOn (w : Extent) : Entry → Bool
  | .admitted x => decide (x.cls = .write) && extentsOverlap x.extent w
  | _ => false

/-- R22: the drain condition: no ADMITTED entry has a segment in the range. -/
def drained (r : Fin 16) (s : State) : Bool :=
  (List.finRange 32).all fun t => !admittedIn r s.adm.table[t]

/-- Whether a rekey record names a range (R19). -/
def rekeyOn (r : Fin 16) (recs : Records) : Bool :=
  match recs.rekey with
  | some k => decide (k.range = r)
  | none => false

/-- The range under rekey and the frontier as the walk sees them (R34, R117). -/
def rekeyView (s : State) : Option (Fin 16 × Nat) :=
  match s.rekey.seen with
  | some v => some v
  | none => s.copies.rekey.map fun k => (k.range, k.frontier)

end Sys2Proof.Machine
end

