-- ==== Sys2Proof/Machine/Walk.lean ====
section
/-! DEFINITION. Which range holds an LBA, the pieces of range 0, and the range walk with its per-segment checks (R2, R33
to R38). -/

namespace Sys2Proof.Machine

/-- R2: the range that holds an LBA: the defined range that contains it, or range 0. -/
def rangeAt (recs : Records) (x : Nat) : Fin 16 :=
  ((List.finRange 16).find? fun r =>
    match definedExtent recs r with
    | some e => extentHas e x
    | none => false).getD 0

/-- The lowest start of a defined range above `p`, if there is one (R33, R114). -/
def nextStart (recs : Records) (p : Nat) : Option Nat :=
  (((List.finRange 16).filterMap (definedExtent recs)).map Extent.start |>.filter fun a => decide (p < a)).min?

/-- The end of the contiguous piece of range `r` that holds `p` (R33, R114). -/
def pieceStop (recs : Records) (r : Fin 16) (p : Nat) : Nat :=
  match definedExtent recs r with
  | some e => extentEnd e
  | none =>
    match nextStart recs p with
    | some a => min a recs.factory.capacity
    | none => recs.factory.capacity

/-- The block total of a range (R2). -/
def blockTotal (recs : Records) (r : Fin 16) : Nat :=
  match definedExtent recs r with
  | some e => e.len
  | none =>
    if r = 0 then
      recs.factory.capacity - (((List.finRange 16).filterMap (definedExtent recs)).map Extent.len).sum
    else 0

/-- A piece of a descriptor: its extent, the range that holds it, and whether it lies below that range's frontier. -/
structure Piece where
  extent : Extent
  range : Fin 16
  below : Bool
  deriving DecidableEq, Repr

/-- The piece at `p` of a walk that stops at `stop` (R33, steps 1 to 4, with the frontier split of R34). -/
def pieceAt (s : State) (stop p : Nat) : Piece :=
  let r := rangeAt s.copies p
  let e := min stop (pieceStop s.copies r p)
  match rekeyView s with
  | some (q, f) =>
    if q = r then
      if p < f ∧ f < e then ⟨⟨p, f - p⟩, r, true⟩ else ⟨⟨p, e - p⟩, r, decide (p < f)⟩
    else ⟨⟨p, e - p⟩, r, false⟩
  | none => ⟨⟨p, e - p⟩, r, false⟩

/-- The walk from `p` to `stop` (R33); it takes at most `fuel` pieces, and a piece has at least one block. -/
def walkFrom (s : State) (stop : Nat) : Nat → Nat → List Piece
  | 0, _ => []
  | fuel + 1, p =>
    if p < stop then
      let q := pieceAt s stop p
      q :: walkFrom s stop fuel (extentEnd q.extent)
    else []

/-- The range walk of an extent (R33). -/
def rangeWalk (s : State) (e : Extent) : List Piece := walkFrom s (extentEnd e) e.len e.start

/-- Whether an extent touches a range (R55). -/
def touches (s : State) (r : Fin 16) (e : Extent) : Bool := (rangeWalk s e).any fun q => decide (q.range = r)

/-- R34: the slot a segment takes in a range that holds `h`. -/
def slotChoice (cls : XferClass) (below : Bool) (h : Held) : Fin 18 :=
  match cls with
  | .read => if below then h.next.getD h.current else h.current
  | .write => if below then h.next.getD h.current else h.current
  | .migrateRead => h.current
  | .migrateWrite => h.next.getD h.current

/-- R36, R37 and R38: a segment's treatment, or the reason it fails. -/
def judgePiece (s : State) (cls : XferClass) (q : Piece) : Code ⊕ Segment :=
  let seg : Treatment → Code ⊕ Segment := fun t => .inr ⟨q.extent, q.range, t⟩
  if s.copies.watch.state = .erased then seg .pad
  else
    match s.ranges[q.range].run, cls with
    | .opened h, .write =>
      match h.level with
      | .readWrite => seg (.cipher (slotChoice .write q.below h))
      | .readOnly => .inl .readOnly
    | .opened h, cls => seg (.cipher (slotChoice cls q.below h))
    | .erased, .read => seg .pad
    | .erased, _ => .inl .erased
    | .locked, _ => .inl .locked
    | .closing _ _ _, _ => .inl .locked

/-- R36: the segments in ascending order; the first that fails decides, with its range. -/
def judgeAll (s : State) (cls : XferClass) : List Piece → (Code × Fin 16) ⊕ List Segment
  | [] => .inr []
  | q :: rest =>
    match judgePiece s cls q with
    | .inl c => .inl (c, q.range)
    | .inr g =>
      match judgeAll s cls rest with
      | .inl f => .inl f
      | .inr l => .inr (g :: l)

/-- The distinct slots that CIPHER segments name (R12, R40). -/
def slotsNamed (segs : List Segment) : List (Fin 18) :=
  (List.finRange 18).filter fun k => segs.any fun g => decide (g.treatment = .cipher k)

/-- The ranges in which segments lie (R52). -/
def rangesNamed (segs : List Segment) : List (Fin 16) :=
  (List.finRange 16).filter fun r => segs.any fun g => decide (g.range = r)

end Sys2Proof.Machine
end

