-- ==== Sys2Proof/Machine/Closing.lean ====
section
/-! DEFINITION. Entries leaving ADMITTED, the rekey's window and order, and the closes of a range (R21 to R24, R40, R51
to R56, R114, R115, R121). -/

namespace Sys2Proof.Machine

/-! ## The migration window and its order -/

/-- The order numbers run 1 to 65535 and wrap to 1 (R110). -/
def nextOrderNumber (n : Nat) : Nat := if n = 65535 then 1 else n + 1

/-- R110: an order takes the counter's value, and the counter moves on. -/
def takeOrderNumber (s : State) : Nat × State :=
  (s.rekey.counter, { s with rekey := { s.rekey with counter := nextOrderNumber s.rekey.counter } })

/-- R115: with a window intended and no ADMITTED WRITE overlapping it, ORDER MIGRATE is sent and its deadline starts. -/
def sendMigrateOrder (s : State) : State :=
  match s.rekey.intended with
  | none => s
  | some w =>
    if (List.finRange 32).any fun t => admittedWriteOn w s.adm.table[t] then s
    else
      let (n, s1) := takeOrderNumber s
      pushFrame (.migrate n w)
        { s1 with rekey := { s1.rekey with order := some ⟨n, w, migrateSeconds⟩, intended := none } }

/-- R114: the window at the frontier: up to 256 blocks, within one contiguous piece of the range. It is empty in one case,
where R114's reason fails: DEDUCED (entry 52 of the log). -/
def windowAt (recs : Records) (r : Fin 16) (f : Nat) : Extent :=
  ⟨f, min migrateChunk (pieceStop recs r f - f)⟩

/-- R114: whether a window may be chosen. After REKEY_START and REKEY_RESUME the first is chosen only when the record has
been written (R112, R113). -/
def windowDue (s : State) : Bool :=
  match s.copies.rekey with
  | some k =>
    decide (k.state = .running) && isOpen s.ranges[k.range].run && s.drive.up && s.rekey.order.isNone
      && s.rekey.intended.isNone && !s.rekey.completing && s.store.waits.all fun w => decide (w.job ≠ .rekeyWindow)
  | none => false

/-- R114: wherever its conditions hold, the engine chooses the window at the frontier and sets the fence on it; the
order goes as soon as R115 lets it. -/
def chooseWindow (s : State) : State :=
  if windowDue s then
    match s.copies.rekey with
    | some k =>
      let w := windowAt s.copies k.range k.frontier
      sendMigrateOrder { s with rekey := { s.rekey with fence := some w, intended := some w } }
    | none => s
  else s

/-- R115, R121: an intended window is withdrawn, and the fence cleared. -/
def withdrawWindow (s : State) : State :=
  if s.rekey.intended.isSome then { s with rekey := { s.rekey with intended := none, fence := none } } else s

/-- R121: the record of a range that becomes LOCKED becomes PAUSED and is written. A rekey of the range that has ended
(R120) leaves the walk nothing more to see there. -/
def pauseRekey (r : Fin 16) (s : State) : State :=
  match s.copies.rekey with
  | some k =>
    if k.range = r then
      let s1 := withdrawWindow s
      if k.state = .paused then s1 else putRekey (some { k with state := .paused }) s1
    else s
  | none =>
    match s.rekey.seen with
    | some v => if v.1 = r then { s with rekey := { s.rekey with seen := none } } else s
    | none => s

/-! ## Closing and leaving ADMITTED -/

/-- R22: the close of an OPEN or CLOSING range completes: its key goes, its slots are retired, it becomes LOCKED, its
rekey record becomes PAUSED, and its waiters are answered, a LOCK or LOCK_ALL after that record's write (R108). -/
def closeFinish (r : Fin 16) (s : State) : State :=
  match heldBy s.ranges[r].run with
  | none => s
  | some h =>
    let (ids, s1) := withTouched (pauseRekey r) (setRun r .locked (retireHeld h s))
    settleWaiters (if (waitersOf s.ranges[r].run).contains .security then awaitWrites ids s1 else s1)

/-- R22: a CLOSING range whose drain condition holds completes its close. -/
def closeIfDrained (r : Fin 16) (s : State) : State :=
  match s.ranges[r].run with
  | .closing _ _ _ => if drained r s then closeFinish r s else s
  | _ => s

/-- R52: an entry has left ADMITTED: its pins are released, its CLOSING ranges test their drain, and a WRITE's
departure reaches the Rekey Engine. R52 lists these neighbours without an order; they act in the order of its list, and the
ranges by ascending index: DESIGN CHOICE (entry 67 of the log). -/
def leaveAdmitted (x : Xfer) (s : State) : State :=
  let s1 := (slotsNamed x.segs).foldl (fun s k => unpinSlot k s) s
  let s2 := (rangesNamed x.segs).foldl (fun s r => closeIfDrained r s) s1
  if x.cls = .write then sendMigrateOrder s2 else s2

/-- R51: an ADMITTED entry becomes ABORTING; any other is left. -/
def abortTag (t : Fin 32) (s : State) : State :=
  match s.adm.table[t] with
  | .admitted x => leaveAdmitted x (setEntry t (.aborting x) s)
  | _ => s

/-- R51: abort the ADMITTED entries that a block names, one after the other, by ascending tag: DESIGN CHOICE (entry 61 of
the log). -/
def abortWhere (p : Entry → Bool) (s : State) : State :=
  (List.finRange 32).foldl (fun s t => if p s.adm.table[t] then abortTag t s else s) s

/-- A held entry is refused: it leaves the hold list and becomes FREE. -/
def refuseHeld (c : Code) (r : Option (Fin 16)) (t : Fin 32) (s : State) : State :=
  let s1 := setEntry t .free s
  pushFrame (.xferRefuse t c r) { s1 with adm := { s1.adm with hold := s1.adm.hold.filter (fun u => u != t) } }

/-- Refuse the held entries that `p` names, in hold-list order. R56 says so for HALT; for a close (R21, R55) it is the
model's order: DESIGN CHOICE (entry 60 of the log). -/
def refuseHeldWhere (p : Extent → Bool) (c : Code) (r : Option (Fin 16)) (s : State) : State :=
  s.adm.hold.foldl (fun s t =>
    match s.adm.table[t] with
    | .held _ e => if p e then refuseHeld c r t s else s
    | _ => s) s

/-- R21: a range named by a close: OPEN enters CLOSING with its deadline and closes at once if drained; CLOSING takes
the waiter. R55 refuses the held descriptors and R115 withdraws the window as it leaves OPEN. -/
def orderlyClose (r : Fin 16) (w : Option Waiter) (s : State) : State :=
  match s.ranges[r].run with
  | .opened h =>
    let s1 := setRun r (.closing h closeSeconds w.toList) s
    let s2 := refuseHeldWhere (touches s r) .locked (some r) s1
    let s3 := if rekeyOn r s.copies then withdrawWindow s2 else s2
    closeIfDrained r s3
  | .closing h d ws => setRun r (.closing h d (ws ++ w.toList)) s
  | _ => s

/-- R24: an immediate close: the range's admitted entries are aborted and the close completes. A window intended on the
range has been withdrawn before (`closeAllAtOnce`), so that no abort sends its order (R115). R55 has the held descriptors
refused "in the same event", at no step of R24; they are refused after the aborts and what these bring about, and before the
key, the slots and the state go: DESIGN CHOICE (entry 71 of the log). -/
def immediateClose (r : Fin 16) (s : State) : State :=
  match heldBy s.ranges[r].run with
  | none => s
  | some _ =>
    let s1 := abortWhere (admittedIn r) s
    let s2 := if isOpen s1.ranges[r].run then refuseHeldWhere (touches s1 r) .locked (some r) s1 else s1
    closeFinish r s2

/-- R148, R161: an immediate close of every OPEN or CLOSING range, ascending. The range of an intended window is OPEN, and
so among them: the window is withdrawn first, and no order is sent (R115, R121). -/
def closeAllAtOnce (s : State) : State :=
  (List.finRange 16).foldl (fun s r => immediateClose r s) (withdrawWindow s)

/-! ## Admission (R39, R40, R53, R54) -/

/-- R40: an entry becomes ADMITTED, pins each distinct slot its segments name, and XFER_ADMIT is sent. -/
def admitEntry (t : Fin 32) (cls : XferClass) (e : Extent) (order : Option Nat) (segs : List Segment) (s : State) : State :=
  let s1 := setEntry t (.admitted ⟨cls, e, order, segs, 0, 0, 0, false⟩) s
  let s2 := (slotsNamed segs).foldl (fun s k => pinSlot k s) s1
  pushFrame (.xferAdmit t) s2

/-- R54: a held entry is taken from the list, walked again, and admitted or refused. DEDUCED (entry 46 of the log): HALT
follows the entry to ERASING only after store writes (R157, R159), so a release can still find the watch ERASING; it is
made as any other. -/
def releaseOne (t : Fin 32) (s : State) : State :=
  match s.adm.table[t] with
  | .held cls e =>
    match judgeAll s cls (rangeWalk s e) with
    | .inl (c, r) => refuseHeld c (some r) t s
    | .inr segs =>
      admitEntry t cls e none segs { s with adm := { s.adm with hold := s.adm.hold.filter (fun u => u != t) } }
  | _ => s

/-- R53, R54: a release of the hold list, oldest first. -/
def releaseHold (s : State) : State := s.adm.hold.foldl (fun s t => releaseOne t s) s

/-- R123: the Rekey Engine discards its record: the order, the window, the fence and the work owed on the record are
forgotten, and the record is removed. -/
def discardRekey (s : State) : State :=
  match s.copies.rekey with
  | none => s
  | some _ =>
    putRekey none
      { s with
        rekey := { s.rekey with order := none, fence := none, intended := none, seen := none, completing := false }
        store := { s.store with
          waits := s.store.waits.filter fun w => decide (w.job ≠ .rekeyWindow) && decide (w.job ≠ .rekeyClosing) } }

end Sys2Proof.Machine
end

