-- ==== Sys2Proof/Machine/Opening.lean ====
section
/-! DEFINITION. The wrap table (R15 to R18), opening a range (R19, R122), renewal, destruction and deletion (R25 to R27),
auto-open and the pending set (R81 to R85). -/

namespace Sys2Proof.Machine

/-! ## The wrap table -/

/-- Whether a wrap record is the entry of (holder, range). -/
def isEntryOf (who : Holder) (r : Fin 16) : Option WrapEntry → Bool
  | some e => decide (e.holder = who) && decide (e.range = r)
  | none => false

/-- The record of the entry of (holder, range), stale or not. -/
def findWrap (who : Holder) (r : Fin 16) (recs : Records) : Option (Fin 64) :=
  (List.finRange 64).find? fun k => isEntryOf who r recs.wraps[k]

/-- R15: an entry is stale when its salt is not the range record's. -/
def isStale (recs : Records) (e : WrapEntry) : Bool := decide (e.salt ≠ recs.ranges[e.range].salt)

/-- R15: a stale entry, where it is met, is removed from the store. -/
def purgeStale (who : Holder) (r : Fin 16) (s : State) : State :=
  match findWrap who r s.copies with
  | some k =>
    match s.copies.wraps[k] with
    | some e => if isStale s.copies e then putWrap k none s else s
    | none => s
  | none => s

/-- The entry of (holder, range) that is not stale. -/
def freshEntry (who : Holder) (r : Fin 16) (recs : Records) : Option WrapEntry :=
  match findWrap who r recs with
  | some k =>
    match recs.wraps[k] with
    | some e => if isStale recs e then none else some e
    | none => none
  | none => none

/-- The number of entries the table holds (R15). -/
def wrapCount (recs : Records) : Nat := ((List.finRange 64).filter fun k => recs.wraps[k].isSome).length

/-- The number of entries of a range. -/
def wrapCountOf (r : Fin 16) (recs : Records) : Nat :=
  ((List.finRange 64).filter fun k => match recs.wraps[k] with
    | some e => decide (e.range = r)
    | none => false).length

/-- The lowest record that holds no entry. -/
def freeWrap (recs : Records) : Option (Fin 64) := (List.finRange 64).find? fun k => recs.wraps[k].isNone

/-- R17, R162: remove the entries that `p` names, one record at a time, in ascending order of their records: DESIGN CHOICE
(entry 59 of the log). -/
def removeWraps (p : WrapEntry → Bool) (s : State) : State :=
  (List.finRange 64).foldl (fun s k =>
    match s.copies.wraps[k] with
    | some e => if p e then putWrap k none s else s
    | none => s) s

/-- R17: every entry of a range. -/
def removeRangeWraps (r : Fin 16) (s : State) : State := removeWraps (fun e => decide (e.range = r)) s

/-- R17: every entry of a credential, in ascending range order. -/
def removeHolderWraps (who : Holder) (s : State) : State :=
  (List.finRange 16).foldl (fun s r => removeWraps (fun e => decide (e.holder = who) && decide (e.range = r)) s) s

/-- R17: the entry of (holder, range), if there is one. -/
def removeEntry (who : Holder) (r : Fin 16) (s : State) : State :=
  removeWraps (fun e => decide (e.holder = who) && decide (e.range = r)) s

/-- R16: add an entry for (holder, range), the range key in hand. An entry that exists keeps its wrapped key and takes
the access; a full table refuses with TABLE_FULL; otherwise a new entry is made. -/
def addWrap (who : Holder) (under : WrapUnder) (r : Fin 16) (access : Access) (key : Key) (s : State) : Code × State :=
  let s1 := purgeStale who r s
  match findWrap who r s1.copies with
  | some k =>
    match s1.copies.wraps[k] with
    | some e => (.replaced, putWrap k (some { e with access := access }) s1)
    | none => (.tableFull, s1)
  | none =>
    match freeWrap s1.copies with
    | some k => (.created, putWrap k (some ⟨who, r, access, s1.copies.ranges[r].salt, ⟨key, under⟩⟩) s1)
    | none => (.tableFull, s1)

/-- R6: unwrap an entry; `none` is the mismatch. -/
def unwrap (e : WrapEntry) (under : WrapUnder) : Option Key :=
  if e.wrapped.under = under then some e.wrapped.key else none

/-- Wrapped under the device key (R7). -/
def deviceWrap (s : State) : WrapUnder := .device s.deviceKey

/-! ## Opening (R19, R20, R122) -/

/-- R19, step 3, and R11: the slots of a LOCKED range with their media keys: two if a rekey record names it. -/
def takeSlots (r : Fin 16) (s : State) : Option (Fin 18 × Option (Fin 18) × State) :=
  match s.copies.ranges[r].current, (if rekeyOn r s.copies then s.copies.ranges[r].next else none) with
  | some c, some n =>
    match allocTwo r c.media n.media s with
    | some (k, l, t) => some (k, some l, t)
    | none => none
  | some c, none =>
    match allocOne r c.media s with
    | some (k, t) => some (k, none, t)
    | none => none
  | none, _ => none

/-- R19, step 5, and R122: a PAUSED record becomes RUNNING and is written; a RUNNING or FAULTED one keeps its state; a
window is chosen where R114 lets it. -/
def resumeRekey (r : Fin 16) (s : State) : State :=
  match s.copies.rekey with
  | some k =>
    if k.range = r then
      chooseWindow (if k.state = .paused then putRekey (some { k with state := .running }) s else s)
    else s
  | none => s

/-- R19: an open of a range with its range key in hand, at an access. OPENED and ALREADY_OPEN leave the sleep mark clear
(R20). R19 and R20 do not say what an open refused NO_SLOT does with the mark of its LOCKED range; it leaves the mark as it
was, as BUSY_CLOSING and ERASED do: DESIGN CHOICE (entry 70 of the log). -/
def openRange (r : Fin 16) (key : Key) (access : Access) (s : State) : Code × State :=
  match s.ranges[r].run with
  | .opened h =>
    let h' : Held := if access = .full then { h with level := .readWrite } else h
    (.alreadyOpen, setMark r false (setRun r (.opened h') s))
  | .closing _ _ _ => (.busyClosing, s)
  | .erased => (.erased, s)
  | .locked =>
    if s.copies.ranges[r].current.isNone then (.erased, s)
    else
      match takeSlots r s with
      | none => (.noSlot, s)
      | some (k, l, t) =>
        (.opened, resumeRekey r (setMark r false (setRun r (.opened ⟨levelOf access, key, k, l⟩) t)))

/-! ## Auto-open and the pending set (R81 to R85) -/

/-- R81: whether auto-open may be attempted on a range. -/
def autoOpenFits (r : Fin 16) (s : State) : Bool :=
  rangeDefined s.copies r && decide (s.ranges[r].run = .locked) && s.copies.ranges[r].attributes.autoOpen
    && (freshEntry .device r s.copies).isSome

/-- R81: an auto-open of a range through its DEVICE entry; NO_SLOT queues AUTO_OPEN_FAILED. -/
def autoOpen (r : Fin 16) (s : State) : State :=
  let s1 := purgeStale .device r s
  if calm s1.copies.watch.state && autoOpenFits r s1 then
    match freshEntry .device r s1.copies with
    | some e =>
      match unwrap e (deviceWrap s1) with
      | some key =>
        match openRange r key e.access s1 with
        | (.noSlot, t) => noticeSec (.autoOpenFailed r) t
        | (_, t) => t
      | none => s1
    | none => s1
  else s1

/-- The pending set with a range added; it is kept ascending (R82). -/
def withPending (r : Fin 16) (l : List (Fin 16)) : List (Fin 16) :=
  (List.finRange 16).filter fun q => decide (q = r) || l.contains q

def setPending (l : List (Fin 16)) (s : State) : State := { s with cred := { s.cred with pendingSet := l } }

/-- A range leaves the pending set unopened (R82). -/
def leavePending (r : Fin 16) (s : State) : State := setPending (s.cred.pendingSet.filter (fun q => q != r)) s

/-- R84: the pending set is applied: emptied, and each range auto-opened in ascending order where the watch lets it. -/
def applyPending (s : State) : State :=
  if calm s.copies.watch.state then
    ((List.finRange 16).filter fun r => s.cred.pendingSet.contains r).foldl
      (fun s r => autoOpen r (leavePending r s)) s
  else setPending [] s

/-- R83, R85: a range that meets the conditions of R81 is auto-opened at once where its binding lets it, and joins the
pending set otherwise. `bound` says which binding states let a BINDING_REQUIRED range open. -/
def autoOpenOrPend (bound : Binding → Bool) (r : Fin 16) (s : State) : State :=
  let s1 := purgeStale .device r s
  if autoOpenFits r s1 then
    if s1.copies.ranges[r].attributes.bindingRequired && !bound s1.watch.binding then
      setPending (withPending r s1.cred.pendingSet) s1
    else autoOpen r s1
  else s1

/-- The binding states that let a BINDING_REQUIRED range open (R79, R85). -/
def bindingLets : Binding → Bool
  | .matched => true
  | .unbound => true
  | _ => false

/-! ## Renewal, destruction, deletion (R25 to R27) -/

/-- The generation after one more renewal or destruction (R9). -/
def nextGeneration (g : Nat) : Nat := (g + 1) % 65536

/-- R25, R26, R27: the runtime part lets go of key, deadline and slots, and the range is LOCKED. -/
def dropRuntime (r : Fin 16) (s : State) : State :=
  match heldBy s.ranges[r].run with
  | some h => setRun r .locked (retireHeld h s)
  | none => setRun r .locked s

/-- R25: renewal of a range, whose extent and attributes `upd` sets (R97). Answers the new range key and whether a slot
was found. The Rekey Engine's release (R53) follows once the range is renewed (entry 19 of the log). The sleep mark is clear
after it, with a slot or without: DESIGN CHOICE (entry 43). -/
def renewRange (r : Fin 16) (upd : RangeRec → RangeRec) (s : State) : Key × Bool × State :=
  let s1 := dropRuntime r s
  let named := rekeyOn r s1.copies
  let s2 := if named then discardRekey s1 else pauseRekey r s1
  let (key, s3) := drawKey s2
  let (media, s4) := drawKey s3
  let (salt, s5) := drawSalt s4
  let old := upd s5.copies.ranges[r]
  let s6 := putRange r { old with
    defined := true, generation := nextGeneration old.generation, salt := salt, current := some ⟨media, key⟩,
    next := none, erased := false } s5
  let s7 := setMark r false (removeRangeWraps r s6)
  let (got, s8) := match allocOne r media s7 with
    | some (k, t) => (true, setRun r (.opened ⟨.readWrite, key, k, none⟩) t)
    | none => (false, s7)
  let s9 := settleWaiters s8
  (key, got, if named then releaseHold s9 else s9)

/-- R26: destruction of a range's keys. -/
def destroyRange (r : Fin 16) (s : State) : State :=
  let (salt, s1) := drawSalt s
  let old := s1.copies.ranges[r]
  let s2 := putRange r { old with
    current := none, next := none, generation := nextGeneration old.generation, salt := salt, erased := true } s1
  setRun r .erased s2

/-- R27: deletion of a range. The sleep mark is clear after it: DESIGN CHOICE (entry 43 of the log). -/
def deleteRange (r : Fin 16) (s : State) : State :=
  let s1 := dropRuntime r s
  let old := s1.copies.ranges[r]
  let s2 := putRange r { old with
    defined := false, extent := none, attributes := Attributes.none, current := none, next := none, erased := false } s1
  settleWaiters (setMark r false (removeRangeWraps r s2))

/-- R97, R100, R170: the owner FULL entry of a renewed range, and after it a DEVICE FULL entry where the range has AUTO_OPEN.
That REPROVISION adds both for one range before it goes on to the next: DESIGN CHOICE (entry 62 of the log). -/
def ownerEntries (c : Fin 8) (under : CredKey) (r : Fin 16) (key : Key) (s : State) : State :=
  let s1 := (addWrap (.slot c) (.cred under) r .full key s).2
  if s1.copies.ranges[r].attributes.autoOpen then (addWrap .device (deviceWrap s1) r .full key s1).2 else s1

end Sys2Proof.Machine
end

