-- ==== Sys2Proof/Machine/Watch.lean ====
section
/-! DEFINITION. The Theft Watch: evidence, evaluation, relief, decay, the changes of watch state and the watch lines (R141
to R152), and the taking of an erase's start (R157). -/

namespace Sys2Proof.Machine

/-- The score alone changes, before the record is written with what evaluation makes of it (R141). -/
def setScore (n : Nat) (s : State) : State :=
  { s with copies := { s.copies with watch := { s.copies.watch with score := n } } }

def setDecay (d : Option Nat) (s : State) : State := { s with watch := { s.watch with decay := d } }

/-- R146, step 3: what entering a state hands on. `old` is the state left. -/
def entryEffects (old new : WatchState) (s : State) : State :=
  match new with
  | .settled => if old = .alarmed ∨ old = .erased then setDecay (some 0) s else s
  | .wary => s
  | .alarmed => setDecay none (setPending [] (closeAllAtOnce s))
  | .erasing => setDecay none (setPending [] s)
  | .erased => setDecay none s

/-- R146: a change of watch state: the record, the incident, the effects, the notices. -/
def enterWatch (w : WatchRec) (s : State) : State :=
  let old := s.copies.watch.state
  let s1 := addIncident (.stateChange w.state) (putWatch w s)
  noticeBoth (.watchState w.state) (entryEffects old w.state s1)

/-- R157, step 1, and R149: the Erase Engine takes a start where the watch lets it. The watch is ERASING from this event
on, its decay stopped and the pending set empty; its record and the steps of R146 follow when the journal is written. An
earlier erase leaves no order, retry count or done mark to this one: DEDUCED (entry 58 of the log). -/
def startErase (cause : EraseCause) (s : State) : State :=
  if alive s.copies.watch.state then
    let (ids, s1) := withTouched (putJournal (some ⟨cause, 0, 0, [], none⟩)) s
    setDecay none <| setPending [] <| addWait ids .eraseEntered
      { s1 with
        copies := { s1.copies with watch := { s1.copies.watch with state := .erasing } }
        erase := { orders := [], retries := [], done := [], starting := ids.getLast?, stopping := false } }
  else s

/-- R144: evaluation, by the first row that applies. `changed` says that the score has changed in this event: the record
is written once, with the state evaluation leaves. -/
def evaluate (changed : Bool) (s : State) : State :=
  let w := s.copies.watch
  let p := s.copies.policy
  if p.eraseByScore = true ∧ p.t3 ≤ w.score ∧ alive w.state = true then startErase .score s
  else if p.t2 ≤ w.score ∧ calm w.state = true then enterWatch { w with state := .alarmed } s
  else if p.t1 ≤ w.score ∧ w.state = .settled then enterWatch { w with state := .wary } s
  else if w.score < p.t1 ∧ w.state = .wary then enterWatch { w with state := .settled } s
  else if changed then putWatch w s
  else s

/-- A kind's place in the evidence table of R143. -/
def evidenceIx : Evidence → Fin 14
  | .credentialFailed _ => 0
  | .bindingMismatch _ => 1
  | .bindingAbsent => 2
  | .checkinEarly _ => 3
  | .checkinMissed => 4
  | .line n _ => ⟨5 + n, by omega⟩
  | .alert k => ⟨9 + k, by omega⟩
  | .remoteTokenBad => 13

/-- R143: the score after a piece of evidence of a weight. -/
def scoreAfter (score weight : Nat) : Nat := satAdd 255 score weight

/-- R143: the Theft Watch takes a piece of evidence. -/
def takeEvidence (e : Evidence) (s : State) : State :=
  if alive s.copies.watch.state then
    let old := s.copies.watch.score
    let new := scoreAfter old s.copies.policy.weights[evidenceIx e]
    evaluate (decide (new ≠ old)) (addIncident (.evidence e) (setScore new s))
  else addIncident (.evidence e) s

/-- A step taken off the score (R145, R147), and the evaluation that follows. -/
def lowerScore (step : Nat) (s : State) : State :=
  let old := s.copies.watch.score
  evaluate (decide (old - step ≠ old)) (setScore (old - step) s)

/-- R145: a success verdict is reported with its credential's role. -/
def reportSuccess (role : Role) (s : State) : State :=
  match s.copies.watch.state with
  | .alarmed => if role = .user then s else enterWatch ⟨.settled, 0⟩ s
  | .settled => lowerScore s.copies.policy.relief s
  | .wary => lowerScore s.copies.policy.relief s
  | .erasing => s
  | .erased => s

/-- R147: whether the elapsed seconds of a running decay timer have reached the decay period, as stored. -/
def decayDue (s : State) : Bool :=
  match s.watch.decay with
  | some e => decide (60 * s.copies.policy.decayPeriod ≤ e)
  | none => false

/-- R147: the decay timer expires when it is due. It starts again at 0 while the watch runs it. -/
def decayExpires (s : State) : State :=
  if decayDue s then lowerScore s.copies.policy.decayStep (setDecay (some 0) s) else s

/-- R133: whether supervision is ARMED and the elapsed seconds have reached g_max, as stored. -/
def checkinDue (s : State) : Bool :=
  decide (s.watch.supervision = .armed) && decide (s.copies.policy.gMax ≤ s.watch.checkin)

/-- R133: the check-in timer expires when it is due. -/
def checkinExpires (s : State) : State :=
  if checkinDue s then takeEvidence .checkinMissed { s with watch := { s.watch with checkin := 0 } } else s

/-- R151: whether an edge to `level` qualifies in a mode. -/
def edgeQualifies (m : LineMode) (level : Bool) : Bool :=
  match m with
  | .ignore => false
  | .rise => level
  | .fall => !level
  | .both => true

def setHoldDown (n : Fin 4) (v : Option Nat) (s : State) : State :=
  { s with watch := { s.watch with holdDowns := s.watch.holdDowns.set n v } }

/-- R151: an edge of a line. A level that does not change is no edge. -/
def takeEdge (n : Fin 4) (level : Bool) (s : State) : State :=
  if s.watch.levels[n] = level then s
  else
    let s1 := { s with watch := { s.watch with levels := s.watch.levels.set n level } }
    if edgeQualifies s1.copies.policy.lineModes[n] level = true ∧ s1.watch.holdDowns[n] = none then
      takeEvidence (.line n level) (setHoldDown n (startTimer s1.copies.policy.lineHold[n]) s1)
    else s1

/-! ## The commands -/

/-- WATCH_LINE_EDGE (R151). The part sees its lines once start-up has run. -/
def execWatchLineEdge (n : Fin 4) (level : Bool) : State → Host.Outcome State Fault Refusal :=
  event fun s => if s.phase = .running then takeEdge n level s else s

/-- HOLD_DOWN_EXPIRY (R152): a timer that has reached 0 stops; nothing more. -/
def execHoldDownExpiry (n : Fin 4) : State → Host.Outcome State Fault Refusal :=
  event fun s => if s.watch.holdDowns[n] = some 0 then setHoldDown n none s else s

/-- DECAY_TIMER_EXPIRY (R147). -/
def execDecayTimerExpiry : State → Host.Outcome State Fault Refusal := event decayExpires

end Sys2Proof.Machine
end

