-- ==== Sys2Proof/Machine/Erase.lean ====
section
/-! DEFINITION. The Erase Engine: the steps of an erase, the scrub and its orders, and the end (R156 to R168). -/

namespace Sys2Proof.Machine

/-! ## Steps 0 to 3 -/

/-- R159: a step is reached: the journal, the incident and the notices. -/
def reachStep (k : Nat) (s : State) : State :=
  match s.copies.journal with
  | some j =>
    noticeBoth (.eraseStep k) (addIncident (.eraseStep k) (putJournal (some { j with step := k }) s))
  | none => s

/-- R160: step 1, HALT. DEDUCED (entry 44 of the log): the aborts come before the record is discarded, so the last of them
that a window waits for still sends its order, which is then forgotten. -/
def haltWork (s : State) : State :=
  let s1 := refuseHeldWhere (fun _ => true) .erasing none s
  let s2 := abortWhere (fun _ => true) s1
  let named := s2.copies.rekey.map RekeyRec.range
  let s3 := discardRekey s2
  let s4 := { s3 with rekey := { s3.rekey with order := none, fence := none, intended := none } }
  match named with
  | some r => putRange r { s4.copies.ranges[r] with next := none } s4
  | none => s4

/-- R161: step 2, ZEROIZE. -/
def zeroizeWork (s : State) : State :=
  { closeAllAtOnce s with slots := Vector.replicate 18 .empty }

/-- R162: step 3, DESTROY. -/
def destroyWork (s : State) : State :=
  (List.finRange 16).foldl (fun s r => if rangeDefined s.copies r then destroyRange r s else s)
    (removeWraps (fun _ => true) s)

/-- R157, steps 2 and 3: the journal's step 0 is written, and the watch completes its entry to ERASING. An answer that
waits for step 0 then waits for these writes (R158), a platform answer for nothing more (R139). -/
def eraseEntered (s : State) : State :=
  let s0 := { s with erase := { s.erase with starting := none } }
  let (ids, s1) := withTouched (enterWatch { s0.copies.watch with state := .erasing }) s0
  let s2 := modSec (fun j => if j.awaitsErase then { j with awaitsErase := false, writes := j.writes ++ ids } else j) s1
  let s3 := modPlat (fun j => { j with awaitsErase := false }) s2
  let (more, s4) := withTouched (fun s => noticeBoth (.eraseStep 0) (addIncident (.eraseStep 0) s)) s3
  addWait (ids ++ more) (.eraseNext 1) (platAnswerDue s4)

/-! ## Step 5 -/

/-- R168: step 5, DONE: the result, and the watch enters ERASED. The retry counts and done marks go: DEDUCED (entry 58 of the
log). -/
def finishErase (r : EraseResult) (s : State) : State :=
  match s.copies.journal with
  | some j =>
    let s1 := putJournal (some { j with step := 5, result := some r }) s
    let s2 := noticeBoth (.eraseStep 5) (addIncident (.eraseStep 5) s1)
    let s3 := enterWatch { s2.copies.watch with state := .erased } s2
    noticeBoth (.eraseDone r)
      { s3 with erase := { s3.erase with orders := [], retries := [], done := [], stopping := false } }
  | none => s

/-! ## Step 4: the scrub -/

/-- The scrub frontier of a journal at step 4 whose scrub goes on. -/
def scrubFrontier (s : State) : Option Nat :=
  match s.copies.journal with
  | some j => if j.step = 4 ∧ s.erase.stopping = false then some j.frontier else none
  | none => none

/-- R163: the lowest chunk at or above the frontier that is neither marked done nor named by an outstanding order. -/
def eligibleChunk (frontier : Nat) (s : State) : Option Nat :=
  ((List.range (s.erase.orders.length + s.erase.done.length + 1)).map fun i => frontier + scrubChunk * i).find?
    fun c => decide (c < s.copies.factory.capacity) && !s.erase.done.contains c
      && !s.erase.orders.any fun o => decide (o.chunk = c)

/-- R163: one order is issued where the conditions hold. -/
def issueOne (s : State) : State :=
  match scrubFrontier s with
  | some f =>
    if s.erase.orders.length < 4 ∧ s.drive.up = true then
      match eligibleChunk f s with
      | some c =>
        let (n, s1) := takeOrderNumber s
        pushFrame (.scrub n ⟨c, scrubChunk⟩)
          { s1 with erase := { s1.erase with orders := s1.erase.orders ++ [⟨n, c, scrubSeconds⟩] } }
      | none => s
    else s
  | none => s

/-- R163: orders are issued while the conditions hold; at most four are outstanding. -/
def issueScrubs (s : State) : State := issueOne (issueOne (issueOne (issueOne s)))

/-- The lowest chunk at or above `f` not marked done (R166); a mark stands for at most one chunk. -/
def passDone (done : List Nat) : Nat → Nat → Nat
  | 0, f => f
  | n + 1, f => if done.contains f then passDone done n (f + scrubChunk) else f

/-- R166: a chunk marked done, and the frontier advanced. -/
def markDone (c : Nat) (s : State) : State :=
  match s.copies.journal with
  | some j =>
    let done := s.erase.done ++ [c]
    let f := passDone done done.length j.frontier
    if f = j.frontier then { s with erase := { s.erase with done := done } }
    else
      let s1 := { s with erase := { s.erase with done := done.filter (fun d => decide (f ≤ d)) } }
      let (ids, s2) := withTouched (putJournal (some { j with frontier := f })) s1
      let C := s.copies.factory.capacity
      let s3 := if 2 * j.frontier < C ∧ C ≤ 2 * f then addWait ids .scrubHalf s2 else s2
      if C ≤ f then addWait ids (.scrubEnd .complete) s3 else s3
  | none => s

/-- A chunk's retry count (R156). -/
def retryCount (c : Nat) (l : List (Nat × Nat)) : Nat :=
  ((l.find? fun p => decide (p.1 = c)).map Prod.snd).getD 0

/-- Set a chunk's retry count; a count of 0 is not listed. -/
def setRetry (c n : Nat) (l : List (Nat × Nat)) : List (Nat × Nat) :=
  let rest := l.filter fun p => decide (p.1 ≠ c)
  if n = 0 then rest else rest ++ [(c, n)]

/-- R165: the scrub is abandoned; step 5 follows once the journal's writes are done. -/
def abandonScrub (s : State) : State :=
  let s1 := { s with erase := { s.erase with orders := [], stopping := true } }
  match unwrittenOf .eraseEngine s1 with
  | [] => finishErase .scrubAbandoned s1
  | ids => addWait ids (.scrubEnd .scrubAbandoned) s1

/-- R165: an extent joins the skip list. DEDUCED (entry 53 of the log): one that the list holds already, since a cold start
had its chunk issued again (R169), is not added a second time. -/
def addSkip (e : Extent) (l : List Extent) : List Extent := if l.contains e then l else l ++ [e]

/-- R165: an order that FAILED. -/
def scrubFailed (c : Nat) (s : State) : State :=
  match s.copies.journal with
  | some j =>
    let n := retryCount c s.erase.retries
    if n < s.copies.policy.retryLimit then
      { s with erase := { s.erase with retries := setRetry c (n + 1) s.erase.retries } }
    else if j.skip.length < 16 then
      let s1 := putJournal (some { j with skip := addSkip ⟨c, scrubChunk⟩ j.skip }) s
      markDone c { s1 with erase := { s1.erase with retries := setRetry c 0 s1.erase.retries } }
    else abandonScrub s
  | none => s

/-- R164: the completion of an outstanding scrub order. -/
def scrubCompletes (o : ScrubOrder) (ok : Bool) (s : State) : State :=
  let s1 := { s with erase := { s.erase with orders := s.erase.orders.filter fun p => decide (p.num ≠ o.num) } }
  issueScrubs (
    if ok then markDone o.chunk { s1 with erase := { s1.erase with retries := setRetry o.chunk 0 s1.erase.retries } }
    else scrubFailed o.chunk s1)

/-- The outstanding scrub order that carries a number. -/
def scrubOrder (num : Nat) (s : State) : Option ScrubOrder := s.erase.orders.find? fun o => decide (o.num = num)

/-- R163: step 4 is reached and orders are issued. A frontier that a power loss left at C is the end (R166). -/
def startScrub (s : State) : State :=
  let (ids, s1) := withTouched (reachStep 4) s
  match s1.copies.journal with
  | some j =>
    if s1.copies.factory.capacity ≤ j.frontier then addWait ids (.scrubEnd .complete) s1 else issueScrubs s1
  | none => s1

/-- R159: the engine goes on to step `k`, and from it to the next once its writes are done. -/
def eraseNext (k : Nat) (s : State) : State :=
  let go : (State → State) → State := fun work =>
    let (ids, s1) := withTouched (fun s => work (reachStep k s)) s
    addWait ids (.eraseNext (k + 1)) s1
  if k = 1 then go haltWork
  else if k = 2 then go zeroizeWork
  else if k = 3 then go destroyWork
  else if s.copies.policy.scrubEnable then startScrub s
  else finishErase .scrubSkipped s

/-- R167: a drive-link reset forgets the outstanding scrub orders. -/
def forgetScrubs (s : State) : State := { s with erase := { s.erase with orders := [] } }

/-! ## The command -/

/-- SCRUB_ORDER_DEADLINE_EXPIRY (R164): at 0 the order completes as FAILED. -/
def execScrubOrderDeadlineExpiry (num : Nat) : State → Host.Outcome State Fault Refusal :=
  event fun s =>
    match scrubOrder num s with
    | some o => if o.deadline = 0 then scrubCompletes o false s else s
    | none => s

end Sys2Proof.Machine
end

