-- ==== Sys2Proof/Machine/Rekey.lean ====
section
/-! DEFINITION. The Rekey Engine: its start and resumption, completions, the closing steps and the end (R111 to R124). -/

namespace Sys2Proof.Machine

/-! ## The frontier -/

/-- R112, R117: while the frontier of range 0 equals the start of a defined range it moves to that range's end; there
are at most fifteen to pass. -/
def jumpFrom (recs : Records) : Nat → Nat → Nat
  | 0, f => f
  | n + 1, f =>
    match ((List.finRange 16).filterMap (definedExtent recs)).find? fun e => decide (e.start = f) with
    | some e => jumpFrom recs n (extentEnd e)
    | none => f

/-- R117: a frontier put at rest: only range 0's jumps. -/
def restFrontier (recs : Records) (r : Fin 16) (f : Nat) : Nat := if r = 0 then jumpFrom recs 15 f else f

/-- R112: the starting frontier. -/
def startFrontier (recs : Records) (r : Fin 16) : Nat :=
  match definedExtent recs r with
  | some e => e.start
  | none => restFrontier recs r 0

/-- R117: the range's end, where its rekey ends. -/
def rangeEnd (recs : Records) (r : Fin 16) : Nat :=
  match definedExtent recs r with
  | some e => extentEnd e
  | none => recs.factory.capacity

/-- R117: the blocks of the range below a frontier. -/
def blocksBelow (recs : Records) (r : Fin 16) (f : Nat) : Nat :=
  match definedExtent recs r with
  | some e => f - e.start
  | none => f - ((((List.finRange 16).filterMap (definedExtent recs)).filter fun e => decide (extentEnd e ≤ f)).map
      Extent.len).sum

/-! ## Completions -/

/-- R120, steps 1 and 2: the range record takes its next key and the rekey record goes; the rest follows when both are
written. The Rekey Engine asks for both, so that the range record is written first (R184). The walk sees the frontier
`seen` until then. -/
def endRekey (k : RekeyRec) (seen : Nat) (s : State) : State :=
  let r := k.range
  let (ids, s1) := withTouched (fun s =>
    let old := s.copies.ranges[r]
    putRekey none (putBy .rekeyEngine
      (.range r { old with current := old.next, next := none, generation := k.nextGeneration }) s)) s
  addWait ids (.rekeyEnded r)
    { s1 with rekey := { s1.rekey with seen := some (r, seen), completing := true } }

/-- The record is written, and the closing steps of R119 are owed. -/
def rewriteRekey (k : RekeyRec) (s : State) : State :=
  let (ids, s1) := withTouched (putRekey (some k)) s
  addWait ids .rekeyClosing { s1 with rekey := { s1.rekey with completing := true } }

/-- R117: an OK completion of an order on window `w`. -/
def rekeyAdvances (k : RekeyRec) (w : Extent) (s : State) : State :=
  let recs := s.copies
  let f := restFrontier recs k.range (extentEnd w)
  let total := blockTotal recs k.range
  let s1 := if 2 * blocksBelow recs k.range k.frontier < total ∧ total ≤ 2 * blocksBelow recs k.range f then
      noticeSec (.rekeyHalf k.range) s else s
  if f = rangeEnd recs k.range then endRekey k k.frontier s1
  else
    rewriteRekey { k with frontier := f, retry := 0 }
      { s1 with rekey := { s1.rekey with seen := some (k.range, k.frontier) } }

/-- R118: a FAILED completion. -/
def rekeyFails (k : RekeyRec) (s : State) : State :=
  if k.retry < s.copies.policy.retryLimit then rewriteRekey { k with retry := k.retry + 1 } s
  else noticeSec (.rekeyFault k.range) (rewriteRekey { k with state := .faulted } s)

/-- R116: the completion of the outstanding migration order is taken. -/
def rekeyCompletes (o : MigOrder) (ok : Bool) (s : State) : State :=
  let s1 := { s with rekey := { s.rekey with order := none } }
  match s1.copies.rekey with
  | some k => if ok then rekeyAdvances k o.window s1 else rekeyFails k s1
  | none => s1

/-- R119: the closing steps: the fence cleared, the release, the next window. -/
def closingSteps (s : State) : State :=
  let s1 := { s with rekey := { s.rekey with fence := none, seen := none, completing := false } }
  chooseWindow (releaseHold s1)

/-- The range of an ended rekey takes its NEXT slot as current, and the old CURRENT slot is retired (R14). -/
def handOver (r : Fin 16) (s : State) : State :=
  match s.ranges[r].run with
  | .opened h =>
    match h.next with
    | some n => retireSlot h.current (setRun r (.opened { h with current := n, next := none }) s)
    | none => s
  | .closing h d ws =>
    match h.next with
    | some n => retireSlot h.current (setRun r (.closing { h with current := n, next := none } d ws) s)
    | none => s
  | _ => s

/-- R120, steps 3 to 5: both writes that end a rekey are done. -/
def rekeyEnded (r : Fin 16) (s : State) : State :=
  closingSteps (noticeSec (.rekeyDone r) (handOver r s))

/-- R124: a drive-link reset forgets the order, the window and the fence. -/
def forgetRekey (s : State) : State :=
  { s with rekey := { s.rekey with order := none, intended := none, fence := none } }

/-- R116: an ORDER_DONE is handed to the engine whose outstanding order carries its number, or discarded. -/
def orderDone (num : Nat) (ok : Bool) (s : State) : State :=
  match s.rekey.order with
  | some o =>
    if o.num = num then rekeyCompletes o ok s
    else match scrubOrder num s with
      | some p => scrubCompletes p ok s
      | none => s
  | none =>
    match scrubOrder num s with
    | some p => scrubCompletes p ok s
    | none => s

/-! ## The requests' effects -/

/-- R111: the effect checks of REKEY_START, in order. A rekey whose end is being written still counts. -/
def rekeyStartCheck (r : Fin 16) (s : State) : Option Code :=
  match s.ranges[r].run with
  | .opened h =>
    if h.level ≠ .readWrite then some .notOpen
    else if s.copies.rekey.isSome || s.rekey.completing then some .rekeyActive
    else if (emptySlots s).isEmpty then some .noSlot
    else none
  | _ => some .notOpen

/-- R112: REKEY_START passed its checks. The window is chosen when the record and the verdict's other writes are done, after
the answer that waits for them; a rekey with nothing to move ends at once. The Rekey Engine asks for both records, the
range's first. -/
def startRekey (r : Fin 16) (s : State) : State :=
  match s.ranges[r].run with
  | .opened h =>
    let (media, s1) := drawKey s
    match allocOne r media s1 with
    | some (n, s2) =>
      let s3 := setRun r (.opened { h with next := some n }) s2
      let old := s3.copies.ranges[r]
      let s4 := putBy .rekeyEngine (.range r { old with next := some ⟨media, h.key⟩ }) s3
      let k : RekeyRec := ⟨r, startFrontier s4.copies r, 0, .running, nextGeneration old.generation⟩
      let s5 := putRekey (some k) s4
      if k.frontier = rangeEnd s5.copies r then endRekey k k.frontier s5
      else addWait s5.store.touched .rekeyWindow s5
    | none => s1
  | _ => s

/-- R113: the effect check of REKEY_RESUME. -/
def rekeyResumeCheck (s : State) : Option Code :=
  match s.copies.rekey with
  | some k => if k.state = .faulted then none else some .notFaulted
  | none => some .notFaulted

/-- R113: REKEY_RESUME passed its check. It answers OK when the verdict's writes are done, and the engine then chooses a
window. -/
def resumeFaulted (s : State) : State :=
  match s.copies.rekey with
  | some k =>
    let s1 := putRekey (some { k with state := .running, retry := 0 }) s
    addWait s1.store.touched .rekeyWindow s1
  | none => s

/-! ## The commands -/

/-- MIGRATION_ORDER_DEADLINE_EXPIRY (R116): at 0 the order completes as FAILED. -/
def execMigrationOrderDeadlineExpiry : State → Host.Outcome State Fault Refusal :=
  event fun s =>
    match s.rekey.order with
    | some o => if o.deadline = 0 then rekeyCompletes o false s else s
    | none => s

/-- MIGRATE_ORDER_SEND (R115): the order of an intended window goes where no WRITE holds it back. -/
def execMigrateOrderSend : State → Host.Outcome State Fault Refusal := event sendMigrateOrder

end Sys2Proof.Machine
end

