-- ==== Sys2Proof/Machine/Transfers.lean ====
section
/-! DEFINITION. Descriptors, units and the ends of transfers (R31 to R50), and the events of closes and slots that end
work already begun (R13, R22, R23). -/

namespace Sys2Proof.Machine

/-! ## Taking a descriptor (R31, R32, R39) -/

/-- R31: the checks that need no walk, in order. -/
def openCheck (t : Fin 32) (cls : XferClass) (e : Extent) (s : State) : Option Code :=
  let C := s.copies.factory.capacity
  if s.copies.watch.state = .erasing ∨ (s.copies.watch.state = .erased ∧ cls ≠ .read) then some .erasing
  else if s.adm.table[t] ≠ .free then some .tagBusy
  else if e.len < 1 ∨ 1024 < e.len then some .badCount
  else if C ≤ e.start ∨ C < extentEnd e then some .outOfRange
  else none

/-- Whether a class is one of the ordinary classes. -/
def ordinary : XferClass → Bool
  | .read => true
  | .write => true
  | .migrateRead => false
  | .migrateWrite => false

/-- R32: a migrate-class descriptor belongs to the outstanding migration order. -/
def orderCheck (cls : XferClass) (e : Extent) (order : Nat) (s : State) : Option Code :=
  if ordinary cls then none
  else
    match s.rekey.order with
    | some o =>
      if o.num = order ∧ o.window.start ≤ e.start ∧ extentEnd e ≤ extentEnd o.window then none else some .badOrder
    | none => some .badOrder

/-- R39: whether the fence holds a descriptor off. -/
def fenced (cls : XferClass) (e : Extent) (s : State) : Bool :=
  match s.rekey.fence with
  | some w => ordinary cls && extentsOverlap e w
  | none => false

/-- R39: a fenced descriptor is held at the tail of the hold list, or refused by a full list. -/
def holdOrRefuse (t : Fin 32) (cls : XferClass) (e : Extent) (s : State) : State :=
  if s.adm.hold.length < holdListSize then
    let s1 := setEntry t (.held cls e) s
    pushFrame (.xferHeld t) { s1 with adm := { s1.adm with hold := s1.adm.hold ++ [t] } }
  else pushFrame (.xferRefuse t .fenced none) s

/-- R31 to R40: the Admission Unit takes a descriptor whole. -/
def takeDescriptor (t : Fin 32) (cls : XferClass) (e : Extent) (order : Nat) (s : State) : State :=
  match openCheck t cls e s with
  | some c => pushFrame (.xferRefuse t c none) s
  | none =>
    match orderCheck cls e order s with
    | some c => pushFrame (.xferRefuse t c none) s
    | none =>
      match judgeAll s cls (rangeWalk s e) with
      | .inl (c, r) => pushFrame (.xferRefuse t c (some r)) s
      | .inr segs =>
        if fenced cls e s then holdOrRefuse t cls e s
        else admitEntry t cls e (if ordinary cls then none else some order) segs s

/-! ## Ends (R41, R45, R47 to R50) -/

/-- R41: an entry becomes FREE, and its units still in the buffer are discarded. -/
def freeTag (t : Fin 32) (s : State) : State :=
  let s1 := setEntry t .free s
  { s1 with drive := { s1.drive with units := s1.drive.units.filter fun u => decide (u.tag ≠ t) } }

/-- R47, R45, R50: an ADMITTED entry ends. -/
def endAdmitted (t : Fin 32) (x : Xfer) (st : EndStatus) (s : State) : State :=
  leaveAdmitted x (pushFrame (.xferEnd t st x.answered x.ciphered) (freeTag t s))

/-- R48, R50: an ABORTING entry ends. -/
def endAborting (t : Fin 32) (x : Xfer) (st : EndStatus) (s : State) : State :=
  pushFrame (.xferEnd t st x.answered x.ciphered) (freeTag t s)

/-- R50: XFER_STOP. -/
def stopTransfer (t : Fin 32) (s : State) : State :=
  match s.adm.table[t] with
  | .admitted x => endAdmitted t x .stopped s
  | .aborting x => endAborting t x .stopped s
  | .held _ _ => refuseHeld .stopped none t s
  | .free => s

/-! ## Units (R41 to R46) -/

/-- R41: a unit arrives: it joins the buffer for an ADMITTED or ABORTING entry, and is discarded for any other. -/
def unitArrives (t : Fin 32) (index : Nat) (payload : UnitData) (s : State) : State :=
  let join : State := { s with drive := { s.drive with units := s.drive.units ++ [⟨t, index, payload⟩] } }
  match s.adm.table[t] with
  | .admitted _ => join
  | .aborting _ => join
  | .held _ _ => s
  | .free => s

/-- R43: a class enciphers (`true`) or deciphers. -/
def enciphers : XferClass → Bool
  | .read => false
  | .write => true
  | .migrateRead => false
  | .migrateWrite => true

/-- R42: the segment of a unit. -/
def segmentOf (x : Xfer) (index : Nat) : Option Segment := x.segs.find? fun g => extentHas g.extent (x.extent.start + index)

/-- R43, R44: what a unit of an ADMITTED entry is answered with: the pad flag and the content. `none` where no segment
holds it or its slot is EMPTY. -/
def treatUnit (x : Xfer) (index : Nat) (payload : UnitData) (s : State) : Option (Bool × UnitData) :=
  match segmentOf x index with
  | none => none
  | some g =>
    match g.treatment with
    | .pad => some (true, 0)
    | .cipher k =>
      match slotKey s.slots[k] with
      | some key =>
        some (false, Config.cipher key (Config.saltBits s.copies.ranges[g.range].salt) (x.extent.start + index)
          (enciphers x.cls) payload)
      | none => none

/-- R42, R47: the counts after a unit of an ADMITTED entry is answered. -/
def countUnit (pad : Bool) (x : Xfer) : Xfer :=
  { x with
    next := x.next + 1
    answered := x.answered + 1
    ciphered := if pad then x.ciphered else x.ciphered + 1
    padded := x.padded || pad }

/-- R47: an entry that has answered its last unit ends. -/
def endIfLast (t : Fin 32) (x : Xfer) (s : State) : State :=
  if x.extent.len ≤ x.next then endAdmitted t x (if x.padded then .donePadded else .done) s else s

/-- R46, R48: an ABORTING entry answers a unit with a pad. -/
def abortedUnit (t : Fin 32) (index : Nat) (x : Xfer) (s : State) : State :=
  let y := { x with answered := x.answered + 1 }
  let s1 := pushFrame (.xferUnit t true index 0) (setEntry t (.aborting y) s)
  if x.extent.len ≤ index + 1 then endAborting t y .aborted s1 else s1

/-- R42: the Cipher Engine takes the unit at the head of the buffer. `none` where an ADMITTED entry's unit has no key. -/
def takeUnit (s : State) : Option State :=
  match s.drive.units with
  | [] => some s
  | u :: rest =>
    let s1 := { s with drive := { s.drive with units := rest } }
    match s.adm.table[u.tag] with
    | .admitted x =>
      if u.index = x.next then
        match treatUnit x u.index u.payload s with
        | some (pad, out) =>
          let y := countUnit pad x
          some (endIfLast u.tag y (pushFrame (.xferUnit u.tag pad u.index out) (setEntry u.tag (.admitted y) s1)))
        | none => none
      else some (endAdmitted u.tag x .sequenceError s1)
    | .aborting x => some (abortedUnit u.tag u.index x s1)
    | .held _ _ => some s1
    | .free => some s1

/-! ## The commands -/

/-- CLOSE_COMPLETE (R22): a CLOSING range whose drain condition holds. -/
def execCloseComplete (r : Fin 16) : State → Host.Outcome State Fault Refusal := event (closeIfDrained r)

/-- R23: the close deadline reaches 0: the range's admitted entries are aborted, and the close completes. -/
def closeExpires (r : Fin 16) (s : State) : State :=
  match s.ranges[r].run with
  | .closing _ 0 _ => closeIfDrained r (abortWhere (admittedIn r) s)
  | _ => s

/-- CLOSE_DEADLINE_EXPIRY (R23). -/
def execCloseDeadlineExpiry (r : Fin 16) : State → Host.Outcome State Fault Refusal := event (closeExpires r)

/-- R13: a DRAINING slot with no pin becomes EMPTY. -/
def drainSlot (k : Fin 18) (s : State) : State :=
  match s.slots[k] with
  | .draining _ _ 0 => setSlot k .empty s
  | _ => s

/-- SLOT_DRAIN_COMPLETE (R13). -/
def execSlotDrainComplete (k : Fin 18) : State → Host.Outcome State Fault Refusal := event (drainSlot k)

end Sys2Proof.Machine
end

