-- ==== Sys2Proof/Machine/Status.lean ====
section
/-! DEFINITION. What the part reports of itself: the status block of the STATUS answer (R175), the status fields of every
platform answer (R140) and the delivery of notices (R180). -/

namespace Sys2Proof.Machine

/-- The number of entries that `p` names (R29). -/
def countEntries (p : Entry → Bool) (s : State) : Nat :=
  ((List.finRange 32).filter fun t => p s.adm.table[t]).length

/-- R175: the status block, each field as it stands. The seconds of a binding deadline or a hold-down timer that is stopped
are 0: DEDUCED (entry 55 of the log). -/
def statusBlock (s : State) : StatusBlock :=
  { watch := s.copies.watch
    decay := s.watch.decay.getD 0
    levels := s.watch.levels
    holdDowns := (List.finRange 4).map fun n => s.watch.holdDowns[n].getD 0
    incidents := s.copies.incidents.length
    binding := s.watch.binding
    deadline := s.watch.deadline.getD 0
    supervision := s.watch.supervision
    checkin := if s.watch.supervision = .armed then s.watch.checkin else 0
    sleep := s.watch.sleep
    pendingSet := s.cred.pendingSet
    ranges := (List.finRange 16).map fun r =>
      ⟨rangeDefined s.copies r, s.ranges[r].run, s.copies.ranges[r].attributes, definedExtent s.copies r⟩
    free := countEntries (fun e => decide (e = .free)) s
    held := countEntries (fun e => match e with | .held _ _ => true | _ => false) s
    admitted := countEntries (fun e => match e with | .admitted _ => true | _ => false) s
    aborting := countEntries (fun e => match e with | .aborting _ => true | _ => false) s
    holdList := s.adm.hold.length
    creds := (List.finRange 8).map fun c => (roleOf c, s.copies.creds[c].state, s.copies.creds[c].ownCount)
    charged := s.copies.charged
    holdoff := s.cred.holdoff.getD 0
    rekey := s.copies.rekey
    order := s.rekey.order
    fence := s.rekey.fence
    policy := s.copies.policy
    driveUp := s.drive.up
    platformUp := s.platform.up
    secNotices := s.cmd.secQueue.length
    platNotices := s.cmd.platQueue.length
    secMask := s.cmd.secMask
    platMask := s.cmd.platMask
    wraps := (List.finRange 64).filterMap fun k => s.copies.wraps[k].map fun e => (e.holder, e.range, e.access)
    journal := s.copies.journal
    scrubOrders := s.erase.orders.length }

/-- R140: the five status fields of a platform answer. -/
def platStatus (s : State) : PlatStatus :=
  { watch := s.copies.watch.state
    binding := s.watch.binding
    supervision := s.watch.supervision
    checkin := if s.watch.supervision = .armed then s.watch.checkin else 0
    sleep := s.watch.sleep
    step := s.copies.journal.map Journal.step }

/-- R180: a fetch delivers up to eight entries, oldest first, and says how many stay. -/
def fetchBody (q : List NoticeEntry) : AnswerBody := .notices (q.take 8) (q.drop 8).length

end Sys2Proof.Machine
end

