-- ==== Sys2Proof/Machine/Formats.lean ====
section
/-! DEFINITION. The bytes of what leaves the part (11_frame_and_record_formats.md): codes, notices, incidents, the status
block, answer bodies, frames and platform answers. Multi-byte fields go least significant byte first. -/

namespace Sys2Proof.Machine

/-- `n` bytes of a number, least significant first. -/
def leBytes : Nat → Nat → List Byte
  | 0, _ => []
  | n + 1, v => BitVec.ofNat 8 v :: leBytes n (v / 256)

/-- One byte. -/
def byteOf (n : Nat) : List Byte := leBytes 1 n

/-- A flag byte. -/
def flagByte (b : Bool) : List Byte := byteOf b.toNat

/-! ## Codes (11.2, 11.4, R190) -/

def codeByte : Code → Nat
  | .ok => 0x00 | .already => 0x01 | .inProgress => 0x02
  | .noAnswer => 0x03 | .channelBusy => 0x04 | .badFormat => 0x05
  | .tagBusy => 0x10 | .badCount => 0x11 | .outOfRange => 0x12 | .erasing => 0x13 | .locked => 0x14
  | .readOnly => 0x15 | .erased => 0x16 | .fenced => 0x17 | .badOrder => 0x18 | .stopped => 0x19
  | .badValue => 0x20 | .notNow => 0x21 | .holdOff => 0x22 | .emptySlot => 0x23 | .disabled => 0x24
  | .roleRefused => 0x25 | .denied => 0x26
  | .notOpen => 0x27 | .tableFull => 0x28 | .overlap => 0x29 | .rekeyActive => 0x2A | .noSlot => 0x2B
  | .notActive => 0x2C | .targetMismatch => 0x2D | .noWord => 0x2E | .notSet => 0x2F
  | .notFaulted => 0x30
  | .opened => 0x40 | .alreadyOpen => 0x41 | .busyClosing => 0x42 | .bindingPending => 0x43
  | .boundElsewhere => 0x44 | .notGranted => 0x45
  | .accepted => 0x50 | .early => 0x51 | .wrongWord => 0x52 | .replaced => 0x53 | .created => 0x54

def watchByte : WatchState → Nat
  | .settled => 0 | .wary => 1 | .alarmed => 2 | .erasing => 3 | .erased => 4

def bindingByte : Binding → Nat
  | .unbound => 0 | .unknown => 1 | .matched => 2 | .mismatched => 3 | .absent => 4

def supervisionByte : Supervision → Nat
  | .off => 0 | .waiting => 1 | .armed => 2 | .suspended => 3

def sleepByte : SleepState → Nat
  | .awake => 0 | .asleep => 1

def accessByte : Access → Nat
  | .full => 0 | .read => 1

def holderByte : Holder → Nat
  | .slot c => c
  | .device => 8

def causeByte : EraseCause → Nat
  | .score => 0 | .exhaustion => 1 | .remote => 2 | .owner => 3 | .unknown => 4

def resultByte : EraseResult → Nat
  | .complete => 0 | .scrubSkipped => 1 | .scrubAbandoned => 2

def roleByte : Role → Nat
  | .owner => 0 | .user => 1 | .recovery => 2

def credStateByte : CredState → Nat
  | .empty => 0 | .active => 1 | .disabled => 2

def rekeyStateByte : RekeyState → Nat
  | .running => 0 | .paused => 1 | .faulted => 2

def runByte : RangeRun → Nat
  | .locked => 0 | .opened _ => 1 | .closing _ _ _ => 2 | .erased => 3

/-- The access level of an OPEN or CLOSING range: 1 READ_ONLY, 2 READ_WRITE; 0 none. -/
def levelByte (r : RangeRun) : Nat :=
  match heldBy r with
  | some h => if h.level = .readOnly then 1 else 2
  | none => 0

def attributesByte (a : Attributes) : Nat :=
  a.autoOpen.toNat + 2 * a.bindingRequired.toNat + 4 * a.lockOnSleep.toNat

def endByte : EndStatus → Nat
  | .done => 0 | .donePadded => 1 | .aborted => 2 | .stopped => 3 | .sequenceError => 4

def lineModeByte : LineMode → Nat
  | .ignore => 0 | .rise => 1 | .fall => 2 | .both => 3

/-! ## Notices and incidents (11.3) -/

/-- A notice's kind code and its four parameter bytes. -/
def noticeBytes : Notice → List Byte × List Byte
  | .watchState w => (byteOf 0x01, leBytes 4 (watchByte w))
  | .eraseStep k => (byteOf 0x02, leBytes 4 k)
  | .eraseDone r => (byteOf 0x03, leBytes 4 (resultByte r))
  | .holdoffEnd n => (byteOf 0x04, leBytes 4 n)
  | .autoOpenFailed r => (byteOf 0x05, leBytes 4 r)
  | .rekeyHalf r => (byteOf 0x06, leBytes 4 r)
  | .rekeyDone r => (byteOf 0x07, leBytes 4 r)
  | .rekeyFault r => (byteOf 0x08, leBytes 4 r)
  | .scrubHalf => (byteOf 0x09, leBytes 4 0)
  | .commandLost k c => (byteOf 0x0A, [k] ++ byteOf (codeByte c) ++ leBytes 2 0)

/-- A notice entry: kind, GAP flag byte, parameter: six bytes. -/
def entryBytes (e : NoticeEntry) : List Byte := (noticeBytes e.notice).1 ++ flagByte e.gap ++ (noticeBytes e.notice).2

/-- An evidence kind's code and its two parameter bytes (R153). -/
def evidenceBytes (e : Evidence) : List Byte × List Byte :=
  let kind := byteOf (Nat.succ (match e with
    | .credentialFailed _ => 0 | .bindingMismatch _ => 1 | .bindingAbsent => 2 | .checkinEarly _ => 3
    | .checkinMissed => 4 | .line n _ => 5 + n.val | .alert k => 9 + k.val | .remoteTokenBad => 13))
  match e with
  | .credentialFailed c => (kind, leBytes 2 c)
  | .bindingMismatch b => (kind, leBytes 2 (Config.bindingSourceCode b).toNat)
  | .bindingAbsent => (kind, leBytes 2 Config.noParameter.toNat)
  | .checkinEarly n => (kind, leBytes 2 n)
  | .checkinMissed => (kind, leBytes 2 Config.noParameter.toNat)
  | .line _ b => (kind, leBytes 2 b.toNat)
  | .alert k => (kind, leBytes 2 k)
  | .remoteTokenBad => (kind, leBytes 2 Config.noParameter.toNat)

/-- An incident's kind code and its two parameter bytes (R153). -/
def incidentKindBytes : IncidentKind → List Byte × List Byte
  | .evidence e => evidenceBytes e
  | .stateChange w => (byteOf 0x10, leBytes 2 (watchByte w))
  | .eraseStep k => (byteOf 0x11, leBytes 2 k)
  | .storeDamage r (some i) => (byteOf 0x12, byteOf r ++ byteOf i)
  | .storeDamage r none => (byteOf 0x12, byteOf r ++ [Config.damageIndexFill r])

/-- An incident: twelve bytes. -/
def incidentBytes (i : Incident) : List Byte :=
  (incidentKindBytes i.kind).1 ++ (incidentKindBytes i.kind).2 ++ leBytes 4 i.boot ++ leBytes 4 i.uptime
    ++ byteOf i.score

/-! ## The policy and the status block (R190) -/

/-- The policy's 42 bytes. -/
def policyBytes (p : Policy) : List Byte :=
  let modes := lineModeByte p.lineModes[0] + 4 * lineModeByte p.lineModes[1] + 16 * lineModeByte p.lineModes[2]
    + 64 * lineModeByte p.lineModes[3]
  byteOf p.freeAttempts ++ byteOf p.holdBase ++ leBytes 4 p.holdCap ++ byteOf p.wipeLimit ++ byteOf p.disableLimit
    ++ byteOf p.workFactor ++ byteOf p.t1 ++ byteOf p.t2 ++ byteOf p.t3 ++ flagByte p.eraseByScore
    ++ flagByte p.checkinEnable ++ flagByte p.scrubEnable ++ p.weights.toList.flatMap byteOf ++ byteOf p.decayStep
    ++ byteOf p.relief ++ byteOf p.gMin ++ p.lineHold.toList.flatMap byteOf ++ byteOf p.decayPeriod
    ++ leBytes 2 p.gMax ++ byteOf p.bindingDeadline ++ byteOf modes ++ byteOf p.retryLimit

/-- A set of numbers as bits (the pending set, the line levels). -/
def bitsOf (l : List Nat) : Nat := (l.map fun i => 2 ^ i).sum

/-- An extent as its start and a length of `n` bytes; zeros where there is none. -/
def extentBytes (n : Nat) (e : Option Extent) : List Byte :=
  match e with
  | some e => leBytes 5 e.start ++ leBytes n e.len
  | none => leBytes 5 0 ++ leBytes n 0

def rangeStatusBytes (r : RangeStatus) : List Byte :=
  flagByte r.defined ++ byteOf (runByte r.run) ++ byteOf (levelByte r.run) ++ byteOf (attributesByte r.attributes)
    ++ extentBytes 5 r.extent

def rekeyBytes (b : StatusBlock) : List Byte :=
  (match b.rekey with
    | some k => flagByte true ++ byteOf k.range ++ leBytes 5 k.frontier ++ byteOf k.retry ++ byteOf (rekeyStateByte k.state)
    | none => flagByte false ++ byteOf 0 ++ leBytes 5 0 ++ byteOf 0 ++ byteOf 0)
  ++ (match b.order with
    | some o => flagByte true ++ leBytes 2 o.num ++ extentBytes 2 (some o.window)
    | none => flagByte false ++ leBytes 2 0 ++ extentBytes 2 none)
  ++ flagByte b.fence.isSome ++ extentBytes 2 b.fence

def journalBytes (b : StatusBlock) : List Byte :=
  match b.journal with
  | some j =>
    flagByte true ++ byteOf (causeByte j.cause) ++ byteOf j.step ++ leBytes 5 j.frontier ++ byteOf b.scrubOrders
      ++ byteOf ((j.result.map resultByte).getD 0xFF) ++ byteOf j.skip.length
      ++ j.skip.flatMap fun e => leBytes 5 e.start
  | none =>
    flagByte false ++ (List.finRange 7).map Config.absentJournal ++ byteOf b.scrubOrders ++ byteOf 0xFF ++ byteOf 0

/-- The status block, part by part. -/
def statusBytes (b : StatusBlock) : List Byte :=
  byteOf (watchByte b.watch.state) ++ byteOf b.watch.score ++ leBytes 2 b.decay
    ++ byteOf (bitsOf (((List.finRange 4).filter fun n => b.levels[n]).map Fin.val)) ++ b.holdDowns.flatMap byteOf
    ++ byteOf b.incidents
    ++ byteOf (bindingByte b.binding) ++ byteOf b.deadline ++ byteOf (supervisionByte b.supervision)
    ++ leBytes 2 b.checkin ++ byteOf (sleepByte b.sleep)
    ++ leBytes 2 (bitsOf (b.pendingSet.map Fin.val))
    ++ b.ranges.flatMap rangeStatusBytes
    ++ byteOf b.free ++ byteOf b.held ++ byteOf b.admitted ++ byteOf b.aborting ++ byteOf b.holdList
    ++ (b.creds.flatMap fun c => byteOf (roleByte c.1) ++ byteOf (credStateByte c.2.1) ++ byteOf c.2.2)
    ++ leBytes 2 b.charged ++ leBytes 4 b.holdoff
    ++ rekeyBytes b
    ++ policyBytes b.policy
    ++ flagByte b.driveUp ++ flagByte b.platformUp ++ byteOf b.secNotices ++ byteOf b.platNotices
    ++ leBytes 2 b.secMask.toNat ++ leBytes 2 b.platMask.toNat
    ++ byteOf b.wraps.length
    ++ (b.wraps.flatMap fun e => byteOf (holderByte e.1) ++ byteOf e.2.1 ++ byteOf (accessByte e.2.2))
    ++ journalBytes b

/-! ## Answers (R190, 11.2) -/

/-- The answer bodies. -/
def bodyBytes : AnswerBody → List Byte
  | .empty => []
  | .status b => statusBytes b
  | .notices l left => byteOf l.length ++ l.flatMap entryBytes ++ byteOf left
  | .mask m => leBytes 2 m.toNat
  | .seconds n => leBytes 4 n
  | .rangeResults l => byteOf l.length ++ l.flatMap fun x => byteOf x.1 ++ byteOf (codeByte x.2)
  | .rangeList l => byteOf l.length ++ l.flatMap fun r => byteOf r.val
  | .code c => byteOf (codeByte c)
  | .policy p => policyBytes p
  | .offset n => byteOf n
  | .incidents held l => byteOf held ++ byteOf l.length ++ l.flatMap incidentBytes
  | .eraseStep k => byteOf k

/-- The status fields of a platform answer, its bytes 2 to 8 (R140). -/
def platStatusBytes (p : PlatStatus) : List Byte :=
  byteOf (watchByte p.watch) ++ byteOf (bindingByte p.binding) ++ byteOf (supervisionByte p.supervision)
    ++ leBytes 2 p.checkin ++ byteOf (sleepByte p.sleep) ++ byteOf (p.step.getD 0xFF)

/-- A platform answer as a read transaction returns it. -/
def readBytes (a : ReadAnswer) : List Byte :=
  [a.kind] ++ byteOf (codeByte a.result) ++ platStatusBytes a.status ++ bodyBytes a.body

/-! ## Frames from the part (11.1) -/

/-- A frame: its kind code, its length and its body. -/
def withHeader (kind : Nat) (body : List Byte) : List Byte := byteOf kind ++ leBytes 2 body.length ++ body

/-- The frames the part sends. A refusal whose reason concerns no segment carries range index 0xFF (R191). -/
def frameBytes : OutFrame → List Byte
  | .linkReady c i b => withHeader 0x02 (leBytes 5 c ++ leBytes 16 i.toNat ++ leBytes 4 b)
  | .linkError k => withHeader 0x03 [k]
  | .xferAdmit t => withHeader 0x11 (byteOf t)
  | .xferHeld t => withHeader 0x12 (byteOf t)
  | .xferRefuse t c r => withHeader 0x13 (byteOf t ++ byteOf (codeByte c) ++ byteOf ((r.map Fin.val).getD 0xFF))
  | .xferUnit t pad i u => withHeader 0x14 (byteOf t ++ flagByte pad ++ leBytes 2 i ++ leBytes 4096 u.toNat)
  | .xferEnd t st a c => withHeader 0x15 (byteOf t ++ byteOf (endByte st) ++ leBytes 2 a ++ leBytes 2 c)
  | .migrate n w => withHeader 0x20 (byteOf 0 ++ leBytes 2 n ++ leBytes 5 w.start ++ leBytes 2 w.len)
  | .scrub n w => withHeader 0x20 (byteOf 1 ++ leBytes 2 n ++ leBytes 5 w.start ++ leBytes 2 w.len)
  | .secAnswer id k c b => withHeader 0x31 (leBytes 2 id.toNat ++ [k] ++ byteOf (codeByte c) ++ bodyBytes b)

end Sys2Proof.Machine
end

