-- ==== Sys2Proof/Machine/Unlock.lean ====
section
/-! DEFINITION. The Credential Unit's test (R62, R67 to R70), the making of verifiers (R59, R71) and UNLOCK's pass over the
requested ranges (R78 to R80). -/

namespace Sys2Proof.Machine

/-! ## Derivations (R6, R62) -/

/-- R62: a request reaches the Derivation Engine: it starts at once, or waits. -/
def requestDerivation (j : DerivJob) (s : State) : State :=
  match s.derive.job with
  | none => { s with derive := { s.derive with job := some j } }
  | some _ => { s with derive := { s.derive with waiting := s.derive.waiting ++ [j] } }

/-- R6: what a job's derivation gives. -/
def derived (j : DerivJob) : CredKey := ⟨j.secret, j.salt, j.wf⟩

/-- R59: the verifier computed from a credential key. -/
def verifierOf (k : CredKey) : Verifier := ⟨k, k.salt, k.wf⟩

/-- R64: whether a derived key is the one a verifier was made from. -/
def verifies (v : Option Verifier) (k : CredKey) : Bool :=
  match v with
  | some v => decide (v.check = k)
  | none => false

/-- A derivation of a secret against a verifier's salt and work factor (R59, R71). -/
def jobAgainst (ch : Channel) (secret : Secret) (v : Option Verifier) : DerivJob :=
  match v with
  | some v => ⟨ch, secret, v.salt, v.wf⟩
  | none => ⟨ch, secret, ⟨0⟩, 4⟩

/-- R71: the request goes on to a second derivation; its answer will wait for the writes asked for so far. -/
def secSecond (j : DerivJob) (s : State) : State :=
  requestDerivation j (modSec (fun k => { k with phase := .second, writes := k.writes ++ s.store.touched }) s)

/-- R59, R71: a second derivation that makes a new verifier: a fresh salt and the policy's work factor. -/
def secNewVerifier (secret : Secret) (s : State) : State :=
  let (salt, s1) := drawSalt s
  secSecond ⟨.security, secret, salt, s1.copies.policy.workFactor⟩ s1

/-! ## The charge (R67) -/

/-- R67: the request is charged; its derivation follows when both writes are done. -/
def charge (c : Fin 8) (s : State) : State :=
  let s1 := put (.charged (satAdd 65535 s.copies.charged 1)) s
  let old := s1.copies.creds[c]
  let s2 := putCred c { old with ownCount := satAdd 255 old.ownCount 1 } s1
  modSec (fun j => { j with phase := .charging, writes := s2.store.touched }) s2

/-- R65, R66, R67: a credential-bearing request is taken by the Credential Unit. -/
def beginTest (req : Instr) (s : State) : State :=
  match formCheck s.copies.factory.capacity req with
  | some (c, b) => secReply c b s
  | none =>
    match credentials req with
    | none => s
    | some (cred, _) =>
      match gatingCheck req cred s with
      | some (c, b) => secReply c b s
      | none => charge cred s

/-- R67: both writes of a charge are done: the derivation is requested. -/
def chargeWritten (req : Instr) (s : State) : State :=
  match credentials req with
  | none => s
  | some (cred, secret) =>
    requestDerivation (jobAgainst .security secret s.copies.creds[cred].verifier)
      (modSec (fun j => { j with phase := .testing }) s)

/-! ## The verdicts (R68, R69) -/

/-- R68, step 4, and R77: an EXHAUSTION start, which the answer does not wait for. -/
def exhaust (s : State) : State :=
  let p := s.copies.policy
  if p.wipeLimit ≠ 0 ∧ p.wipeLimit ≤ s.copies.charged then
    let t := startErase .exhaustion s
    { t with store := { t.store with touched := s.store.touched } }
  else s

/-- R76: a USER credential at or above the disabling limit becomes DISABLED. -/
def disableAtLimit (c : Fin 8) (s : State) : State :=
  let r := s.copies.creds[c]
  let u := s.copies.policy.disableLimit
  if roleOf c = .user ∧ u ≠ 0 ∧ u ≤ r.ownCount then putCred c { r with state := .disabled } s else s

/-- R68: the mismatch verdict. The body of the DENIED answer is empty, as R78 and R190 have it, and without the field that
R155 speaks of: DESIGN CHOICE (entry 23 of the log). -/
def mismatchVerdict (c : Fin 8) (s : State) : State :=
  let s1 := takeEvidence (.credentialFailed c) s
  let s2 := { s1 with cred := { s1.cred with
    holdoff := startTimer (holdoffLength s1.copies.policy s1.copies.watch.state s1.copies.charged) } }
  secFinish .denied .empty (disableAtLimit c (exhaust s2))

/-- R69, steps 1 and 2: the counts reset, the timer stopped, the watch told. -/
def successResets (c : Fin 8) (key : CredKey) (s : State) : State :=
  let s1 := put (.charged 0) s
  let s2 := putCred c { s1.copies.creds[c] with ownCount := 0 } s1
  let s3 := { s2 with cred := { s2.cred with holdoff := none } }
  reportSuccess (roleOf c) (modSec (fun j => { j with keys := [key] }) s3)

/-! ## UNLOCK (R78 to R80) -/

/-- R79: a requested range's result, or `none` where it is marked for opening. -/
def classify (c : Fin 8) (r : Fin 16) (s : State) : Option Code :=
  match freshEntry (.slot c) r s.copies with
  | none => some .notGranted
  | some e =>
    if !rangeDefined s.copies r then some .notGranted
    else
      let bound : Option Code :=
        if s.copies.ranges[r].attributes.bindingRequired then
          match s.watch.binding with
          | .unknown => some .bindingPending
          | .mismatched => some .boundElsewhere
          | .absent => some .boundElsewhere
          | .matched => none
          | .unbound => none
        else none
      match s.ranges[r].run with
      | .opened h => if e.access = .read ∨ h.level = .readWrite then some .alreadyOpen else bound
      | .closing _ _ _ => some .busyClosing
      | .erased => some .erased
      | .locked => bound

/-- R78: the requested ranges, ascending: those named, or for ALL those the credential holds an entry for. -/
def requestedRanges (c : Fin 8) (ranges : List Byte) (s : State) : List (Fin 16) :=
  if ranges.isEmpty then (List.finRange 16).filter fun r => (freshEntry (.slot c) r s.copies).isSome
  else listedRanges ranges

/-- R80, step 3: a range marked for opening is unwrapped and opened. -/
def openMarked (c : Fin 8) (key : CredKey) (r : Fin 16) (s : State) : Code × State :=
  match freshEntry (.slot c) r s.copies with
  | none => (.notGranted, s)
  | some e =>
    match unwrap e (.cred key) with
    | none => (.denied, s)
    | some k => openRange r k e.access s

/-- R80, steps 2 and 3: the marked ranges in ascending order; `held` is the result that withholds them all. -/
def completePass (c : Fin 8) (key : CredKey) (held : Option Code) :
    List (Fin 16 × Option Code) → State → List (Fin 16 × Code) × State
  | [], s => ([], s)
  | (r, some code) :: rest, s =>
    let (l, t) := completePass c key held rest s
    ((r, code) :: l, t)
  | (r, none) :: rest, s =>
    match held with
    | some code =>
      let (l, t) := completePass c key held rest s
      ((r, code) :: l, t)
    | none =>
      let (code, s1) := openMarked c key r s
      let (l, t) := completePass c key held rest s1
      ((r, code) :: l, t)

/-- R80, step 2: what withholds the opening after the evidence. -/
def passWithheld (c : Fin 8) (s : State) : Option Code :=
  if !alive s.copies.watch.state then some .erased
  else if s.copies.watch.state = .alarmed ∧ roleOf c = .user then some .roleRefused
  else none

/-- R18, R78 to R80: UNLOCK's effect. The stale entries that the visit meets are removed first (R15). -/
def unlockEffect (c : Fin 8) (key : CredKey) (ranges : List Byte) (s : State) : State :=
  let visited := if ranges.isEmpty then List.finRange 16 else listedRanges ranges
  let s1 := visited.foldl (fun s r => purgeStale (.slot c) r s) s
  let marks := (requestedRanges c ranges s1).map fun r => (r, classify c r s1)
  let s2 := if marks.any fun m => decide (m.2 = some .boundElsewhere) then takeEvidence (.bindingMismatch 2) s1 else s1
  let (results, s3) := completePass c key (passWithheld c s2) marks s2
  secFinish .ok (.rangeResults results) s3

end Sys2Proof.Machine
end

