-- ==== Sys2Proof/Machine/Admin.lean ====
section
/-! DEFINITION. The effects of the administrative requests (R72, R86 to R107, R158, R170), each from its success verdict on,
with what follows a second derivation. -/

namespace Sys2Proof.Machine

/-! ## Credentials (R72, R89 to R92) -/

/-- R72, step 3: the entries of `c` are rewritten under a new key, range by range; those that do not unwrap are left. -/
def rewrapFrom (c : Fin 8) (old new : CredKey) : List (Fin 16) → State → List (Fin 16) × State
  | [], s => ([], s)
  | r :: rest, s =>
    let s1 := purgeStale (.slot c) r s
    match findWrap (.slot c) r s1.copies with
    | none => rewrapFrom c old new rest s1
    | some k =>
      match s1.copies.wraps[k] with
      | none => rewrapFrom c old new rest s1
      | some e =>
        match unwrap e (.cred old) with
        | some key => rewrapFrom c old new rest (putWrap k (some { e with wrapped := ⟨key, .cred new⟩ }) s1)
        | none =>
          let (l, t) := rewrapFrom c old new rest s1
          (r :: l, t)

/-- R72, steps 3 to 5: CHANGE_SECRET's new secret is derived. -/
def secretChanged (c : Fin 8) (old new : CredKey) (s : State) : State :=
  let (left, s1) := rewrapFrom c old new (List.finRange 16) s
  let s2 := putCred c { s1.copies.creds[c] with verifier := some (verifierOf new) } s1
  secFinish .ok (.rangeList left) s2

/-- R90, step 1: SET_SECRET removes the target's entries, and the new secret is derived. -/
def setSecretEffect (target : Fin 8) (secret : Secret) (s : State) : State :=
  secNewVerifier secret (removeHolderWraps (.slot target) s)

/-- R90, steps 3 and 4. -/
def secretSet (target : Fin 8) (key : CredKey) (s : State) : State :=
  secFinish .ok .empty (putCred target ⟨.active, some (verifierOf key), 0⟩ s)

/-- R91: ENABLE_CREDENTIAL. -/
def enableEffect (target : Fin 8) (s : State) : State :=
  let r := s.copies.creds[target]
  match r.state with
  | .empty => secFinish .notActive .empty s
  | .disabled => secFinish .ok .empty (putCred target { r with state := .active, ownCount := 0 } s)
  | .active => secFinish .ok .empty (if r.ownCount = 0 then s else putCred target { r with ownCount := 0 } s)

/-- R92: REMOVE_CREDENTIAL. -/
def removeEffect (target : Fin 8) (s : State) : State :=
  if s.copies.creds[target].state = .empty then secFinish .ok .empty s
  else secFinish .ok .empty (putCred target CredRec.empty (removeHolderWraps (.slot target) s))

/-- R89, steps 2 to 4: TAKE_OWNERSHIP is taken; the channel's gating has tested the watch. -/
def beginOwnership (secret : Secret) (s : State) : State :=
  if !secretFits secret then secReply .badFormat .empty s
  else if s.copies.creds[(0 : Fin 8)].state ≠ .empty then secReply .notNow .empty s
  else secNewVerifier secret s

/-- R89, step 7: an owner entry for every OPEN range, ascending. -/
def ownOpenRanges (key : CredKey) : List (Fin 16) → State → List (Fin 16 × Code) × State
  | [], s => ([], s)
  | r :: rest, s =>
    match s.ranges[r].run with
    | .opened h =>
      let (c, s1) := addWrap (.slot 0) (.cred key) r .full h.key s
      let (l, t) := ownOpenRanges key rest s1
      ((r, if c = .tableFull then .tableFull else .ok) :: l, t)
    | _ => ownOpenRanges key rest s

/-- R89, steps 5 to 8. -/
def ownershipTaken (key : CredKey) (s : State) : State :=
  if !alive s.copies.watch.state then secFinish .notNow .empty s
  else
    let s1 := putCred 0 ⟨.active, some (verifierOf key), 0⟩ s
    let (l, s2) := ownOpenRanges key (List.finRange 16) s1
    secFinish .ok (.rangeResults l) s2

/-! ## Granting and revoking (R93 to R95) -/

/-- R93: whether a target may hold an entry: DEVICE, or a credential that is not EMPTY. -/
def mayHold (who : Holder) (s : State) : Bool :=
  match who with
  | .device => true
  | .slot t => decide (s.copies.creds[t].state ≠ .empty)

/-- R16, R94: the entry of a GRANT is added, where its range is OPEN. -/
def addGrant (who : Holder) (under : WrapUnder) (r : Fin 16) (a : Access) (s : State) : State :=
  match s.ranges[r].run with
  | .opened h =>
    match addWrap who under r a h.key s with
    | (.tableFull, t) => secFinish .tableFull .empty t
    | (c, t) => secFinish .ok (.code c) t
  | _ => secFinish .notOpen .empty s

/-- R93, R94: GRANT's effect. -/
def grantEffect (c : Fin 8) (key : CredKey) (who : Holder) (r : Fin 16) (a : Access) (second : Secret) (s : State) :
    State :=
  let s1 := purgeStale who r s
  if !mayHold who s1 then secFinish .notActive .empty s1
  else if !(rangeDefined s1.copies r && isOpen s1.ranges[r].run) then secFinish .notOpen .empty s1
  else if (findWrap who r s1.copies).isNone ∧ 64 ≤ wrapCount s1.copies then secFinish .tableFull .empty s1
  else
    match who with
    | .device => addGrant .device (deviceWrap s1) r a s1
    | .slot t =>
      if t = c then addGrant who (.cred key) r a s1
      else secSecond (jobAgainst .security second s1.copies.creds[t].verifier) s1

/-- R94: the target's secret of a GRANT is derived. -/
def grantDerived (t : Fin 8) (r : Fin 16) (a : Access) (key : CredKey) (s : State) : State :=
  if verifies s.copies.creds[t].verifier key then addGrant (.slot t) (.cred key) r a s
  else secFinish .targetMismatch .empty s

/-- R95: REVOKE. -/
def revokeEffect (who : Holder) (r : Fin 16) (s : State) : State :=
  secFinish .ok .empty (removeEntry who r s)

/-! ## Ranges (R96 to R100) -/

/-- Whether a rekey record stands on range 0 or on `r` (R96, R98). -/
def rekeyBars (r : Fin 16) (recs : Records) : Bool := rekeyOn 0 recs || rekeyOn r recs

/-- R96, R100: whether the wrap table, less the range's entries, has room for the entries a renewal adds. -/
def roomFor (r : Fin 16) (autoOpen : Bool) (recs : Records) : Bool :=
  decide (wrapCount recs - wrapCountOf r recs + (if autoOpen then 2 else 1) ≤ 64)

/-- R96: whether a new extent for `r` overlaps another defined range. -/
def overlapsOther (r : Fin 16) (e : Extent) (recs : Records) : Bool :=
  (List.finRange 16).any fun q =>
    decide (q ≠ r) && match definedExtent recs q with
      | some d => extentsOverlap d e
      | none => false

/-- An ADMITTED entry whose extent overlaps `e` (R97). -/
def admittedOn (e : Extent) : Entry → Bool
  | .admitted x => extentsOverlap x.extent e
  | _ => false

/-- R97, R100: a renewed range's entries, and the answer. -/
def renewAndOwn (c : Fin 8) (key : CredKey) (r : Fin 16) (upd : RangeRec → RangeRec) (s : State) : State :=
  let (rk, got, s1) := renewRange r upd s
  secFinish .ok (.code (if got then .ok else .noSlot)) (ownerEntries c key r rk s1)

/-- R96, R97: DEFINE_RANGE. -/
def defineEffect (c : Fin 8) (key : CredKey) (r : Fin 16) (e : Extent) (a : Attributes) (s : State) : State :=
  if rekeyBars r s.copies then secFinish .rekeyActive .empty s
  else if overlapsOther r e s.copies then secFinish .overlap .empty s
  else if !roomFor r a.autoOpen s.copies then secFinish .tableFull .empty s
  else
    renewAndOwn c key r (fun old => { old with extent := some e, attributes := a })
      (abortWhere (fun x => admittedIn r x || admittedOn e x) s)

/-- R98: DELETE_RANGE. -/
def deleteEffect (r : Fin 16) (s : State) : State :=
  if rekeyBars r s.copies then secFinish .rekeyActive .empty s
  else if !rangeDefined s.copies r then secFinish .badValue .empty s
  else secFinish .ok .empty (leavePending r (deleteRange r (abortWhere (admittedIn r) s)))

/-- R99: SET_RANGE_ATTRIBUTES. -/
def attributesEffect (r : Fin 16) (a : Attributes) (s : State) : State :=
  let s0 := purgeStale .device r s
  let old := s0.copies.ranges[r]
  let adds := a.autoOpen && !old.attributes.autoOpen && (findWrap .device r s0.copies).isNone
  if !rangeDefined s0.copies r then secFinish .badValue .empty s0
  else if adds && !isOpen s0.ranges[r].run then secFinish .notOpen .empty s0
  else if adds && decide (64 ≤ wrapCount s0.copies) then secFinish .tableFull .empty s0
  else
    let s1 := putRange r { old with attributes := a } s0
    let s2 := if adds then
        match heldBy s1.ranges[r].run with
        | some h => (addWrap .device (deviceWrap s1) r .full h.key s1).2
        | none => s1
      else s1
    let cleared := old.attributes.autoOpen && !a.autoOpen
    let s3 := if cleared then removeEntry .device r s2 else s2
    let unbound := old.attributes.bindingRequired && !a.bindingRequired
    secFinish .ok .empty (if cleared || unbound then leavePending r s3 else s3)

/-- R100: ERASE_RANGE. -/
def eraseRangeEffect (c : Fin 8) (key : CredKey) (r : Fin 16) (s : State) : State :=
  if !rangeDefined s.copies r then secFinish .badValue .empty s
  else if !roomFor r s.copies.ranges[r].attributes.autoOpen s.copies then secFinish .tableFull .empty s
  else renewAndOwn c key r id (abortWhere (admittedIn r) s)

/-! ## Policy (R102, R103) -/

/-- R102: the policy record is written; the new policy takes effect when it has been. -/
def policyEffect (p : Policy) (s : State) : State :=
  let s1 := askWrite (.policy p) s
  modSec (fun j => { j with phase := .policyWrite p, writes := j.writes ++ s1.store.touched }) s1

/-- R103: the policy record has been written: the score is evaluated, and an expiry that has come due is taken (their order
is entry 12 of the log). -/
def policyWritten (p : Policy) (s : State) : State :=
  let s1 := evaluate false { s with copies := { s.copies with policy := p } }
  secFinish .ok (.policy p) (decayExpires (checkinExpires s1))

/-! ## Binding, token, incidents (R104 to R107) -/

def setBinding (b : Binding) (s : State) : State := { s with watch := { s.watch with binding := b } }

/-- R104: BIND_TO_PLATFORM. -/
def bindEffect (s : State) : State :=
  match s.watch.lastWord with
  | none => secFinish .noWord .empty s
  | some w => secFinish .ok .empty (applyPending (setBinding .matched (put (.digest (some ⟨w⟩)) s)))

/-- R105: UNBIND. -/
def unbindEffect (s : State) : State :=
  if s.copies.digest.isNone then secFinish .ok .empty s
  else secFinish .ok .empty (applyPending (setBinding .unbound (put (.digest none) s)))

/-- R106: SET_REMOTE_TOKEN. -/
def tokenEffect (token : Secret) (s : State) : State :=
  if token.isEmpty then secFinish .ok .empty (put (.token none) s) else secNewVerifier token s

/-- R106: the token's verifier is made. -/
def tokenSet (key : CredKey) (s : State) : State := secFinish .ok .empty (put (.token (some (verifierOf key))) s)

/-- R107: READ_INCIDENTS. It reports the list as it stands at the verdict, after the incidents of the verdict itself: DEDUCED
(entry 57 of the log). -/
def readIncidentsEffect (position : Nat) (s : State) : State :=
  secFinish .ok (.incidents s.copies.incidents.length ((s.copies.incidents.drop position).take 8)) s

/-- R107: CLEAR_INCIDENTS. -/
def clearIncidentsEffect (s : State) : State := secFinish .ok .empty (put (.incidents []) s)

/-! ## Rekey, erase, reprovisioning -/

/-- R111, R112: REKEY_START. -/
def rekeyStartEffect (r : Fin 16) (s : State) : State :=
  match rekeyStartCheck r s with
  | some c => secFinish c .empty s
  | none => secFinish .ok .empty (startRekey r s)

/-- R113: REKEY_RESUME. -/
def rekeyResumeEffect (s : State) : State :=
  match rekeyResumeCheck s with
  | some c => secFinish c .empty s
  | none => secFinish .ok .empty (resumeFaulted s)

/-- R158: ERASE_ALL. -/
def eraseAllEffect (s : State) : State := secFinish .ok (.eraseStep 0) (startErase .owner s)

/-- R170, step 1: range 0 and every defined range are renewed, ascending: their new range keys, and those opened. -/
def renewAll : List (Fin 16) → State → List (Fin 16 × Key × Bool) × State
  | [], s => ([], s)
  | r :: rest, s =>
    if rangeDefined s.copies r then
      let (key, got, s1) := renewRange r id s
      let (l, t) := renewAll rest s1
      ((r, key, got) :: l, t)
    else renewAll rest s

/-- R170, step 3: every own failure count is 0. -/
def clearOwnCounts (s : State) : State :=
  (List.finRange 8).foldl (fun s c =>
    let r := s.copies.creds[c]
    if r.ownCount = 0 then s else putCred c { r with ownCount := 0 } s) s

/-- R170, steps 1 to 4: REPROVISION. The watch stays ERASED until their writes are done: DEDUCED (entry 49 of the log).
Padded READs still admitted on a renewed range run on: DEDUCED (entry 50). -/
def reprovisionEffect (c : Fin 8) (key : CredKey) (s : State) : State :=
  let (l, s1) := renewAll (List.finRange 16) s
  let s2 := l.foldl (fun s x => ownerEntries c key x.1 x.2.1 s) s1
  let s3 := putJournal none (clearOwnCounts s2)
  let opened := (l.filter fun x => x.2.2).map Prod.fst
  modSec (fun j => { j with phase := .reprovisioning opened, writes := j.writes ++ s3.store.touched }) s3

/-- R170, steps 5 and 6: the writes of steps 1 to 4 are done: the watch enters SETTLED with S = 0, and the answer lists the
ranges opened. -/
def reprovisioned (opened : List (Fin 16)) (s : State) : State :=
  secFinish .ok (.rangeList opened) (enterWatch ⟨.settled, 0⟩ s)

end Sys2Proof.Machine
end

