-- ==== Sys2Proof/Machine/Requests.lean ====
section
/-! DEFINITION. The security channel: taking a request (R174, R175), the requests without a credential (R21, R175, R180,
R181), the verdict and the request's own effect (R69 to R71), and the end of a derivation (R62). -/

namespace Sys2Proof.Machine

/-! ## The requests without a credential -/

/-- R175: STATUS. -/
def statusRequest (s : State) : State := secReply .ok (.status (statusBlock s)) s

/-- R180: FETCH_NOTICES; the entries are removed when the answer leaves. -/
def fetchRequest (s : State) : State := secReply .ok (fetchBody s.cmd.secQueue) s

/-- R181, R190: SET_ATTENTION_MASK. -/
def maskRequest (m : BitVec 16) (s : State) : State :=
  if m.toNat < 2 ^ 10 then secReply .ok (.mask m) (setSecMask m s) else secReply .badValue .empty s

/-- R21: a LOCK or LOCK_ALL that has named its ranges is answered when the last close it joined has completed. -/
def awaitCloses (s : State) : State := settleWaiters (modSec (fun j => { j with phase := .closing }) s)

/-- R21: LOCK. -/
def lockRequest (b : Byte) (s : State) : State :=
  if b.toNat < 16 ∧ rangeDefined s.copies (rangeIx b) = true then
    awaitCloses (orderlyClose (rangeIx b) (some .security) (leavePending (rangeIx b) s))
  else secReply .badValue .empty s

/-- R21: LOCK_ALL. The ranges are closed in ascending order: DESIGN CHOICE (entry 45 of the log). -/
def lockAllRequest (s : State) : State :=
  awaitCloses ((List.finRange 16).foldl
    (fun s r => if rangeDefined s.copies r then orderlyClose r (some .security) s else s) (setPending [] s))

/-! ## Taking a request -/

/-- A request that R175 has passed goes to its owning block. -/
def beginRequest (req : Instr) (s : State) : State :=
  match req with
  | .status _ => statusRequest s
  | .fetchNotices _ => fetchRequest s
  | .setAttentionMask _ m => maskRequest m s
  | .lock _ b => lockRequest b s
  | .lockAll _ => lockAllRequest s
  | .takeOwnership _ secret => beginOwnership secret s
  | req => beginTest req s

/-- An answer given at once, while the channel is not the request's (R174). -/
def answerAtOnce (req : Instr) (c : Code) (s : State) : State :=
  pushFrame (.secAnswer (requestId req) (answerKind req) c .empty) s

/-- Whether a SEC_REQUEST has a kind that is not known or a body that does not fit its kind (R174). -/
def badKind : Instr → Bool
  | .secRequestBadKind _ _ => true
  | _ => false

/-- R174: the Command Processor takes a SEC_REQUEST. -/
def takeRequest (req : Instr) (s : State) : State :=
  if s.cmd.sec.isSome then answerAtOnce req .channelBusy s
  else if badKind req then answerAtOnce req .badFormat s
  else
    let s1 := { s with cmd := { s.cmd with sec := some ⟨req, false, .taken, [], [], false⟩ } }
    if channelPasses req s1.copies.watch.state then beginRequest req s1 else secReply .notNow .empty s1

/-! ## The verdict -/

/-- R69, step 3: the request's own effect. -/
def requestEffect (req : Instr) (c : Fin 8) (key : CredKey) (s : State) : State :=
  match req with
  | .unlock _ _ _ ranges => unlockEffect c key ranges s
  | .changeSecret _ _ _ new => secNewVerifier new s
  | .setSecret _ _ _ target new => setSecretEffect (credIx target) new s
  | .enableCredential _ _ _ target => enableEffect (credIx target) s
  | .removeCredential _ _ _ target => removeEffect (credIx target) s
  | .grant _ _ _ target range access second =>
    grantEffect c key (holderOf target) (rangeIx range) (accessOf access) second s
  | .revoke _ _ _ target range => revokeEffect (holderOf target) (rangeIx range) s
  | .defineRange _ _ _ range start len attrs =>
    defineEffect c key (rangeIx range) ⟨start, len⟩ (attributesOf attrs) s
  | .deleteRange _ _ _ range => deleteEffect (rangeIx range) s
  | .setRangeAttributes _ _ _ range attrs => attributesEffect (rangeIx range) (attributesOf attrs) s
  | .eraseRange _ _ _ range => eraseRangeEffect c key (rangeIx range) s
  | .setPolicy _ _ _ policy => policyEffect (readPolicy policy) s
  | .bindToPlatform _ _ _ => bindEffect s
  | .unbind _ _ _ => unbindEffect s
  | .setRemoteToken _ _ _ token => tokenEffect token s
  | .readIncidents _ _ _ position => readIncidentsEffect position.toNat s
  | .clearIncidents _ _ _ => clearIncidentsEffect s
  | .rekeyStart _ _ _ range => rekeyStartEffect (rangeIx range) s
  | .rekeyResume _ _ _ => rekeyResumeEffect s
  | .eraseAll _ _ _ => eraseAllEffect s
  | .reprovision _ _ _ => reprovisionEffect c key s
  | _ => s

/-- R69, R70: the success verdict. DEDUCED (entry 47 of the log): the watch state that withholds an effect is the one the
verdict is taken in, before its own step 2 moves the watch, as 05_background_rekey.md, 5.2, has a REKEY_START answered
NOT_NOW in ALARMED. -/
def successVerdict (req : Instr) (c : Fin 8) (key : CredKey) (s : State) : State :=
  let s1 := successResets c key s
  match verdictWithheld req c s.copies.watch.state with
  | some code => secFinish code .empty s1
  | none => requestEffect req c key s1

/-- R64: the test's derivation has ended: the verdict. -/
def verdict (req : Instr) (key : CredKey) (s : State) : State :=
  match credentials req with
  | none => s
  | some (c, _) =>
    if verifies s.copies.creds[c].verifier key then successVerdict req c key s else mismatchVerdict c s

/-- R71: the second derivation has ended. `keys` are the credential keys the request held before. -/
def secondDerived (req : Instr) (keys : List CredKey) (key : CredKey) (s : State) : State :=
  match req with
  | .takeOwnership _ _ => ownershipTaken key s
  | .changeSecret _ cred _ _ =>
    match keys with
    | old :: _ => secretChanged (credIx cred) old key s
    | [] => s
  | .setSecret _ _ _ target _ => secretSet (credIx target) key s
  | .grant _ _ _ target range access _ => grantDerived (credIx target) (rangeIx range) (accessOf access) key s
  | .setRemoteToken _ _ _ _ => tokenSet key s
  | _ => s

/-- The security channel's derivation has ended. -/
def secDerived (key : CredKey) (s : State) : State :=
  match s.cmd.sec with
  | none => s
  | some j =>
    match j.phase with
    | .testing => verdict j.req key s
    | .second => secondDerived j.req j.keys key (modSec (fun k => { k with keys := k.keys ++ [key] }) s)
    | _ => s

end Sys2Proof.Machine
end

