-- ==== Sys2Proof/Machine/Platform.lean ====
section
/-! DEFINITION. The platform link and channel (R177, R178), its messages (R128 to R139, R180, R181), and the timers of the
binding and of check-in (R127, R131, R133). -/

namespace Sys2Proof.Machine

/-! ## The channel (R177) -/

/-- The message kind codes of 11.2; `none` for a command that is no platform message. -/
def messageCode : Instr → Option Byte
  | .bind _ => some 0x01
  | .checkin _ => some 0x02
  | .sleep => some 0x03
  | .wake => some 0x04
  | .alert _ => some 0x05
  | .remoteErase _ => some 0x06
  | .platformFetch => some 0x07
  | .platformSetMask _ => some 0x08
  | .platformMalformedMessage kind => some kind
  | _ => none

def setBuffer (b : Option PlatAnswer) (s : State) : State := { s with platform := { s.platform with buffer := b } }

/-- R177: a write transaction. While the link is DOWN it fails on the bus; while the channel is BUSY it is answered
CHANNEL_BUSY; a malformed message is answered BAD_FORMAT; a well-formed one is taken, and `f` is its effect. -/
def writeTransaction (m : Instr) (malformed : Bool) (f : State → State) (s : State) : State :=
  let kind := (messageCode m).getD 0
  if s.platform.up = false then s
  else if s.cmd.plat.isSome then setBuffer (some (.answer kind .channelBusy .empty)) s
  else if malformed then setBuffer (some (.answer kind .badFormat .empty)) s
  else
    f { setBuffer none s with
      cmd := { s.cmd with plat := some ⟨kind, false, .taken, [], false⟩ } }

/-! ## BIND (R128, R129) -/

/-- R128: whether a word's digest is the stored one. -/
def digestMatches (w : BindingWord) (s : State) : Bool := decide (s.copies.digest = some ⟨w⟩)

/-- R129, step 1: an orderly close of every OPEN range that is BINDING_REQUIRED, ascending: DESIGN CHOICE (entry 45 of the
log). -/
def closeBound (s : State) : State :=
  (List.finRange 16).foldl (fun s r =>
    if s.copies.ranges[r].attributes.bindingRequired && isOpen s.ranges[r].run then orderlyClose r none s else s) s

/-- R128, R129: BIND's effect. -/
def bindMessage (w : BindingWord) (s : State) : State :=
  let s0 := { s with watch := { s.watch with lastWord := some w } }
  let old := s0.watch.binding
  if s0.copies.digest.isNone then platReply .ok .empty s0
  else if digestMatches w s0 then
    let s1 := setBinding .matched s0
    platReply .ok .empty (if old = .matched then s1 else applyPending s1)
  else
    let s1 := setBinding .mismatched s0
    let s2 := if old = .matched then closeBound s1 else s1
    platReply .ok .empty (takeEvidence (.bindingMismatch 0) s2)

/-! ## CHECKIN (R131, R132) -/

/-- R132: whether a check-in's word is acceptable. -/
def acceptable (w : BindingWord) (s : State) : Bool := decide (s.watch.binding = .unbound) || digestMatches w s

/-- Supervision becomes ARMED with its timer at 0 (R131, R136). -/
def arm (s : State) : State := { s with watch := { s.watch with supervision := .armed, checkin := 0 } }

/-- R132: CHECKIN's effect. -/
def checkinMessage (w : BindingWord) (s : State) : State :=
  let wrong : State := platReply .wrongWord .empty (takeEvidence (.bindingMismatch 1) s)
  match s.watch.supervision with
  | .off => platReply .notNow .empty s
  | .suspended => platReply .notNow .empty s
  | .waiting => if acceptable w s then platReply .accepted .empty (arm s) else wrong
  | .armed =>
    if !acceptable w s then wrong
    else if s.watch.checkin < s.copies.policy.gMin then
      platReply .early .empty (takeEvidence (.checkinEarly s.watch.checkin) s)
    else platReply .accepted .empty (arm s)

/-! ## SLEEP and WAKE (R134 to R136) -/

/-- R134, step 3: one LOCK_ON_SLEEP range. -/
def sleepClose (r : Fin 16) (s : State) : State :=
  if s.copies.ranges[r].attributes.lockOnSleep then
    let s1 := if isOpen s.ranges[r].run && s.copies.ranges[r].attributes.autoOpen then setMark r true s else s
    orderlyClose r (some .sleep) s1
  else s

/-- R134: SLEEP's effect. -/
def sleepMessage (s : State) : State :=
  if s.copies.watch.state = .erasing then platReply .notNow .empty s
  else if s.watch.sleep = .asleep then platReply .already .empty s
  else
    let v := s.watch.supervision
    let s1 := { s with watch := { s.watch with
      sleep := .asleep
      supervision := if v = .off then .off else .suspended
      checkin := 0 } }
    let s2 := (List.finRange 16).foldl (fun s r => sleepClose r s) s1
    settleWaiters (modPlat (fun j => { j with phase := .closing }) s2)

/-- R85: one range at WAKE. -/
def wakeRange (r : Fin 16) (s : State) : State :=
  if s.ranges[r].sleepMark then
    let s1 := setMark r false s
    if calm s1.copies.watch.state then autoOpenOrPend bindingLets r s1 else s1
  else s

/-- R136: WAKE's effect; its answer waits for the writes of the opens. -/
def wakeMessage (s : State) : State :=
  if s.watch.sleep = .awake then platReply .already .empty s
  else
    let s1 := { s with watch := { s.watch with sleep := .awake } }
    let s2 := if s1.watch.supervision = .suspended then arm s1 else s1
    let s3 := (List.finRange 16).foldl (fun s r => wakeRange r s) s2
    platFinish .ok s3.store.touched s3

/-! ## ALERT and REMOTE_ERASE (R137 to R139) -/

/-- R137: ALERT's effect. -/
def alertMessage (severity : Byte) (s : State) : State :=
  if severity.toNat < 4 then platReply .ok .empty (takeEvidence (.alert (Fin.ofNat 4 severity.toNat)) s)
  else platReply .badValue .empty s

/-- R138: REMOTE_ERASE: the checks, and the derivation against a copy of the verifier. -/
def remoteEraseMessage (token : Secret) (s : State) : State :=
  if !secretFits token then platReply .badFormat .empty s
  else
    match s.copies.token with
    | none => platReply .notSet .empty s
    | some v =>
      if !alive s.copies.watch.state then platReply .notNow .empty s
      else
        requestDerivation (jobAgainst .platform token (some v)) (modPlat (fun j => { j with phase := .token v }) s)

/-- R139: the token's derivation has ended. An erase that it starts is answered after its step 0. -/
def tokenDerived (key : CredKey) (s : State) : State :=
  match s.cmd.plat with
  | none => s
  | some j =>
    match j.phase with
    | .token v =>
      if v.check = key then platFinish .ok [] (startErase .remote s)
      else platFinish .denied [] (takeEvidence .remoteTokenBad s)
    | _ => s

/-! ## Notices and reads (R177, R180, R181) -/

/-- R177: the placeholder of a PLATFORM_FETCH. -/
def fetchMessage (s : State) : State :=
  { s with cmd := { s.cmd with plat := none }, platform := { s.platform with buffer := some .fetch } }

/-- R181: PLATFORM_SET_MASK's effect. -/
def platMaskMessage (m : BitVec 16) (s : State) : State := platReply .ok (.mask m) (setPlatMask m s)

def setLastRead (a : Option ReadAnswer) (s : State) : State := { s with platform := { s.platform with lastRead := a } }

/-- R177: a read transaction returns one answer, with the status fields as they stand. -/
def readTransaction (s : State) : State :=
  let st := platStatus s
  if s.platform.up = false then setLastRead none s
  else
    match s.platform.buffer with
    | some (.answer kind c b) => setLastRead (some ⟨kind, c, st, b⟩) (setBuffer none s)
    | some .fetch =>
      setPlatQueue (s.cmd.platQueue.drop 8)
        (setLastRead (some ⟨0x07, .ok, st, fetchBody s.cmd.platQueue⟩) (setBuffer none s))
    | none =>
      match s.cmd.plat with
      | some j => setLastRead (some ⟨j.kind, .inProgress, st, .empty⟩) s
      | none => setLastRead (some ⟨0, .noAnswer, st, .empty⟩) s

/-- R178: a platform-link reset. While the link is DOWN nothing waits and nothing runs. -/
def platformReset (s : State) : State := setBuffer none (modPlat (fun j => { j with dropped := true }) s)

/-! ## The timers (R127, R131) -/

/-- R127, R131: the binding deadline reaches 0. -/
def bindingExpires (s : State) : State :=
  if s.watch.deadline ≠ some 0 then s
  else
    let s1 := { s with watch := { s.watch with deadline := none } }
    let s2 := if s1.watch.binding = .unknown then takeEvidence .bindingAbsent (setBinding .absent s1) else s1
    if s2.watch.supervision = .waiting then arm s2 else s2

/-- R74: the hold-off timer reaches 0. -/
def holdoffExpires (s : State) : State :=
  if s.cred.holdoff ≠ some 0 then s
  else noticeSec (.holdoffEnd s.copies.charged) { s with cred := { s.cred with holdoff := none } }

/-! ## The commands -/

/-- BIND (R128). -/
def execBind (w : BindingWord) : State → Host.Outcome State Fault Refusal :=
  event (writeTransaction (.bind w) false (bindMessage w))

/-- CHECKIN (R132). -/
def execCheckin (w : BindingWord) : State → Host.Outcome State Fault Refusal :=
  event (writeTransaction (.checkin w) false (checkinMessage w))

/-- SLEEP (R134). -/
def execSleep : State → Host.Outcome State Fault Refusal := event (writeTransaction .sleep false sleepMessage)

/-- WAKE (R136). -/
def execWake : State → Host.Outcome State Fault Refusal := event (writeTransaction .wake false wakeMessage)

/-- ALERT (R137). -/
def execAlert (severity : Byte) : State → Host.Outcome State Fault Refusal :=
  event (writeTransaction (.alert severity) false (alertMessage severity))

/-- REMOTE_ERASE (R138, R192): a token outside 8 to 64 bytes makes the message malformed. -/
def execRemoteErase (token : Secret) : State → Host.Outcome State Fault Refusal :=
  event (writeTransaction (.remoteErase token) (!secretFits token) (remoteEraseMessage token))

/-- PLATFORM_FETCH (R180). -/
def execPlatformFetch : State → Host.Outcome State Fault Refusal :=
  event (writeTransaction .platformFetch false fetchMessage)

/-- PLATFORM_SET_MASK (R181, R192): a mask that sets any of bits 10 to 15 makes the message malformed. -/
def execPlatformSetMask (m : BitVec 16) : State → Host.Outcome State Fault Refusal :=
  event (writeTransaction (.platformSetMask m) (!decide (m.toNat < 2 ^ 10)) (platMaskMessage m))

/-- PLATFORM_MALFORMED_MESSAGE (R177, R192). -/
def execPlatformMalformedMessage (kind : Byte) : State → Host.Outcome State Fault Refusal :=
  event (writeTransaction (.platformMalformedMessage kind) true id)

/-- PLATFORM_READ (R177). -/
def execPlatformRead : State → Host.Outcome State Fault Refusal := event readTransaction

/-- PLATFORM_LINK_RESET (R178). -/
def execPlatformLinkReset : State → Host.Outcome State Fault Refusal := event platformReset

/-- BINDING_DEADLINE_EXPIRY (R127). -/
def execBindingDeadlineExpiry : State → Host.Outcome State Fault Refusal := event bindingExpires

/-- CHECKIN_TIMER_EXPIRY (R133). -/
def execCheckinTimerExpiry : State → Host.Outcome State Fault Refusal := event checkinExpires

/-- HOLDOFF_EXPIRY (R74). -/
def execHoldoffExpiry : State → Host.Outcome State Fault Refusal := event holdoffExpires

/-- R62: the job in progress ends: the next one starts, and the key goes to its requester. -/
def derivationEnds (s : State) : State :=
  match s.derive.job with
  | none => s
  | some j =>
    let s1 := { s with derive := { job := s.derive.waiting.head?, waiting := s.derive.waiting.tail } }
    match j.channel with
    | .security => secDerived (derived j) s1
    | .platform => tokenDerived (derived j) s1

/-- DERIVATION_COMPLETE (R62, R64, R68, R69, R71, R139). -/
def execDerivationComplete : State → Host.Outcome State Fault Refusal := event derivationEnds

end Sys2Proof.Machine
end

