-- ==== Sys2Proof/Machine/Links.lean ====
section
/-! DEFINITION. The drive link (R171 to R173): frames taken in order, the stall behind a full unit buffer, the link's reset,
and the frames that leave. -/

namespace Sys2Proof.Machine

/-! ## The drive-link reset (R173) -/

/-- R173, R176: a SEC_ANSWER dropped before it left gives a COMMAND_LOST notice. -/
def dropFrame (s : State) (f : OutFrame) : State :=
  match f with
  | .secAnswer _ kind c _ => noticeSec (.commandLost kind c) s
  | _ => s

/-- R57: an entry becomes FREE without a frame; an ADMITTED one's departure is reported. -/
def resetTag (s : State) (t : Fin 32) : State :=
  match s.adm.table[t] with
  | .admitted x => leaveAdmitted x (setEntry t .free s)
  | .held _ _ => setEntry t .free s
  | .aborting _ => setEntry t .free s
  | .free => s

/-- R173: a drive-link reset. The engines forget their orders and the intended window before the entries leave, so that no
departure sends one and the order counter stays: DEDUCED (entry 68 of the log). R173 queues the COMMAND_LOST notices of
dropped answers before it hands the reset on, and gives several no order; they join in the order of the outbound frames,
oldest first: DESIGN CHOICE (entry 74 of the log). -/
def driveLinkReset (s : State) : State :=
  let frames := s.drive.outbox
  let s1 := { s with drive := { s.drive with up := false, units := [], outbox := [] } }
  let s2 := frames.foldl dropFrame (modSec (fun j => { j with lost := true }) s1)
  let s3 := (List.finRange 32).foldl resetTag (forgetScrubs (forgetRekey s2))
  let s4 := { s3 with adm := { s3.adm with hold := [] } }
  let s5 := (List.finRange 18).foldl (fun s k => drainSlot k s) s4
  (List.finRange 16).foldl (fun s r => closeIfDrained r s) s5

/-- R171: LINK_HELLO: a reset where the link is UP; then UP, LINK_READY, and the engines' tests. -/
def linkHello (s : State) : State :=
  let s1 := if s.drive.up then driveLinkReset s else s
  let s2 := { s1 with drive := { s1.drive with up := true } }
  let f := s2.copies.factory
  issueScrubs (chooseWindow (pushFrame (.linkReady f.capacity f.identity s2.copies.boot) s2))

/-! ## Inbound frames (R172) -/

/-- R172: a well-formed frame is handed to its block; a malformed one is answered LINK_ERROR. -/
def handFrame (c : Instr) (s : State) : State :=
  match c with
  | .malformedFrame kind => pushFrame (.linkError kind) s
  | .xferOpen t cls start count order => takeDescriptor t cls ⟨start, count⟩ order s
  | .xferUnit t index payload => unitArrives t index payload s
  | .xferStop t => stopTransfer t s
  | .orderDone num ok => orderDone num ok s
  | c => if (requestCode c).isSome then takeRequest c s else s

/-- R172: the interface takes a frame. While the link is DOWN every frame but LINK_HELLO is discarded, and so is a frame of
kind 0x01 with a wrong length, which is a `malformedFrame`: DESIGN CHOICE (entry 64 of the log). -/
def takeFrame (c : Instr) (s : State) : State :=
  match c with
  | .linkHello => linkHello s
  | c => if s.drive.up then handFrame c s else s

/-- R172: whether a frame is not taken yet: an XFER_UNIT that finds the link UP and the unit input buffer full.
A malformed one is no unit, and is answered at once: DEDUCED (entry 56 of the log). -/
def stalls (c : Instr) (s : State) : Bool :=
  match c with
  | .xferUnit _ _ _ => s.drive.up && decide (unitBufferSize ≤ s.drive.units.length)
  | _ => false

/-- R172: waiting frames are taken in order, up to one that is not taken yet. Each is an event of its own: a request waits
for the writes that it has asked for itself. -/
def drainFrom : List Instr → State → State
  | [], s => s
  | c :: rest, s =>
    if stalls c s then { s with drive := { s.drive with inbound := c :: rest } } else drainFrom rest (takeFrame c (clearTouched s))

/-- R172: room may have appeared: the frames held back go on. -/
def drainInbound (s : State) : State :=
  drainFrom s.drive.inbound { s with drive := { s.drive with inbound := [] } }

/-- R172, R189: a frame arrives. Before start-up has ended it is discarded; behind a stalled frame it waits. -/
def arrive (c : Instr) (s : State) : State :=
  if s.phase ≠ .running then s
  else if s.drive.inbound.isEmpty then drainFrom [c] s
  else { s with drive := { s.drive with inbound := s.drive.inbound ++ [c] } }

/-- R171: the link-reset indication; taken while UP even behind a stalled frame. -/
def resetIndication (s : State) : State := if s.drive.up then drainInbound (driveLinkReset s) else s

/-! ## Outbound frames (R172, R180) -/

/-- R180: the entries a fetch delivers leave the queue with its answer. -/
def deliver (f : OutFrame) (s : State) : State :=
  match f with
  | .secAnswer _ _ _ (.notices l _) =>
    setSecQueue (s.cmd.secQueue.filter fun e => !l.any fun d => decide (d.seq = e.seq)) s
  | _ => s

/-- R172: the oldest frame produced leaves the part. -/
def frameLeaves (s : State) : State :=
  match s.drive.outbox with
  | [] => s
  | f :: rest => deliver f { s with drive := { s.drive with outbox := rest, lastSent := some f } }

/-! ## The commands -/

/-- LINK_HELLO (R171). -/
def execLinkHello : State → Host.Outcome State Fault Refusal := event (arrive .linkHello)

/-- LINK_RESET_INDICATION (R171). -/
def execLinkResetIndication : State → Host.Outcome State Fault Refusal := event resetIndication

/-- MALFORMED_FRAME (R172, R191). -/
def execMalformedFrame (kind : Byte) : State → Host.Outcome State Fault Refusal := event (arrive (.malformedFrame kind))

/-- XFER_OPEN (R31). -/
def execXferOpen (tag : Fin 32) (cls : XferClass) (start count order : Nat) :
    State → Host.Outcome State Fault Refusal :=
  event (arrive (.xferOpen tag cls start count order))

/-- XFER_UNIT (R41). -/
def execXferUnit (tag : Fin 32) (index : Nat) (payload : UnitData) : State → Host.Outcome State Fault Refusal :=
  event (arrive (.xferUnit tag index payload))

/-- CIPHER_UNIT_TAKE (R42). The room it makes lets a stalled frame go on (R172). -/
def execCipherUnitTake (s : State) : Host.Outcome State Fault Refusal :=
  match takeUnit (clearTouched s) with
  | some t => .next (clearTouched (drainInbound t))
  | none => .fault .noMediaKey

/-- XFER_STOP (R50). -/
def execXferStop (tag : Fin 32) : State → Host.Outcome State Fault Refusal := event (arrive (.xferStop tag))

/-- ORDER_DONE (R116). -/
def execOrderDone (num : Nat) (ok : Bool) : State → Host.Outcome State Fault Refusal :=
  event (arrive (.orderDone num ok))

/-- OUTBOUND_FRAME_SENT (R172, R180). -/
def execOutboundFrameSent : State → Host.Outcome State Fault Refusal := event frameLeaves

/-- STATUS (R175). -/
def execStatus (id : BitVec 16) : State → Host.Outcome State Fault Refusal :=
  event (arrive (.status id))

/-- FETCH_NOTICES (R180). -/
def execFetchNotices (id : BitVec 16) : State → Host.Outcome State Fault Refusal :=
  event (arrive (.fetchNotices id))

/-- SET_ATTENTION_MASK (R181). -/
def execSetAttentionMask (id : BitVec 16) (mask : BitVec 16) : State → Host.Outcome State Fault Refusal :=
  event (arrive (.setAttentionMask id mask))

/-- LOCK (R21). -/
def execLock (id : BitVec 16) (range : Byte) : State → Host.Outcome State Fault Refusal :=
  event (arrive (.lock id range))

/-- LOCK_ALL (R21). -/
def execLockAll (id : BitVec 16) : State → Host.Outcome State Fault Refusal :=
  event (arrive (.lockAll id))

/-- SEC_REQUEST of an unknown kind or a wrong length (R174). -/
def execSecRequestBadKind (id : BitVec 16) (kind : Byte) : State → Host.Outcome State Fault Refusal :=
  event (arrive (.secRequestBadKind id kind))

/-- UNLOCK (R78). -/
def execUnlock (id : BitVec 16) (cred : Byte) (secret : Secret) (ranges : List Byte) :
    State → Host.Outcome State Fault Refusal :=
  event (arrive (.unlock id cred secret ranges))

/-- TAKE_OWNERSHIP (R89). -/
def execTakeOwnership (id : BitVec 16) (secret : Secret) : State → Host.Outcome State Fault Refusal :=
  event (arrive (.takeOwnership id secret))

/-- CHANGE_SECRET (R72). -/
def execChangeSecret (id : BitVec 16) (cred : Byte) (secret new : Secret) :
    State → Host.Outcome State Fault Refusal :=
  event (arrive (.changeSecret id cred secret new))

/-- SET_SECRET (R90). -/
def execSetSecret (id : BitVec 16) (cred : Byte) (secret : Secret) (target : Byte) (new : Secret) :
    State → Host.Outcome State Fault Refusal :=
  event (arrive (.setSecret id cred secret target new))

/-- ENABLE_CREDENTIAL (R91). -/
def execEnableCredential (id : BitVec 16) (cred : Byte) (secret : Secret) (target : Byte) :
    State → Host.Outcome State Fault Refusal :=
  event (arrive (.enableCredential id cred secret target))

/-- REMOVE_CREDENTIAL (R92). -/
def execRemoveCredential (id : BitVec 16) (cred : Byte) (secret : Secret) (target : Byte) :
    State → Host.Outcome State Fault Refusal :=
  event (arrive (.removeCredential id cred secret target))

/-- GRANT (R93). -/
def execGrant (id : BitVec 16) (cred : Byte) (secret : Secret) (target range access : Byte) (second : Secret) :
    State → Host.Outcome State Fault Refusal :=
  event (arrive (.grant id cred secret target range access second))

/-- REVOKE (R95). -/
def execRevoke (id : BitVec 16) (cred : Byte) (secret : Secret) (target range : Byte) :
    State → Host.Outcome State Fault Refusal :=
  event (arrive (.revoke id cred secret target range))

/-- DEFINE_RANGE (R96). -/
def execDefineRange (id : BitVec 16) (cred : Byte) (secret : Secret) (range : Byte) (start len : Nat) (attrs : Byte) :
    State → Host.Outcome State Fault Refusal :=
  event (arrive (.defineRange id cred secret range start len attrs))

/-- DELETE_RANGE (R98). -/
def execDeleteRange (id : BitVec 16) (cred : Byte) (secret : Secret) (range : Byte) :
    State → Host.Outcome State Fault Refusal :=
  event (arrive (.deleteRange id cred secret range))

/-- SET_RANGE_ATTRIBUTES (R99). -/
def execSetRangeAttributes (id : BitVec 16) (cred : Byte) (secret : Secret) (range attrs : Byte) :
    State → Host.Outcome State Fault Refusal :=
  event (arrive (.setRangeAttributes id cred secret range attrs))

/-- ERASE_RANGE (R100). -/
def execEraseRange (id : BitVec 16) (cred : Byte) (secret : Secret) (range : Byte) :
    State → Host.Outcome State Fault Refusal :=
  event (arrive (.eraseRange id cred secret range))

/-- SET_POLICY (R102). -/
def execSetPolicy (id : BitVec 16) (cred : Byte) (secret : Secret) (policy : List Byte) :
    State → Host.Outcome State Fault Refusal :=
  event (arrive (.setPolicy id cred secret policy))

/-- BIND_TO_PLATFORM (R104). -/
def execBindToPlatform (id : BitVec 16) (cred : Byte) (secret : Secret) : State → Host.Outcome State Fault Refusal :=
  event (arrive (.bindToPlatform id cred secret))

/-- UNBIND (R105). -/
def execUnbind (id : BitVec 16) (cred : Byte) (secret : Secret) : State → Host.Outcome State Fault Refusal :=
  event (arrive (.unbind id cred secret))

/-- SET_REMOTE_TOKEN (R106). -/
def execSetRemoteToken (id : BitVec 16) (cred : Byte) (secret token : Secret) :
    State → Host.Outcome State Fault Refusal :=
  event (arrive (.setRemoteToken id cred secret token))

/-- READ_INCIDENTS (R107). -/
def execReadIncidents (id : BitVec 16) (cred : Byte) (secret : Secret) (position : Byte) :
    State → Host.Outcome State Fault Refusal :=
  event (arrive (.readIncidents id cred secret position))

/-- CLEAR_INCIDENTS (R107). -/
def execClearIncidents (id : BitVec 16) (cred : Byte) (secret : Secret) : State → Host.Outcome State Fault Refusal :=
  event (arrive (.clearIncidents id cred secret))

/-- REKEY_START (R111). -/
def execRekeyStart (id : BitVec 16) (cred : Byte) (secret : Secret) (range : Byte) :
    State → Host.Outcome State Fault Refusal :=
  event (arrive (.rekeyStart id cred secret range))

/-- REKEY_RESUME (R113). -/
def execRekeyResume (id : BitVec 16) (cred : Byte) (secret : Secret) : State → Host.Outcome State Fault Refusal :=
  event (arrive (.rekeyResume id cred secret))

/-- ERASE_ALL (R158). -/
def execEraseAll (id : BitVec 16) (cred : Byte) (secret : Secret) : State → Host.Outcome State Fault Refusal :=
  event (arrive (.eraseAll id cred secret))

/-- REPROVISION (R170). -/
def execReprovision (id : BitVec 16) (cred : Byte) (secret : Secret) : State → Host.Outcome State Fault Refusal :=
  event (arrive (.reprovision id cred secret))

end Sys2Proof.Machine
end

