-- ==== Sys2Proof/WellFormed.lean ====
section
/-! DEFINITION. Which commands a frame, a message or an event can carry: the widths of 11_frame_and_record_formats.md.
A value that fits its field and lies outside what the request allows is well formed; its owner refuses it (R191). -/

namespace Sys2Proof

/-- A secret, a token or a range list has one length byte (R190). -/
def fitsLengthByte (l : List Byte) : Bool := l.length < 256

/-- An LBA or a length has five bytes. -/
def fitsLba (n : Nat) : Bool := n < 2 ^ 40

/-- A count, an index, an order number or a generation has two bytes. -/
def fitsWord (n : Nat) : Bool := n < 2 ^ 16

/-- The fields a damaged range record reads as have the widths of R1 (five-byte LBAs, a 16-bit generation). -/
def DamagedRange.fits (d : DamagedRange) : Bool :=
  (match d.extent with
    | some e => fitsLba e.start && fitsLba e.len
    | none => true) && fitsWord d.generation

/-- The damage of one record. -/
def Damage.fits : Damage → Bool
  | .range _ found => found.fits
  | _ => true

/-- No record is named twice among the damaged ones. -/
def damageDistinct (l : List Damage) : Bool :=
  let name : Damage → Nat × Nat := fun d => match d with
    | .factoryCopy b => (0, b.toNat) | .range i _ => (1, i) | .credential i => (2, i) | .wrapEntry i => (3, i)
    | .chargedCount => (4, 0) | .policy => (5, 0) | .bindingDigest => (6, 0) | .remoteToken => (7, 0)
    | .watchRecord => (8, 0) | .rekeyRecord => (9, 0) | .eraseJournal => (10, 0) | .incidentList => (11, 0)
    | .bootCount => (12, 0)
  decide ((l.map name).Nodup)

/-- A command that the part's links, pins and timers can give it. -/
def Instr.wellFormed : Instr → Bool
  | .coldStart damage _ _ => damage.all Damage.fits && damageDistinct damage
  | .linkHello => true
  | .linkResetIndication => true
  | .malformedFrame _ => true
  | .xferOpen _ _ start count order => fitsLba start && fitsWord count && fitsWord order
  | .xferUnit _ index _ => fitsWord index
  | .cipherUnitTake => true
  | .xferStop _ => true
  | .orderDone num _ => fitsWord num
  | .migrationOrderDeadlineExpiry => true
  | .migrateOrderSend => true
  | .scrubOrderDeadlineExpiry num => fitsWord num
  | .status _ => true
  | .fetchNotices _ => true
  | .setAttentionMask _ _ => true
  | .lock _ _ => true
  | .lockAll _ => true
  | .secRequestBadKind _ _ => true
  | .unlock _ _ secret ranges => fitsLengthByte secret && fitsLengthByte ranges
  | .derivationComplete => true
  | .takeOwnership _ secret => fitsLengthByte secret
  | .changeSecret _ _ secret new => fitsLengthByte secret && fitsLengthByte new
  | .setSecret _ _ secret _ new => fitsLengthByte secret && fitsLengthByte new
  | .enableCredential _ _ secret _ => fitsLengthByte secret
  | .removeCredential _ _ secret _ => fitsLengthByte secret
  | .grant _ _ secret _ _ _ second => fitsLengthByte secret && fitsLengthByte second
  | .revoke _ _ secret _ _ => fitsLengthByte secret
  | .defineRange _ _ secret _ start len _ => fitsLengthByte secret && fitsLba start && fitsLba len
  | .deleteRange _ _ secret _ => fitsLengthByte secret
  | .setRangeAttributes _ _ secret _ _ => fitsLengthByte secret
  | .eraseRange _ _ secret _ => fitsLengthByte secret
  | .setPolicy _ _ secret policy => fitsLengthByte secret && policy.length == 42
  | .bindToPlatform _ _ secret => fitsLengthByte secret
  | .unbind _ _ secret => fitsLengthByte secret
  | .setRemoteToken _ _ secret token => fitsLengthByte secret && fitsLengthByte token
  | .readIncidents _ _ secret _ => fitsLengthByte secret
  | .clearIncidents _ _ secret => fitsLengthByte secret
  | .rekeyStart _ _ secret _ => fitsLengthByte secret
  | .rekeyResume _ _ secret => fitsLengthByte secret
  | .eraseAll _ _ secret => fitsLengthByte secret
  | .reprovision _ _ secret => fitsLengthByte secret
  | .storeWriteComplete => true
  | .closeComplete _ => true
  | .closeDeadlineExpiry _ => true
  | .slotDrainComplete _ => true
  | .holdoffExpiry => true
  | .bind _ => true
  | .bindingDeadlineExpiry => true
  | .checkin _ => true
  | .checkinTimerExpiry => true
  | .sleep => true
  | .wake => true
  | .alert _ => true
  | .remoteErase token => 8 ≤ token.length && token.length ≤ 64
  | .platformFetch => true
  | .platformSetMask mask => mask.toNat < 2 ^ 10
  | .platformMalformedMessage _ => true
  | .platformRead => true
  | .platformLinkReset => true
  | .watchLineEdge _ _ => true
  | .holdDownExpiry _ => true
  | .decayTimerExpiry => true
  | .outboundFrameSent => true

end Sys2Proof
end

