-- ==== Sys2Proof/Decode.lean ====
section
/-! DEFINITION. The command a word of the opcode table spells, and the frames and messages the part takes, read from their
bytes and written as bytes (11_frame_and_record_formats.md, R174, R190 to R192). -/

namespace Sys2Proof

/-- The rows of spec/opcode_table.json give no bits: a word spells no command. -/
def decodeTableWord (_nbits _w : Nat) : Option Instr := none

open Sys2Proof.Machine

/-! ## Fields -/

/-- A number from its bytes, least significant first. -/
def natOfLe : List Byte → Nat
  | [] => 0
  | b :: rest => b.toNat + 256 * natOfLe rest

/-- Read a field of `n` bytes. -/
def readLe (n : Nat) (l : List Byte) : Option (Nat × List Byte) :=
  if n ≤ l.length then some (natOfLe (l.take n), l.drop n) else none

/-- Read one byte. -/
def readByte : List Byte → Option (Byte × List Byte)
  | [] => none
  | b :: rest => some (b, rest)

/-- Read a field with its own length byte: a secret, a token or a range set (R190). -/
def readVar (l : List Byte) : Option (List Byte × List Byte) :=
  match l with
  | [] => none
  | n :: rest => if n.toNat ≤ rest.length then some (rest.take n.toNat, rest.drop n.toNat) else none

/-- A request's fields use exactly its body (R174). -/
def allRead (c : Instr) (l : List Byte) : Option Instr := if l.isEmpty then some c else none

/-! ## Security requests (R190) -/

/-- The request of a kind, from its identifier and fields; `none` where the fields do not use exactly the body. -/
def parseRequest (id : BitVec 16) (kind : Nat) (l : List Byte) : Option Instr :=
  let tested (f : Byte → Secret → List Byte → Option Instr) : Option Instr := do
    let (cred, l) ← readByte l
    let (secret, l) ← readVar l
    f cred secret l
  match kind with
  | 0x01 => allRead (.status id) l
  | 0x02 => allRead (.fetchNotices id) l
  | 0x03 => do
    let (m, l) ← readLe 2 l
    allRead (.setAttentionMask id (BitVec.ofNat 16 m)) l
  | 0x04 => do
    let (r, l) ← readByte l
    allRead (.lock id r) l
  | 0x05 => allRead (.lockAll id) l
  | 0x10 => tested fun c s l => do
    let (rs, l) ← readVar l
    allRead (.unlock id c s rs) l
  | 0x20 => do
    let (s, l) ← readVar l
    allRead (.takeOwnership id s) l
  | 0x21 => tested fun c s l => do
    let (new, l) ← readVar l
    allRead (.changeSecret id c s new) l
  | 0x22 => tested fun c s l => do
    let (t, l) ← readByte l
    let (new, l) ← readVar l
    allRead (.setSecret id c s t new) l
  | 0x23 => tested fun c s l => do
    let (t, l) ← readByte l
    allRead (.enableCredential id c s t) l
  | 0x24 => tested fun c s l => do
    let (t, l) ← readByte l
    allRead (.removeCredential id c s t) l
  | 0x25 => tested fun c s l => do
    let (t, l) ← readByte l
    let (r, l) ← readByte l
    let (a, l) ← readByte l
    let (second, l) ← readVar l
    allRead (.grant id c s t r a second) l
  | 0x26 => tested fun c s l => do
    let (t, l) ← readByte l
    let (r, l) ← readByte l
    allRead (.revoke id c s t r) l
  | 0x30 => tested fun c s l => do
    let (r, l) ← readByte l
    let (start, l) ← readLe 5 l
    let (len, l) ← readLe 5 l
    let (a, l) ← readByte l
    allRead (.defineRange id c s r start len a) l
  | 0x31 => tested fun c s l => do
    let (r, l) ← readByte l
    allRead (.deleteRange id c s r) l
  | 0x32 => tested fun c s l => do
    let (r, l) ← readByte l
    let (a, l) ← readByte l
    allRead (.setRangeAttributes id c s r a) l
  | 0x33 => tested fun c s l => do
    let (r, l) ← readByte l
    allRead (.eraseRange id c s r) l
  | 0x40 => tested fun c s l => if l.length = 42 then some (.setPolicy id c s l) else none
  | 0x41 => tested fun c s l => allRead (.bindToPlatform id c s) l
  | 0x42 => tested fun c s l => allRead (.unbind id c s) l
  | 0x43 => tested fun c s l => do
    let (token, l) ← readVar l
    allRead (.setRemoteToken id c s token) l
  | 0x44 => tested fun c s l => do
    let (p, l) ← readByte l
    allRead (.readIncidents id c s p) l
  | 0x45 => tested fun c s l => allRead (.clearIncidents id c s) l
  | 0x50 => tested fun c s l => do
    let (r, l) ← readByte l
    allRead (.rekeyStart id c s r) l
  | 0x51 => tested fun c s l => allRead (.rekeyResume id c s) l
  | 0x60 => tested fun c s l => allRead (.eraseAll id c s) l
  | 0x61 => tested fun c s l => allRead (.reprovision id c s) l
  | _ => none

/-- R174, R191: a SEC_REQUEST's body: identifier, kind and fields. One that does not fit its kind, or is too short to hold an
identifier and a kind, is for the Command Processor to answer BAD_FORMAT; the missing bytes are free (entry 31 of the log). -/
def parseSecurity (l : List Byte) : Instr :=
  let byte : Nat → Byte := fun n => l.getD n (Config.missingRequestByte n)
  let id := BitVec.ofNat 16 (natOfLe [byte 0, byte 1])
  let request := if 3 ≤ l.length then parseRequest id (byte 2).toNat (l.drop 3) else none
  request.getD (.secRequestBadKind id (byte 2))

/-! ## Drive-link frames (11.1, R191) -/

/-- The class codes. -/
def classOf (n : Nat) : Option XferClass :=
  match n with
  | 0 => some .read
  | 1 => some .write
  | 2 => some .migrateRead
  | 3 => some .migrateWrite
  | _ => none

def classByte : XferClass → Nat
  | .read => 0 | .write => 1 | .migrateRead => 2 | .migrateWrite => 3

/-- Read a tag: bits 5 to 7 must be 0. -/
def readTag (l : List Byte) : Option (Fin 32 × List Byte) := do
  let (b, l) ← readByte l
  if h : b.toNat < 32 then some (⟨b.toNat, h⟩, l) else none

/-- A frame's body, by its kind; `none` where R191 calls the frame malformed. -/
def parseBody (kind : Nat) (l : List Byte) : Option Instr :=
  match kind with
  | 0x01 => allRead .linkHello l
  | 0x10 => do
    let (t, l) ← readTag l
    let (c, l) ← readByte l
    let cls ← classOf c.toNat
    let (start, l) ← readLe 5 l
    let (count, l) ← readLe 2 l
    let (order, l) ← readLe 2 l
    allRead (.xferOpen t cls start count order) l
  | 0x14 => do
    let (t, l) ← readTag l
    let (pad, l) ← readByte l
    let (i, l) ← readLe 2 l
    let (u, l) ← readLe 4096 l
    if pad = 0 then allRead (.xferUnit t i (BitVec.ofNat 32768 u)) l else none
  | 0x16 => do
    let (t, l) ← readTag l
    allRead (.xferStop t) l
  | 0x21 => do
    let (n, l) ← readLe 2 l
    let (r, l) ← readByte l
    if r.toNat ≤ 1 then allRead (.orderDone n (decide (r.toNat = 0))) l else none
  | 0x30 => some (parseSecurity l)
  | _ => none

/-- The command a frame's bytes are. A frame that R191 calls malformed is MALFORMED_FRAME with its kind code. Fewer than
three bytes, less than the header of 11.1, are no frame and no command: DESIGN CHOICE (entry 69 of the log). -/
def parseFrame : List Byte → Option Instr
  | kind :: l0 :: l1 :: body =>
    if natOfLe [l0, l1] = body.length then some ((parseBody kind.toNat body).getD (.malformedFrame kind))
    else some (.malformedFrame kind)
  | _ => none

/-! ## Platform messages (11.2, R192) -/

/-- A message's body, by its kind; `none` where R192 calls the message malformed. -/
def parseMessageBody (kind : Nat) (l : List Byte) : Option Instr :=
  match kind with
  | 0x01 => if l.length = 32 then some (.bind (BitVec.ofNat 256 (natOfLe l))) else none
  | 0x02 => if l.length = 32 then some (.checkin (BitVec.ofNat 256 (natOfLe l))) else none
  | 0x03 => allRead .sleep l
  | 0x04 => allRead .wake l
  | 0x05 => do
    let (sev, l) ← readByte l
    allRead (.alert sev) l
  | 0x06 => if secretFits l then some (.remoteErase l) else none
  | 0x07 => allRead .platformFetch l
  | 0x08 => do
    let (m, l) ← readLe 2 l
    if m < 2 ^ 10 then allRead (.platformSetMask (BitVec.ofNat 16 m)) l else none
  | _ => none

/-- The command a write transaction's bytes are. Fewer than two bytes, a kind without its length byte or nothing, are no
message and no command: DESIGN CHOICE (entry 69 of the log). -/
def parseMessage : List Byte → Option Instr
  | kind :: len :: body =>
    if len.toNat = body.length then some ((parseMessageBody kind.toNat body).getD (.platformMalformedMessage kind))
    else some (.platformMalformedMessage kind)
  | _ => none

/-! ## The same, written as bytes -/

/-- A field with its length byte. -/
def varBytes (l : List Byte) : List Byte := byteOf l.length ++ l

/-- The first two fields of a credential-bearing request. -/
def testedBytes (cred : Byte) (secret : Secret) (rest : List Byte) : List Byte := [cred] ++ varBytes secret ++ rest

/-- The fields of a security request, after its identifier and kind. -/
def requestFields : Instr → Option (List Byte)
  | .status _ => some []
  | .fetchNotices _ => some []
  | .setAttentionMask _ m => some (leBytes 2 m.toNat)
  | .lock _ r => some [r]
  | .lockAll _ => some []
  | .unlock _ c s rs => some (testedBytes c s (varBytes rs))
  | .takeOwnership _ s => some (varBytes s)
  | .changeSecret _ c s new => some (testedBytes c s (varBytes new))
  | .setSecret _ c s t new => some (testedBytes c s ([t] ++ varBytes new))
  | .enableCredential _ c s t => some (testedBytes c s [t])
  | .removeCredential _ c s t => some (testedBytes c s [t])
  | .grant _ c s t r a second => some (testedBytes c s ([t, r, a] ++ varBytes second))
  | .revoke _ c s t r => some (testedBytes c s [t, r])
  | .defineRange _ c s r start len a => some (testedBytes c s ([r] ++ leBytes 5 start ++ leBytes 5 len ++ [a]))
  | .deleteRange _ c s r => some (testedBytes c s [r])
  | .setRangeAttributes _ c s r a => some (testedBytes c s [r, a])
  | .eraseRange _ c s r => some (testedBytes c s [r])
  | .setPolicy _ c s p => some (testedBytes c s p)
  | .bindToPlatform _ c s => some (testedBytes c s [])
  | .unbind _ c s => some (testedBytes c s [])
  | .setRemoteToken _ c s token => some (testedBytes c s (varBytes token))
  | .readIncidents _ c s p => some (testedBytes c s [p])
  | .clearIncidents _ c s => some (testedBytes c s [])
  | .rekeyStart _ c s r => some (testedBytes c s [r])
  | .rekeyResume _ c s => some (testedBytes c s [])
  | .eraseAll _ c s => some (testedBytes c s [])
  | .reprovision _ c s => some (testedBytes c s [])
  | _ => none

/-- The bytes of a well-formed frame; `none` for a command that is no frame or has no one layout. -/
def commandFrame : Instr → Option (List Byte)
  | .linkHello => some (withHeader 0x01 [])
  | .xferOpen t c start count order =>
    some (withHeader 0x10 (byteOf t ++ byteOf (classByte c) ++ leBytes 5 start ++ leBytes 2 count ++ leBytes 2 order))
  | .xferUnit t i u => some (withHeader 0x14 (byteOf t ++ byteOf 0 ++ leBytes 2 i ++ leBytes 4096 u.toNat))
  | .xferStop t => some (withHeader 0x16 (byteOf t))
  | .orderDone n ok => some (withHeader 0x21 (leBytes 2 n ++ byteOf (!ok).toNat))
  | c => (requestFields c).map fun l => withHeader 0x30 (leBytes 2 (requestId c).toNat ++ [answerKind c] ++ l)

/-- A message: its kind, its body's length and its body. -/
def withLength (kind : Nat) (body : List Byte) : List Byte := byteOf kind ++ byteOf body.length ++ body

/-- The bytes of a well-formed platform message. -/
def commandMessage : Instr → Option (List Byte)
  | .bind w => some (withLength 0x01 (leBytes 32 w.toNat))
  | .checkin w => some (withLength 0x02 (leBytes 32 w.toNat))
  | .sleep => some (withLength 0x03 [])
  | .wake => some (withLength 0x04 [])
  | .alert sev => some (withLength 0x05 [sev])
  | .remoteErase token => some (withLength 0x06 token)
  | .platformFetch => some (withLength 0x07 [])
  | .platformSetMask m => some (withLength 0x08 (leBytes 2 m.toNat))
  | _ => none

end Sys2Proof
end

