-- ==== Sys2Proof/Machine/Resume.lean ====
section
/-! DEFINITION. The end of a store write and the work that waited for it (R184), and the passing of a second of uptime. -/

namespace Sys2Proof.Machine

/-! ## Work that waited -/

/-- The work of one wait. -/
def runCont (c : Cont) (s : State) : State :=
  match c with
  | .eraseEntered => eraseEntered s
  | .eraseNext k => eraseNext k s
  | .scrubHalf => noticeSec .scrubHalf s
  | .scrubEnd r => finishErase r s
  | .rekeyWindow => chooseWindow s
  | .rekeyClosing => closingSteps s
  | .rekeyEnded r => rekeyEnded r s

/-- The first wait in `l` whose writes are done and whose work `p` names, and the rest. -/
def takeReady (p : Cont → Bool) : List Wait → Option (Cont × List Wait)
  | [] => none
  | w :: rest =>
    if w.ids.isEmpty && p w.job then some (w.job, rest)
    else (takeReady p rest).map fun x => (x.1, w :: x.2)

/-- Run the ready work that `p` names, oldest first, `n` pieces at most. -/
def runReady (p : Cont → Bool) : Nat → State → State
  | 0, s => s
  | n + 1, s =>
    match takeReady p s.store.waits with
    | some (c, rest) => runReady p n (runCont c { s with store := { s.store with waits := rest } })
    | none => s

/-- The choice of a window follows the answer of its request (R112, R113); every other work goes before it. -/
def isWindow (c : Cont) : Bool := decide (c = .rekeyWindow)

/-- The request in progress whose writes are done goes on. -/
def secDue (s : State) : State :=
  match s.cmd.sec with
  | some j =>
    if j.writes.isEmpty then
      match j.phase with
      | .charging => chargeWritten j.req s
      | .policyWrite p => policyWritten p s
      | .reprovisioning l => reprovisioned l s
      | .answering _ _ => secAnswerDue s
      | _ => s
    else s
  | none => s

/-- R184: the write in progress completes, and what waited for it goes on. -/
def storeCompletes (s : State) : State :=
  match s.store.active with
  | none => s
  | some _ =>
    let s1 := completeWrite s
    let n := s1.store.waits.length
    let s2 := runReady (fun c => !isWindow c) n s1
    let s3 := platAnswerDue (secDue s2)
    runReady isWindow n s3

/-- STORE_WRITE_COMPLETE (R184). -/
def execStoreWriteComplete : State → Host.Outcome State Fault Refusal := event storeCompletes

/-! ## A second of uptime -/

/-- A countdown with one second less. It stays at 0 until its expiry is taken. -/
def countDown (t : Option Nat) : Option Nat := t.map (· - 1)

/-- A CLOSING range's deadline has one second less (R21). -/
def tickRun : RangeRun → RangeRun
  | .closing h d ws => .closing h (d - 1) ws
  | r => r

/-- The close deadlines have one second less (R21). -/
def tickCloses (s : State) : State :=
  (List.finRange 16).foldl (fun s r => setRun r (tickRun s.ranges[r].run) s) s

/-- The hold-down timers have one second less (R152). -/
def tickHoldDowns (s : State) : State :=
  (List.finRange 4).foldl (fun s n => setHoldDown n (countDown s.watch.holdDowns[n]) s) s

/-- A second passes: the uptime, from step 2 of start-up on (R189), the countdowns and the elapsed times (R61, R109, R126,
R130, R147, R150, R156). -/
def tick (s : State) : State :=
  if s.phase = .starting then s
  else
    let s1 := tickHoldDowns (tickCloses s)
    { s1 with
      uptime := s.uptime + 1
      cred := { s1.cred with holdoff := countDown s1.cred.holdoff }
      rekey := { s1.rekey with order := s1.rekey.order.map fun o => { o with deadline := o.deadline - 1 } }
      erase := { s1.erase with orders := s1.erase.orders.map fun o => { o with deadline := o.deadline - 1 } }
      watch := { s1.watch with
        deadline := countDown s1.watch.deadline
        checkin := if s1.watch.supervision = .armed then s1.watch.checkin + 1 else s1.watch.checkin
        decay := s1.watch.decay.map (· + 1) } }

end Sys2Proof.Machine
end

