-- ==== Sys2Proof/Machine/PowerUp.lean ====
section
/-! DEFINITION. The cold start (R187 to R189): the volatile state, the loading and checking of the records (R185, R186), the
reconciling of the rekey record (R125), and the restart of the part's jobs (R75, R83, R169). -/

namespace Sys2Proof.Machine

/-! ## Step 1: the volatile state -/

/-- R187, step 1: every volatile item at its cold-start value; the store as the last completed writes left it (R184).
The draws made, the device key and the commands waiting outside stay. -/
def powerUp (nv : Records) (s : State) : State :=
  { phase := .starting
    drive := { up := false, units := [], inbound := [], outbox := [], lastSent := none }
    platform := { up := false, buffer := none, lastRead := none }
    adm := { table := Vector.replicate 32 .free, hold := [] }
    ranges := Vector.replicate 16 ⟨.locked, false⟩
    slots := Vector.replicate 18 .empty
    cred := { holdoff := none, pendingSet := [] }
    derive := { job := none, waiting := [] }
    rekey := { order := none, fence := none, intended := none, counter := 1, seen := none, completing := false }
    erase := { orders := [], retries := [], done := [], starting := none, stopping := false }
    watch := { binding := .unbound, lastWord := none, deadline := none, supervision := .off, checkin := 0,
               sleep := .awake, decay := none, levels := Vector.replicate 4 false,
               holdDowns := Vector.replicate 4 none }
    cmd := { sec := none, plat := none, secQueue := [], platQueue := [], secMask := fullMask, platMask := fullMask,
             secAttn := false, platAttn := false, seq := 0 }
    uptime := 0
    copies := nv
    store := { nv := nv, active := none, queue := [], nextId := 0, touched := [], waits := [] }
    draws := s.draws
    deviceKey := s.deviceKey
    pending := s.pending }

/-! ## The store between the steps -/

/-- A start-up under way, with the writes it has completed so far, oldest first. -/
structure Boot where
  state : State
  log : List RecWrite

/-- R187: a step ends with its store writes: every requested write is completed, in order. -/
def Boot.settle (b : Boot) : Boot :=
  let writes := (b.state.store.active.toList ++ b.state.store.queue).map PendingWrite.what
  { state := { b.state with store := { b.state.store with
      nv := writes.foldl (fun r w => applyWrite w r) b.state.store.nv
      active := none
      queue := []
      waits := b.state.store.waits.map fun w => { w with ids := [] } } }
    log := b.log ++ writes }

/-- One step of the sequence, with its writes. -/
def Boot.step (f : State → State) (b : Boot) : Boot := Boot.settle { b with state := f b.state }

/-- R188: an erase begun or resumed goes on from step to step, each after its writes. -/
def Boot.runErase : Nat → Boot → Boot
  | 0, b => b
  | n + 1, b =>
    if b.state.store.waits.isEmpty then b
    else Boot.runErase n (b.step fun s => runReady (fun _ => true) s.store.waits.length s)

/-! ## Steps 2 and 3: the records -/

/-- R187, step 2: the boot count; a damaged one counts from 0. -/
def countBoot (damage : List Damage) (s : State) : State :=
  put (.boot (satAdd (2 ^ 32 - 1) (if damage.contains .bootCount then 0 else s.copies.boot) 1)) s

/-- What a damaged range record reads as, if the range's record is among the damaged. -/
def damagedRange (damage : List Damage) (r : Fin 16) : Option DamagedRange :=
  damage.findSome? fun d => match d with
    | .range q found => if q = r then some found else none
    | _ => none

/-- R1: whether a damaged range 1 to 15 stays defined, against the ranges that stand so far. -/
def damagedExtent (recs : Records) (found : DamagedRange) : Option Extent :=
  match found.extent with
  | some e =>
    if found.defined = true ∧ e.start % 8 = 0 ∧ e.len % 8 = 0 ∧ 8 ≤ e.len ∧ extentEnd e ≤ recs.factory.capacity
        ∧ ((List.finRange 16).all fun q => match definedExtent recs q with
            | some d => !extentsOverlap d e
            | none => true) = true then some e
    else none
  | none => none

/-- R1: what a damaged range record is treated as. -/
def treatedRange (recs : Records) (r : Fin 16) (found : DamagedRange) : RangeRec :=
  let erased (e : Option Extent) : RangeRec :=
    { defined := true, extent := e, attributes := found.attributes, generation := found.generation,
      salt := found.salt, current := none, next := none, erased := true }
  if r = 0 then erased none
  else
    match damagedExtent recs found with
    | some e => erased (some e)
    | none => { RangeRec.undefined with generation := found.generation, salt := found.salt }

/-- R1, R185: the damaged range records, ascending. A damaged range not yet judged bars no other. -/
def loadRanges (damage : List Damage) (s : State) : State :=
  let blank : Records := (List.finRange 16).foldl (fun recs r =>
    if (damagedRange damage r).isSome then applyWrite (.range r RangeRec.undefined) recs else recs) s.copies
  (List.finRange 16).foldl (fun s r =>
    match damagedRange damage r with
    | some found => putRange r (treatedRange s.copies r found) s
    | none => s) { s with copies := blank }

/-- R185: a record among the damaged takes its treated value. -/
def treat (damage : List Damage) (d : Damage) (w : RecWrite) (s : State) : State :=
  if damage.contains d then put w s else s

/-- R187, step 3, after the factory record: the records are loaded and checked in order, those of one kind by ascending
index: DESIGN CHOICE (entry 65 of the log). -/
def loadRecords (damage : List Damage) (s : State) : State :=
  let s1 := treat damage .policy (.policy Policy.default) s
  let s2 := loadRanges damage s1
  let s3 := (List.finRange 8).foldl (fun s c => treat damage (.credential c) (.cred c CredRec.empty) s) s2
  let s4 := treat damage .chargedCount (.charged 0) s3
  let s5 := (List.finRange 64).foldl (fun s k => treat damage (.wrapEntry k) (.wrap k none) s) s4
  let s6 := treat damage .bindingDigest (.digest none) s5
  let s7 := treat damage .remoteToken (.token none) s6
  let s8 := treat damage .watchRecord (.watch ⟨.alarmed, s7.copies.policy.t2⟩) s7
  let s9 := treat damage .rekeyRecord (.rekey none) s8
  let s10 := treat damage .eraseJournal (.journal (some ⟨.unknown, 0, 0, [], none⟩)) s9
  treat damage .incidentList (.incidents []) s10

/-! ## Step 4: what follows from the records -/

/-- R125: the rekey record is reconciled with the range records. -/
def reconcileRekey (s : State) : State :=
  let s1 : State := match s.copies.rekey with
    | some k =>
      let r := s.copies.ranges[k.range]
      if rangeDefined s.copies k.range = true ∧ r.erased = false ∧ r.next.isSome = true then
        (if k.state = .paused then s else putRekey (some { k with state := .paused }) s)
      else putRekey none s
    | none => s
  if s1.copies.rekey.isSome then s1
  else
    (List.finRange 16).foldl (fun s r =>
      if s.copies.ranges[r].next.isSome then putRange r { s.copies.ranges[r] with next := none } s else s) s1

/-- R187, step 4: the entries that go at the load of the wrap table (R15, R59). -/
def unloadable (recs : Records) (e : WrapEntry) : Bool :=
  isStale recs e || !rangeDefined recs e.range || recs.ranges[e.range].erased
    || match e.holder with
      | .slot c => decide (recs.creds[c].state = .empty)
      | .device => false

/-- R76: every ACTIVE USER credential at or above the limit is disabled, and its record's write requested, by ascending
slot: DESIGN CHOICE (entry 66 of the log). -/
def disableLoaded (s : State) : State :=
  (List.finRange 8).foldl (fun s c => if s.copies.creds[c].state = .active then disableAtLimit c s else s) s

/-- R153, R183: the incident parameter of a damaged record. -/
def damageKind : Damage → IncidentKind
  | .factoryCopy b => .storeDamage 0 (some b.toNat)
  | .range r _ => .storeDamage 1 (some r)
  | .credential c => .storeDamage 2 (some c)
  | .wrapEntry k => .storeDamage 3 (some k)
  | .chargedCount => .storeDamage 4 none
  | .policy => .storeDamage 5 none
  | .bindingDigest => .storeDamage 6 none
  | .remoteToken => .storeDamage 7 none
  | .watchRecord => .storeDamage 8 none
  | .rekeyRecord => .storeDamage 9 none
  | .eraseJournal => .storeDamage 10 none
  | .incidentList => .storeDamage 11 none
  | .bootCount => .storeDamage 12 none

/-- R154, R187: the damaged records in the order their incidents join: the list's own first, then as they were found, kind
by kind (entry 26 of the log). That those of one kind are found by ascending index: DESIGN CHOICE (entry 65 of the log). -/
def damageOrder (damage : List Damage) : List Damage :=
  let ranges := (List.finRange 16).filterMap fun r => (damagedRange damage r).map (Damage.range r)
  let all : List Damage :=
    [.incidentList, .bootCount, .factoryCopy false] ++ [.policy] ++ ranges
      ++ (List.finRange 8).map .credential ++ [.chargedCount] ++ (List.finRange 64).map .wrapEntry
      ++ [.bindingDigest, .remoteToken, .watchRecord, .rekeyRecord, .eraseJournal]
  all.filter fun d => damage.contains d

/-- R187, step 4. -/
def deriveStates (damage : List Damage) (s : State) : State :=
  let s1 := (List.finRange 16).foldl (fun s r =>
    setRun r (if s.copies.ranges[r].erased then .erased else .locked) s) s
  let s2 := reconcileRekey s1
  let s3 := disableLoaded (removeWraps (unloadable s2.copies) s2)
  (damageOrder damage).foldl (fun s d => addIncident (damageKind d) s) s3

/-! ## Steps 5 to 10: the jobs -/

/-- R169: the Erase Engine acts on the journal. Of an erase at steps 0 to 3 the rekey's discard and the reaching of step 3
(R159, R188) are one event, and step 3 does not wait for the discard's writes: DEDUCED (entry 63 of the log). -/
def resumeErase (s : State) : State :=
  match s.copies.journal with
  | none => s
  | some j =>
    if j.step = 5 then
      if s.copies.watch.state = .erased then s else enterWatch { s.copies.watch with state := .erased } s
    else
      let s1 := if s.copies.watch.state = .erasing then s else enterWatch { s.copies.watch with state := .erasing } s
      if j.step = 4 then startScrub s1 else eraseNext 3 (haltWork s1)

/-- R188, step 6, first: the loaded score is evaluated. -/
def evaluateLoaded (s : State) : State := if alive s.copies.watch.state then evaluate false s else s

/-- R75: the hold-off restarts in full. -/
def restartHoldoff (s : State) : State :=
  { s with cred := { s.cred with
    holdoff := startTimer (holdoffLength s.copies.policy s.copies.watch.state s.copies.charged) } }

/-- R188, step 8: binding, supervision, decay and the lines. -/
def startWatch (levels : BitVec 4) (s : State) : State :=
  { s with watch := { s.watch with
    binding := if s.copies.digest.isNone then .unbound else .unknown
    deadline := some s.copies.policy.bindingDeadline
    supervision := if s.copies.policy.checkinEnable then .waiting else .off
    decay := if calm s.copies.watch.state then some 0 else none
    levels := #v[levels.getLsbD 0, levels.getLsbD 1, levels.getLsbD 2, levels.getLsbD 3] } }

/-- R83: the auto-open of a cold start. -/
def autoOpenAll (s : State) : State :=
  if calm s.copies.watch.state then (List.finRange 16).foldl (fun s r => autoOpenOrPend bindingLets r s) s else s

/-- R188, step 10: both links begin to take what comes. -/
def takeLinks (s : State) : State := { s with phase := .running, platform := { s.platform with up := true } }

/-- R186: whether both copies of the factory record fail. -/
def factoryLost (damage : List Damage) : Bool :=
  damage.contains (.factoryCopy false) && damage.contains (.factoryCopy true)

/-- R187, R188: the sequence of a cold start, from its step 2. An erase runs through at most seven further steps. -/
def startUp (damage : List Damage) (levels : BitVec 4) (s : State) : Boot :=
  let b2 := Boot.step (countBoot damage) ⟨s, []⟩
  if factoryLost damage then { b2 with state := { b2.state with phase := .held } }
  else
    let b4 := (b2.step (loadRecords damage)).step (deriveStates damage)
    let b5 := (b4.step resumeErase).runErase 8
    let b6 := (b5.step evaluateLoaded).runErase 8
    let b6' := (b6.step exhaust).runErase 8
    let b9 := ((b6'.step restartHoldoff).step (startWatch levels)).step autoOpenAll
    { b9 with state := takeLinks b9.state }

/-- R187 to R189: a cold start; with `cut`, power is lost again in start-up after that many of its writes. -/
def coldStart (damage : List Damage) (levels : BitVec 4) (cut : Option Nat) (s : State) : State :=
  let b := startUp damage levels (powerUp s.store.nv s)
  match cut with
  | none => b.state
  | some n => powerUp ((b.log.take n).foldl (fun r w => applyWrite w r) s.store.nv) b.state

/-- COLD_START (R187). -/
def execColdStart (damage : List Damage) (levels : BitVec 4) (cut : Option Nat) :
    State → Host.Outcome State Fault Refusal :=
  event (coldStart damage levels cut)

end Sys2Proof.Machine
end

