-- ==== Sys2Proof/Machine/Dispatch.lean ====
section
/-! DEFINITION. One arm per command: a direct call of its meaning. -/

namespace Sys2Proof.Machine

/-- The effect of a command on everything but the queue of waiting commands. -/
def exec (i : Instr) (s : State) : Host.Outcome State Fault Refusal :=
  match i with
  | .coldStart damage levels cut => Sys2Proof.Machine.execColdStart damage levels cut s
  | .linkHello => Sys2Proof.Machine.execLinkHello s
  | .linkResetIndication => Sys2Proof.Machine.execLinkResetIndication s
  | .malformedFrame kind => Sys2Proof.Machine.execMalformedFrame kind s
  | .xferOpen tag cls start count order => Sys2Proof.Machine.execXferOpen tag cls start count order s
  | .xferUnit tag index payload => Sys2Proof.Machine.execXferUnit tag index payload s
  | .cipherUnitTake => Sys2Proof.Machine.execCipherUnitTake s
  | .xferStop tag => Sys2Proof.Machine.execXferStop tag s
  | .orderDone num ok => Sys2Proof.Machine.execOrderDone num ok s
  | .migrationOrderDeadlineExpiry => Sys2Proof.Machine.execMigrationOrderDeadlineExpiry s
  | .migrateOrderSend => Sys2Proof.Machine.execMigrateOrderSend s
  | .scrubOrderDeadlineExpiry num => Sys2Proof.Machine.execScrubOrderDeadlineExpiry num s
  | .status id => Sys2Proof.Machine.execStatus id s
  | .fetchNotices id => Sys2Proof.Machine.execFetchNotices id s
  | .setAttentionMask id mask => Sys2Proof.Machine.execSetAttentionMask id mask s
  | .lock id range => Sys2Proof.Machine.execLock id range s
  | .lockAll id => Sys2Proof.Machine.execLockAll id s
  | .secRequestBadKind id kind => Sys2Proof.Machine.execSecRequestBadKind id kind s
  | .unlock id cred secret ranges => Sys2Proof.Machine.execUnlock id cred secret ranges s
  | .derivationComplete => Sys2Proof.Machine.execDerivationComplete s
  | .takeOwnership id secret => Sys2Proof.Machine.execTakeOwnership id secret s
  | .changeSecret id cred secret newSecret => Sys2Proof.Machine.execChangeSecret id cred secret newSecret s
  | .setSecret id cred secret target newSecret => Sys2Proof.Machine.execSetSecret id cred secret target newSecret s
  | .enableCredential id cred secret target => Sys2Proof.Machine.execEnableCredential id cred secret target s
  | .removeCredential id cred secret target => Sys2Proof.Machine.execRemoveCredential id cred secret target s
  | .grant id cred secret target range access second => Sys2Proof.Machine.execGrant id cred secret target range access second s
  | .revoke id cred secret target range => Sys2Proof.Machine.execRevoke id cred secret target range s
  | .defineRange id cred secret range start len attrs => Sys2Proof.Machine.execDefineRange id cred secret range start len attrs s
  | .deleteRange id cred secret range => Sys2Proof.Machine.execDeleteRange id cred secret range s
  | .setRangeAttributes id cred secret range attrs => Sys2Proof.Machine.execSetRangeAttributes id cred secret range attrs s
  | .eraseRange id cred secret range => Sys2Proof.Machine.execEraseRange id cred secret range s
  | .setPolicy id cred secret policy => Sys2Proof.Machine.execSetPolicy id cred secret policy s
  | .bindToPlatform id cred secret => Sys2Proof.Machine.execBindToPlatform id cred secret s
  | .unbind id cred secret => Sys2Proof.Machine.execUnbind id cred secret s
  | .setRemoteToken id cred secret token => Sys2Proof.Machine.execSetRemoteToken id cred secret token s
  | .readIncidents id cred secret position => Sys2Proof.Machine.execReadIncidents id cred secret position s
  | .clearIncidents id cred secret => Sys2Proof.Machine.execClearIncidents id cred secret s
  | .rekeyStart id cred secret range => Sys2Proof.Machine.execRekeyStart id cred secret range s
  | .rekeyResume id cred secret => Sys2Proof.Machine.execRekeyResume id cred secret s
  | .eraseAll id cred secret => Sys2Proof.Machine.execEraseAll id cred secret s
  | .reprovision id cred secret => Sys2Proof.Machine.execReprovision id cred secret s
  | .storeWriteComplete => Sys2Proof.Machine.execStoreWriteComplete s
  | .closeComplete range => Sys2Proof.Machine.execCloseComplete range s
  | .closeDeadlineExpiry range => Sys2Proof.Machine.execCloseDeadlineExpiry range s
  | .slotDrainComplete slot => Sys2Proof.Machine.execSlotDrainComplete slot s
  | .holdoffExpiry => Sys2Proof.Machine.execHoldoffExpiry s
  | .bind word => Sys2Proof.Machine.execBind word s
  | .bindingDeadlineExpiry => Sys2Proof.Machine.execBindingDeadlineExpiry s
  | .checkin word => Sys2Proof.Machine.execCheckin word s
  | .checkinTimerExpiry => Sys2Proof.Machine.execCheckinTimerExpiry s
  | .sleep => Sys2Proof.Machine.execSleep s
  | .wake => Sys2Proof.Machine.execWake s
  | .alert severity => Sys2Proof.Machine.execAlert severity s
  | .remoteErase token => Sys2Proof.Machine.execRemoteErase token s
  | .platformFetch => Sys2Proof.Machine.execPlatformFetch s
  | .platformSetMask mask => Sys2Proof.Machine.execPlatformSetMask mask s
  | .platformMalformedMessage kind => Sys2Proof.Machine.execPlatformMalformedMessage kind s
  | .platformRead => Sys2Proof.Machine.execPlatformRead s
  | .platformLinkReset => Sys2Proof.Machine.execPlatformLinkReset s
  | .watchLineEdge line level => Sys2Proof.Machine.execWatchLineEdge line level s
  | .holdDownExpiry line => Sys2Proof.Machine.execHoldDownExpiry line s
  | .decayTimerExpiry => Sys2Proof.Machine.execDecayTimerExpiry s
  | .outboundFrameSent => Sys2Proof.Machine.execOutboundFrameSent s

end Sys2Proof.Machine
end

