-- ==== Sys2Proof/Safety.lean ====
section
/-! DEFINITION. The terms in which claims are stated: when a frame, a request or a message is taken at once, and the
invariants that every step keeps. -/

namespace Sys2Proof.Machine

/-! ## When a command is taken at once -/

/-- No write is noted: the state between two commands. -/
def Between (s : State) : Prop := s.store.touched = []

/-- The Drive Link Interface takes a frame at once: start-up has ended, the link is UP and no frame waits (R172). -/
def LinkTakes (s : State) : Prop :=
  s.phase = .running ∧ s.drive.up = true ∧ s.drive.inbound = [] ∧ Between s

/-- The security channel takes a request at once (R174). -/
def ChannelTakes (s : State) : Prop := LinkTakes s ∧ s.cmd.sec = none

/-- The platform channel takes a message at once (R177). -/
def MessageTaken (s : State) : Prop := s.platform.up = true ∧ s.cmd.plat = none ∧ Between s

/-- The frame `f` joins those produced. -/
def sent (f : OutFrame) (s : State) : State := { s with drive := { s.drive with outbox := s.drive.outbox ++ [f] } }

/-- The platform answer buffer holds an answer (R177). -/
def answered (kind : Byte) (c : Code) (b : AnswerBody) (s : State) : State :=
  { s with platform := { s.platform with buffer := some (.answer kind c b) } }

/-- The records take new contents, in this order, and their writes are requested (R183). -/
def written (l : List RecWrite) (s : State) : State := clearTouched (l.foldl (fun s w => put w s) s)

/-- What a command answers next of a state, where it answers one. -/
def Next (o : Host.Outcome State Fault Refusal) (p : State → Prop) : Prop := ∃ t, o = .next t ∧ p t

/-- No work of an erase waits for store writes: none has been started, or it has reached its scrub (R157, R159). -/
def NoEraseWork (s : State) : Prop :=
  ∀ w ∈ s.store.waits, w.job = .rekeyWindow ∨ w.job = .rekeyClosing ∨ ∃ r, w.job = .rekeyEnded r

/-- The store's next completion sets off one piece of waiting work and nothing else: both channels are IDLE. -/
def CompletesTo (job : Cont) (s : State) : Prop :=
  Between s ∧ s.cmd.sec = none ∧ s.cmd.plat = none
    ∧ ∃ p, s.store.active = some p ∧ s.store.waits = [⟨[p.id], job⟩]

/-- The only work that waits is `job`, and it waits for writes that have not completed. -/
def AwaitsThen (job : Cont) (s : State) : Prop := ∃ ids, ids ≠ [] ∧ s.store.waits = [⟨ids, job⟩]

/-- No LOCK, LOCK_ALL or SLEEP waits on a close (R21, R134). -/
def NoCloseAwaited (s : State) : Prop :=
  (∀ j, s.cmd.sec = some j → j.phase ≠ .closing) ∧ (∀ j, s.cmd.plat = some j → j.phase ≠ .closing)

/-- A policy's thresholds in the order R102 asks for. -/
def Ordered (p : Policy) : Prop := 1 ≤ p.t1 ∧ p.t1 ≤ p.t2 ∧ p.t2 ≤ p.t3

/-- Where evidence leaves the watch when the score has become `n` (R144), from a state in which the drive is in use. -/
def watchAt (p : Policy) (old : WatchState) (n : Nat) : WatchState :=
  if p.eraseByScore = true ∧ p.t3 ≤ n then .erasing
  else if old = .alarmed ∨ p.t2 ≤ n then .alarmed
  else if p.t1 ≤ n then .wary
  else .settled

/-- What a piece of evidence leaves (R143, R144, R153): the score and the watch, or the watch untouched in ERASING and
ERASED; its incident; and no other record but the rekey's and the journal. -/
def EvidenceTaken (e : Evidence) (s t : State) : Prop :=
  (alive s.copies.watch.state = true →
    t.copies.watch.score = min 255 (s.copies.watch.score + s.copies.policy.weights[evidenceIx e])
      ∧ t.copies.watch.state = watchAt s.copies.policy s.copies.watch.state t.copies.watch.score)
    ∧ (alive s.copies.watch.state = false → t.copies.watch = s.copies.watch)
    ∧ (∃ i ∈ t.copies.incidents, i = ⟨.evidence e, s.copies.boot, s.uptime, t.copies.watch.score⟩)
    ∧ t.copies = { s.copies with
        watch := t.copies.watch, incidents := t.copies.incidents, rekey := t.copies.rekey, journal := t.copies.journal }

/-- The end of a test is next: the Derivation Engine's job is the request's, and gives `key` (R62, R67). -/
def Testing (req : Instr) (c : Fin 8) (key : CredKey) (s : State) : Prop :=
  Between s ∧ (∃ j, s.derive.job = some j ∧ j.channel = .security ∧ derived j = key)
    ∧ (∃ lost, s.cmd.sec = some ⟨req, lost, .testing, [], [], false⟩) ∧ (credentials req).map Prod.fst = some c

/-- A credential-bearing request (R65) with this identifier, credential index and secret. -/
def credentialBearing (id : BitVec 16) (cb : Byte) (secret : Secret) (c : Instr) : Prop :=
  requestId c = id ∧ match c with
    | .unlock _ b l _ => b = cb ∧ l = secret
    | .changeSecret _ b l _ => b = cb ∧ l = secret
    | .setSecret _ b l _ _ => b = cb ∧ l = secret
    | .enableCredential _ b l _ => b = cb ∧ l = secret
    | .removeCredential _ b l _ => b = cb ∧ l = secret
    | .grant _ b l _ _ _ _ => b = cb ∧ l = secret
    | .revoke _ b l _ _ => b = cb ∧ l = secret
    | .defineRange _ b l _ _ _ _ => b = cb ∧ l = secret
    | .deleteRange _ b l _ => b = cb ∧ l = secret
    | .setRangeAttributes _ b l _ _ => b = cb ∧ l = secret
    | .eraseRange _ b l _ => b = cb ∧ l = secret
    | .setPolicy _ b l _ => b = cb ∧ l = secret
    | .bindToPlatform _ b l => b = cb ∧ l = secret
    | .unbind _ b l => b = cb ∧ l = secret
    | .setRemoteToken _ b l _ => b = cb ∧ l = secret
    | .readIncidents _ b l _ => b = cb ∧ l = secret
    | .clearIncidents _ b l => b = cb ∧ l = secret
    | .rekeyStart _ b l _ => b = cb ∧ l = secret
    | .rekeyResume _ b l => b = cb ∧ l = secret
    | .eraseAll _ b l => b = cb ∧ l = secret
    | .reprovision _ b l => b = cb ∧ l = secret
    | _ => False

/-- A test that succeeds (R64, R69): the derived key is the one the credential's verifier was made from. -/
def Succeeds (req : Instr) (c : Fin 8) (key : CredKey) (s : State) : Prop :=
  Testing req c key s ∧ verifies s.copies.creds[c].verifier key = true

/-- The request in progress has its answer ready, and waits at most for store writes (R87). -/
def Answering (req : Instr) (c : Code) (b : AnswerBody) (s : State) : Prop :=
  ∃ j, s.cmd.sec = some j ∧ j.req = req ∧ j.phase = .answering c b

/-- R87, R176: the request has been answered and the channel is IDLE: the answer is among the frames, or a COMMAND_LOST is
queued for it where it was lost or the link is DOWN. That the channel is IDLE before the frame has left is the model's choice,
entry 72 of the log. -/
def AnswerLeft (req : Instr) (lost : Bool) (k : Code) (b : AnswerBody) (s t : State) : Prop :=
  t.cmd.sec = none
    ∧ (lost = false → s.drive.up = true → .secAnswer (requestId req) (answerKind req) k b ∈ t.drive.outbox)
    ∧ (lost = true ∨ s.drive.up = false → ∃ e ∈ t.cmd.secQueue, e.notice = .commandLost (answerKind req) k)

/-- After a success verdict that left the watch alone, a request changed records and nothing but records (R69). -/
def OnlyRecords (s t : State) : Prop :=
  t = { s with
    copies := t.copies
    store := t.store
    cmd := { s.cmd with sec := t.cmd.sec }
    cred := { s.cred with holdoff := none }
    derive := { job := s.derive.waiting.head?, waiting := s.derive.waiting.tail } }

/-- The records with the counts of R69, step 1, at 0. -/
def countsReset (c : Fin 8) (recs : Records) : Records :=
  { recs with charged := 0, creds := recs.creds.set c { recs.creds[c] with ownCount := 0 } }

/-- Nothing lowers the watch further: SETTLED with a score of 0 under ordered thresholds (R144, R145). -/
def AtRest (s : State) : Prop := s.copies.watch = ⟨.settled, 0⟩ ∧ Ordered s.copies.policy

/-- No two defined ranges share an LBA (R2). -/
def RangesApart (recs : Records) : Prop :=
  ∀ q r : Fin 16, q ≠ r → ∀ d e, definedExtent recs q = some d → definedExtent recs r = some e →
    extentsOverlap d e = false

/-- A command that the drive link brings (R172): a frame of 11.1, a malformed one, or a SEC_REQUEST. -/
def IsFrame (c : Instr) : Prop :=
  (commandFrame c).isSome = true ∨ (requestCode c).isSome = true ∨ ∃ kind, c = .malformedFrame kind

/-- R172: from `m` the frames of the list have been taken in order, each as it would have been with none before it, up to
the first that is not taken yet, an XFER_UNIT that finds the buffer full; that one waits, and those behind it. -/
def TakenInOrder : List Instr → State → State → Prop
  | [], m, t => t = m
  | c :: rest, m, t =>
    let waits := (∃ tag index payload, c = .xferUnit tag index payload) ∧ m.drive.up = true ∧ 8 ≤ m.drive.units.length
    (waits → t = { m with drive := { m.drive with inbound := c :: rest } })
      ∧ (¬waits → ∃ n, exec c m = .next n ∧ TakenInOrder rest n t)

/-- R36 to R38: a piece of a descriptor passes: the watch is ERASED; or its range is OPEN at a level that admits the
class; or its range is ERASED and the class is READ. -/
def Passes (s : State) (cls : XferClass) (q : Piece) : Prop :=
  s.copies.watch.state = .erased
    ∨ (∃ h, s.ranges[q.range].run = .opened h ∧ (cls = .write → h.level = .readWrite))
    ∨ s.ranges[q.range].run = .erased ∧ cls = .read

/-- R34, R36 to R38: the segment of a piece that passes. Its treatment is PAD with the watch ERASED or on an ERASED range,
and else CIPHER: with the NEXT slot for a READ or WRITE below the frontier and for MIGRATE_WRITE, where the range has one,
and with the CURRENT slot for any other. -/
def SegmentOf (s : State) (cls : XferClass) (q : Piece) (g : Segment) : Prop :=
  let takesNext := (cls = .read ∨ cls = .write) ∧ q.below = true ∨ cls = .migrateWrite
  g.extent = q.extent ∧ g.range = q.range
    ∧ (s.copies.watch.state = .erased → g.treatment = .pad)
    ∧ (s.copies.watch.state ≠ .erased →
      (s.ranges[q.range].run = .erased → g.treatment = .pad)
      ∧ ∀ h, s.ranges[q.range].run = .opened h →
        (takesNext → ∀ n, h.next = some n → g.treatment = .cipher n)
        ∧ (¬takesNext ∨ h.next = none → g.treatment = .cipher h.current))

/-- R54: between `u` and `t` the held descriptor `g`, the oldest of the list, has been walked anew, without a fence check.
Where a segment fails it is FREE and refused with that segment's reason and range; else it is ADMITTED and the slots it
names have one pin more. Nothing else has changed. -/
def WalkedAnew (g : Fin 32) (u t : State) : Prop :=
  ∃ cls e, u.adm.table[g] = .held cls e
    ∧ (∀ c r, judgeAll u cls (rangeWalk u e) = .inl (c, r) →
      t = pushFrame (.xferRefuse g c (some r)) { u with adm := ⟨u.adm.table.set g .free, u.adm.hold.tail⟩ })
    ∧ ∀ segs, judgeAll u cls (rangeWalk u e) = .inr segs →
      t = pushFrame (.xferAdmit g) { u with
        adm := ⟨u.adm.table.set g (.admitted ⟨cls, e, none, segs, 0, 0, 0, false⟩), u.adm.hold.tail⟩, slots := t.slots }
      ∧ ∀ k : Fin 18, t.slots[k] = if k ∈ slotsNamed segs then pinnedSlot u.slots[k] else u.slots[k]

/-- R53: between `u` and `t` the hold list `l` has been released, oldest first: each of its descriptors has been walked anew
in the state that the older ones left, and then entries, list and slots stand as the last of them left them. -/
def ReleasedFrom : List (Fin 32) → State → State → Prop
  | [], u, t => u.adm.hold = [] ∧ t.adm = u.adm ∧ t.slots = u.slots ∧ u.drive.outbox <+: t.drive.outbox
  | g :: rest, u, t => u.adm.hold = g :: rest ∧ ∃ m, WalkedAnew g u m ∧ ReleasedFrom rest m t

/-- The COMMAND_LOST notices of the answers among frames that are dropped (R173, R176), in the order of the frames, which
is the model's choice (entry 74 of the log). -/
def lostAnswers (l : List OutFrame) : List Notice :=
  l.filterMap fun
    | .secAnswer _ kind c _ => some (.commandLost kind c)
    | _ => none

/-- The security queue of `s` with notices added, oldest first (R179). -/
def withNotices (l : List Notice) (s : State) : List NoticeEntry :=
  l.zipIdx.foldl (fun q p => joinQueue 32 ⟨p.1, false, s.cmd.seq + p.2⟩ q) s.cmd.secQueue

/-- R115, R121: the Rekey Engine once the range under rekey leaves OPEN: an intended window is withdrawn and the fence
cleared with it; without one nothing changes. -/
def windowWithdrawn (k : RekeyEngine) : RekeyEngine :=
  if k.intended.isSome = true then { k with intended := none, fence := none } else k

/-- R13: between `s` and `t` the slots of `h` are retired, and no other has changed. -/
def SlotsRetired (h : Held) (s t : State) : Prop :=
  ∀ k : Fin 18, t.slots[k] = if k = h.current ∨ h.next = some k then retiredSlot s.slots[k] else s.slots[k]

/-- R114, R115: the window at the frontier of `k` has been chosen, its fence is set, and its order has gone unless an
ADMITTED WRITE of `s` overlaps the window (R109, R110). -/
def WindowChosen (k : RekeyRec) (s t : State) : Prop :=
  let w : Extent := ⟨k.frontier, min 256 (pieceStop s.copies k.range k.frontier - k.frontier)⟩
  t.rekey.fence = some w
    ∧ ((∃ (g : Fin 32) (x : Xfer), s.adm.table[g] = .admitted x ∧ x.cls = .write ∧ extentsOverlap x.extent w = true) →
      t.rekey.intended = some w ∧ t.rekey.order = none)
    ∧ ((∀ (g : Fin 32) (x : Xfer), s.adm.table[g] = .admitted x → x.cls = .write → extentsOverlap x.extent w = false) →
      t.rekey.intended = none ∧ t.rekey.order = some ⟨s.rekey.counter, w, 30⟩
        ∧ .migrate s.rekey.counter w ∈ t.drive.outbox)

/-- R117: the security queue after a frontier has gone from the one of `k` to `f`: REKEY_HALF joins it where half of the
range's blocks have been passed. -/
def halfNoticed (k : RekeyRec) (f : Nat) (s : State) : List NoticeEntry :=
  let total := blockTotal s.copies k.range
  if 2 * blocksBelow s.copies k.range k.frontier < total ∧ total ≤ 2 * blocksBelow s.copies k.range f then
    joinQueue 32 ⟨.rekeyHalf k.range, false, s.cmd.seq⟩ s.cmd.secQueue
  else s.cmd.secQueue

/-! ## Invariants -/

/-- R170: a REPROVISION whose steps 1 to 4 are being written stands only while the watch is ERASED. -/
def ReprovisionOk (s : State) : Prop :=
  ∀ j l, s.cmd.sec = some j → j.phase = .reprovisioning l → s.copies.watch.state = .erased

/-- R182: each attention line stands as its queue and its mask say. -/
def AttentionOk (s : State) : Prop :=
  s.cmd.secAttn = attention s.cmd.secQueue s.cmd.secMask ∧ s.cmd.platAttn = attention s.cmd.platQueue s.cmd.platMask

/-- The tables and queues hold no more than they have room for (R30, R41, R156, R179), and the order counter holds an
order number (R110). -/
def BoundsOk (s : State) : Prop :=
  s.cmd.secQueue.length ≤ 32 ∧ s.cmd.platQueue.length ≤ 16 ∧ s.adm.hold.length ≤ 8 ∧ s.drive.units.length ≤ 8
    ∧ s.erase.orders.length ≤ 4 ∧ 1 ≤ s.rekey.counter ∧ s.rekey.counter ≤ 65535

/-- R30: the hold list holds each tag once, and exactly the tags whose entries are HELD. -/
def HoldListOk (s : State) : Prop :=
  s.adm.hold.Nodup ∧ ∀ t : Fin 32, t ∈ s.adm.hold ↔ ∃ c e, s.adm.table[t] = .held c e

/-- A write of a record whose numbers lie in their stated ranges (R59, R61, R141, R154). -/
def WriteOk : RecWrite → Prop
  | .cred _ c => c.ownCount ≤ 255
  | .charged n => n ≤ 65535
  | .policy p => p.t2 ≤ 255
  | .watch w => w.score ≤ 255
  | .incidents l => l.length ≤ 24
  | .boot n => n < 2 ^ 32
  | _ => True

/-- Records whose numbers lie in their stated ranges. -/
def RecordsOk (r : Records) : Prop :=
  (∀ c : Fin 8, r.creds[c].ownCount ≤ 255) ∧ r.charged ≤ 65535 ∧ r.policy.t2 ≤ 255 ∧ r.watch.score ≤ 255
    ∧ r.incidents.length ≤ 24 ∧ r.boot < 2 ^ 32

/-- The policy a SET_POLICY is writing (R102) keeps its thresholds in a byte. -/
def PhaseOk : SecPhase → Prop
  | .policyWrite p => p.t2 ≤ 255
  | _ => True

/-- What the store holds once every write asked for has completed (R184). -/
def afterWrites (s : State) : Records :=
  (s.store.active.toList ++ s.store.queue).foldl (fun r p => applyWrite p.what r) s.store.nv

/-- The policy the store is to hold: the one a SET_POLICY is writing (R102), or the one in force. -/
def policyUnderWay (s : State) : Policy :=
  match s.cmd.sec.map SecJob.phase with
  | some (.policyWrite p) => p
  | _ => s.copies.policy

/-- R183, R184: the store with the writes asked for holds what the working copies do, but for a policy under way and for
the watch record of an erase whose step 0 is being written (R157; entry 7 of the log). A write waits only behind one in
progress. -/
def StoreOk (s : State) : Prop :=
  afterWrites s = { s.copies with policy := policyUnderWay s, watch := (afterWrites s).watch }
    ∧ (s.erase.starting = none → (afterWrites s).watch = s.copies.watch)
    ∧ (s.store.active = none → s.store.queue = [])

/-- The number of ADMITTED entries whose segments name a slot (R12). -/
def pinsOn (k : Fin 18) (s : State) : Nat :=
  countEntries (fun e => match e with
    | .admitted x => (slotsNamed x.segs).contains k
    | _ => false) s

/-- Whether a slot is LIVE for a range (R10). -/
def LiveFor (r : Fin 16) (k : Fin 18) (s : State) : Prop := ∃ key n, s.slots[k] = .live r key n

/-- R4, R12: a slot's pins are the ADMITTED entries that name it, an OPEN or CLOSING range holds LIVE slots of its own, the
segments of an ADMITTED entry cover it and a unit of it is still to come, and a HELD descriptor lies on the drive. -/
def SlotsOk (s : State) : Prop :=
  (∀ k : Fin 18, slotPins s.slots[k] = pinsOn k s)
    ∧ (∀ (r : Fin 16) h, heldBy s.ranges[r].run = some h →
      LiveFor r h.current s ∧ ∀ n, h.next = some n → n ≠ h.current ∧ LiveFor r n s)
    ∧ (∀ (t : Fin 32) x, s.adm.table[t] = .admitted x →
      x.next < x.extent.len ∧ ∀ i, i < x.extent.len → (segmentOf x i).isSome = true)
    ∧ ∀ (t : Fin 32) c e, s.adm.table[t] = .held c e → 1 ≤ e.len ∧ extentEnd e ≤ s.copies.factory.capacity

/-- The working copies, the store and every write it has still to make lie in their stated ranges. -/
def CountsOk (s : State) : Prop :=
  RecordsOk s.copies ∧ RecordsOk s.store.nv ∧ (∀ p, s.store.active = some p → WriteOk p.what)
    ∧ (∀ p ∈ s.store.queue, WriteOk p.what) ∧ (∀ j, s.cmd.sec = some j → PhaseOk j.phase)

end Sys2Proof.Machine
end

