-- ==== Sys2Proof/Certificates/Slice0/Obligations.lean ====
section
/-! DEFINITION. The statements for the provers: one per definition, each formalising rules of spec/. -/

section

open Sys2Proof Sys2Proof.Machine

/-! ## The machine -/

/-- The command at the front of the queue is executed, on the state with the queue's rest. -/
def Obligations.StepRunsFrontCommand : Prop :=
  ∀ (c : Instr) (rest : List Instr) (s : State), s.pending = c :: rest → step s = exec c { s with pending := rest }

/-- With no command waiting a second of uptime passes (the model's choice, entry 2 of the log): each running timer of R61,
R109, R126, R130, R147, R150, R156 and R21 moves by one second, and nothing else changes. The uptime runs from step 2 of
start-up on (R189). -/
def Obligations.IdleStepPassesOneSecond : Prop :=
  ∀ s : State, s.pending = [] →
    (s.phase = .starting → step s = .next s) ∧
    (s.phase ≠ .starting → Next (step s) fun t =>
      t = { s with
        uptime := s.uptime + 1
        ranges := t.ranges
        cred := { s.cred with holdoff := s.cred.holdoff.map (· - 1) }
        rekey := { s.rekey with order := s.rekey.order.map fun o => { o with deadline := o.deadline - 1 } }
        erase := { s.erase with orders := s.erase.orders.map fun o => { o with deadline := o.deadline - 1 } }
        watch := { s.watch with
          deadline := s.watch.deadline.map (· - 1)
          checkin := if s.watch.supervision = .armed then s.watch.checkin + 1 else s.watch.checkin
          decay := s.watch.decay.map (· + 1)
          holdDowns := t.watch.holdDowns } }
      ∧ (∀ r : Fin 16, t.ranges[r] = ⟨match s.ranges[r].run with
          | .closing h d ws => .closing h (d - 1) ws
          | run => run, s.ranges[r].sleepMark⟩)
      ∧ ∀ n : Fin 4, t.watch.holdDowns[n] = s.watch.holdDowns[n].map (· - 1))

/-- No command touches the queue, the device key or the factory record, and the count of draws never falls (R6, R7, R186):
that keys and salts are named by a count of draws is entries 6 and 42 of the log. -/
def Obligations.CommandsKeepQueueKeyAndFactory : Prop :=
  ∀ (c : Instr) (s t : State), exec c s = .next t →
    t.pending = s.pending ∧ t.deviceKey = s.deviceKey ∧ s.draws ≤ t.draws
      ∧ t.store.nv.factory = s.store.nv.factory

/-- Once the watch is ERASING only the end of the erase or a cold start takes it out, and no range opens (R66, R81, R142).
R170: a REPROVISION whose steps are being written stands only in ERASED; reset has it so, and every step keeps it so, but
from a state in which an erase is being entered while the watch is ERASED already, which no run reaches. -/
def Obligations.ErasingEndsInErasedAndOpensNothing : Prop :=
  (∀ (c : Instr) (s t : State), (∀ d l k, c ≠ .coldStart d l k) → ReprovisionOk s → s.copies.watch.state = .erasing →
    exec c s = .next t →
    (t.copies.watch.state = .erasing ∨ t.copies.watch.state = .erased)
      ∧ ∀ r : Fin 16, isOpen t.ranges[r].run = true → isOpen s.ranges[r].run = true)
  ∧ ReprovisionOk State.reset
  ∧ ∀ s t : State, ReprovisionOk s →
    (s.copies.watch.state = .erased → ∀ w ∈ s.store.waits, w.job ≠ .eraseEntered) → step s = .next t → ReprovisionOk t

/-! ## Invariants -/

/-- R182: each attention line stands as its queue and its mask say, after every step. -/
def Obligations.AttentionLinesFollowQueuesAndMasks : Prop :=
  ∀ s t : State, AttentionOk s → step s = .next t → AttentionOk t

/-- The tables, queues and buffers never outgrow their size, and the order counter never holds 0 (R30, R41, R110, R156,
R179). -/
def Obligations.TablesKeepTheirBounds : Prop :=
  ∀ s t : State, BoundsOk s → step s = .next t → BoundsOk t

/-- Counts, the score, the incident list and the boot count stay in their ranges, in the working copies, in the store
and in every write under way (R59, R61, R141, R154, R187). -/
def Obligations.RecordNumbersKeepTheirRanges : Prop :=
  ∀ s t : State, CountsOk s → step s = .next t → CountsOk t

/-- The hold list holds exactly the tags of the HELD entries, each once (R30). -/
def Obligations.HoldListNamesHeldEntries : Prop :=
  ∀ s t : State, HoldListOk s → step s = .next t → HoldListOk t

/-- R183, R184: the store, with the write in progress and the waiting ones applied in their order, holds what the working
copies do. The two exceptions are a policy under way (R102, R103) and the watch record of an erase whose step 0 is being
written (R157; entry 7 of the log). -/
def Obligations.StoreFollowsTheWorkingCopies : Prop :=
  ∀ s t : State, StoreOk s → step s = .next t → StoreOk t

/-- R4, R10, R12: the pins of each slot are the ADMITTED entries that name it, and OPEN and CLOSING ranges hold LIVE slots
of their own. From such a state no step reaches the fault of CIPHER_UNIT_TAKE (entry 38 of the log). The premise on step 2
of an erase is what step 1 leaves (R160). -/
def Obligations.SlotsHoldTheirPins : Prop :=
  ∀ s : State, SlotsOk s →
    (∀ w ∈ s.store.waits, w.job = .eraseNext 2 → s.adm.hold = [] ∧ ∀ (g : Fin 32) x, s.adm.table[g] ≠ .admitted x) →
    (∀ f, step s ≠ .fault f) ∧ ∀ t, step s = .next t → SlotsOk t

/-- R148, R24, R55: whatever takes the watch into ALARMED, but for a success verdict, leaves every range LOCKED or ERASED,
every transfer that had a segment in an OPEN or CLOSING range cut, no held descriptor that touches a range which was OPEN,
the pending set empty and the decay timer stopped. (A success verdict may raise the alarm by UNLOCK's own evidence, and
opens its ranges after it.) The extents do not overlap, which RangesStayApart keeps (R2). -/
def Obligations.AlarmClosesEveryRange : Prop :=
  ∀ (c : Instr) (s t : State), NoEraseWork s ∨ (∃ d l k, c = .coldStart d l k) →
    (c = .derivationComplete → ∀ j q d secret, s.derive.job = some j → j.channel = .security → s.cmd.sec = some q →
      q.phase = .testing → credentials q.req = some (d, secret) →
      verifies s.copies.creds[d].verifier (derived j) = false) →
    RangesApart s.copies → exec c s = .next t → s.copies.watch.state ≠ .alarmed → t.copies.watch.state = .alarmed →
    (∀ r : Fin 16, t.ranges[r].run = .locked ∨ t.ranges[r].run = .erased)
      ∧ (∀ (g : Fin 32) x, t.adm.table[g] = .admitted x → ∀ p ∈ x.segs, heldBy s.ranges[p.range].run = none)
      ∧ (∀ g ∈ t.adm.hold, ∀ k e, t.adm.table[g] = .held k e → ∀ r : Fin 16, isOpen s.ranges[r].run = true →
        touches s r e = false)
      ∧ t.cred.pendingSet = [] ∧ t.watch.decay = none

/-- R2, R96: the extents of the defined ranges do not overlap. Reset has them so, and every command but a cold start keeps
them so; a cold start takes them from the store's records, and a damaged record that would overlap does not stand (R1). (A
cold start that is cut short leaves the records to the next one.) -/
def Obligations.RangesStayApart : Prop :=
  RangesApart State.reset.copies ∧ ∀ s t : State, step s = .next t →
    ((∀ d l k, s.pending.head? ≠ some (.coldStart d l k)) → RangesApart s.copies → RangesApart t.copies)
    ∧ ((∃ d l, s.pending.head? = some (.coldStart d l none)) → RangesApart s.store.nv → RangesApart t.copies)

/-- The part right after reset is a factory part (R88) after its first cold start (R187, R188), and it meets the
invariants. Which part it is (capacity, identity) is the model's choice, entry 3 of the log. -/
def Obligations.ResetIsTheFirstColdStart : Prop :=
  (AttentionOk State.reset ∧ BoundsOk State.reset ∧ CountsOk State.reset ∧ HoldListOk State.reset
    ∧ StoreOk State.reset ∧ SlotsOk State.reset)
  ∧ (exec (.coldStart [] 0 none) { State.reset with store := { State.reset.store with nv := Records.factoryImage } }
      = .next State.reset)

/-! ## Frames and messages -/

/-- Reading back the bytes of a well-formed frame or platform message gives it: no field of 11.1 or 11.2 is dropped or
moved. Every request kind has its layout. R174, R191: a SEC_REQUEST too short for an identifier and a kind is the Command
Processor's to answer BAD_FORMAT (entry 31 of the log). -/
def Obligations.FramesAndMessagesReadBack : Prop :=
  (∀ c : Instr, c.wellFormed = true →
    (∀ l, commandFrame c = some l → parseFrame l = some c)
      ∧ (∀ l, commandMessage c = some l → parseMessage l = some c)
      ∧ ((requestCode c).isSome = true → badKind c = false → (commandFrame c).isSome = true))
  ∧ ∀ l : List Byte, l.length < 3 → ∃ id kind, parseFrame (withHeader 0x30 l) = some (.secRequestBadKind id kind)

/-! ## Transfers -/

/-- R33, R34: the walk cuts a descriptor into ascending pieces that cover it exactly; every LBA of a piece lies in the
piece's range, and on the piece's side of that range's frontier. -/
def Obligations.WalkCoversTheDescriptor : Prop :=
  ∀ (s : State) (e : Extent), extentEnd e ≤ s.copies.factory.capacity → RangesApart s.copies →
    (∀ x, extentHas e x = true → ∃ q ∈ rangeWalk s e, extentHas q.extent x = true)
    ∧ (∀ q ∈ rangeWalk s e, ∀ x, extentHas q.extent x = true →
        extentHas e x = true ∧ rangeAt s.copies x = q.range
          ∧ (q.below = true ↔ ∃ f, rekeyView s = some (q.range, f) ∧ x < f))
    ∧ (rangeWalk s e).Pairwise fun a b => extentEnd a.extent ≤ b.extent.start

/-- R31, R32, R36 to R38: the checks before the walk, in their order, and then the range of the first segment that fails,
which the refusal names: LOCKED where it is LOCKED or CLOSING, ERASED for any class but READ, READ_ONLY for WRITE alone.
Each refusal changes nothing. -/
def Obligations.XferOpenRefusedInOrder : Prop :=
  ∀ (tag : Fin 32) (cls : XferClass) (start count order : Nat) (s : State), LinkTakes s →
    let refused : Code → Option (Fin 16) → Prop := fun c r =>
      exec (.xferOpen tag cls start count order) s = .next (sent (.xferRefuse tag c r) s)
    let w := s.copies.watch.state
    let badOrder := (cls = .migrateRead ∨ cls = .migrateWrite) ∧ ∀ o, s.rekey.order = some o →
      o.num ≠ order ∨ start < o.window.start ∨ o.window.start + o.window.len < start + count
    (w = .erasing ∨ (w = .erased ∧ cls ≠ .read) → refused .erasing none)
    ∧ (w ≠ .erasing → (w = .erased → cls = .read) →
      (s.adm.table[tag] ≠ .free → refused .tagBusy none)
      ∧ (s.adm.table[tag] = .free →
        (count = 0 ∨ 1024 < count → refused .badCount none)
        ∧ (1 ≤ count → count ≤ 1024 →
          (s.copies.factory.capacity < start + count → refused .outOfRange none)
          ∧ (start + count ≤ s.copies.factory.capacity →
            (badOrder → refused .badOrder none)
            ∧ ∀ l q rest, ¬badOrder → w ≠ .erased → rangeWalk s ⟨start, count⟩ = l ++ q :: rest →
              (∀ p ∈ l, (∃ h, s.ranges[p.range].run = .opened h ∧ (cls = .write → h.level = .readWrite))
                ∨ s.ranges[p.range].run = .erased ∧ cls = .read) →
              (s.ranges[q.range].run = .locked → refused .locked (some q.range))
              ∧ (∀ h d ws, s.ranges[q.range].run = .closing h d ws → refused .locked (some q.range))
              ∧ (s.ranges[q.range].run = .erased → cls ≠ .read → refused .erased (some q.range))
              ∧ (∀ h, s.ranges[q.range].run = .opened h → h.level = .readOnly → cls = .write →
                refused .readOnly (some q.range))))))

/-- R33, R34, R36 to R40: a descriptor whose pieces all pass is ADMITTED with one segment for each, in order, whose slot
and treatment those rules give: with the watch ERASED all are PAD. Each distinct slot that they name takes one pin, and
XFER_ADMIT is sent. R39: a READ or WRITE that overlaps the fence is held at the tail of the hold list, or refused FENCED
by a full one. -/
def Obligations.XferOpenAdmitsOrHolds : Prop :=
  ∀ (tag : Fin 32) (cls : XferClass) (start count order : Nat) (s : State), LinkTakes s →
    let e : Extent := ⟨start, count⟩
    let pieces := rangeWalk s e
    openCheck tag cls e s = none → orderCheck cls e order s = none → (∀ q ∈ pieces, Passes s cls q) →
    let touchesFence := (cls = .read ∨ cls = .write) ∧ ∃ w, s.rekey.fence = some w ∧ extentsOverlap e w = true
    (¬touchesFence → Next (exec (.xferOpen tag cls start count order) s) fun t =>
      ∃ segs : List Segment, segs.length = pieces.length ∧ (∀ p ∈ pieces.zip segs, SegmentOf s cls p.1 p.2)
        ∧ t = { s with
          adm := { s.adm with table := s.adm.table.set tag (.admitted
            ⟨cls, e, if cls = .read ∨ cls = .write then none else some order, segs, 0, 0, 0, false⟩) }
          drive := { s.drive with outbox := s.drive.outbox ++ [.xferAdmit tag] }
          slots := t.slots }
        ∧ ∀ k : Fin 18, t.slots[k] =
            if (segs.any fun g => decide (g.treatment = .cipher k)) = true then pinnedSlot s.slots[k] else s.slots[k])
    ∧ (touchesFence →
      (s.adm.hold.length < 8 → exec (.xferOpen tag cls start count order) s = .next (sent (.xferHeld tag)
        { s with adm := { s.adm with table := s.adm.table.set tag (.held cls e), hold := s.adm.hold ++ [tag] } }))
      ∧ (8 ≤ s.adm.hold.length → exec (.xferOpen tag cls start count order) s
        = .next (sent (.xferRefuse tag .fenced none) s)))

/-- R42 to R44: the unit at the head of the buffer, in its order and not the last, is answered by its segment: a CIPHER
segment with the pinned slot's key under the range's salt and the unit's LBA, a PAD segment with a pad. R41, R172: a unit
that arrives joins the buffer for an ADMITTED or ABORTING entry and is discarded for any other; with the buffer full it is
not taken yet. -/
def Obligations.UnitsJoinAndAreAnswered : Prop :=
  (∀ (u : BufUnit) (rest : List BufUnit) (x : Xfer) (g : Segment) (s : State), Between s → s.drive.up = true →
      s.drive.inbound = [] → s.drive.units = u :: rest → s.adm.table[u.tag] = .admitted x → u.index = x.next →
      u.index + 1 < x.extent.len → segmentOf x u.index = some g →
      let after : Xfer → State := fun y => { s with
        adm := { s.adm with table := s.adm.table.set u.tag (.admitted y) }
        drive := { s.drive with units := rest } }
      (g.treatment = .pad → exec .cipherUnitTake s = .next (sent (.xferUnit u.tag true u.index 0)
        (after { x with next := x.next + 1, answered := x.answered + 1, padded := true })))
      ∧ (∀ k key, g.treatment = .cipher k → slotKey s.slots[k] = some key →
        exec .cipherUnitTake s = .next (sent (.xferUnit u.tag false u.index
            (Config.cipher key (Config.saltBits s.copies.ranges[g.range].salt) (x.extent.start + u.index)
              (decide (x.cls = .write ∨ x.cls = .migrateWrite)) u.payload))
          (after { x with next := x.next + 1, answered := x.answered + 1, ciphered := x.ciphered + 1 }))))
  ∧ (∀ (tag : Fin 32) (index : Nat) (payload : UnitData) (s : State), LinkTakes s →
      let c : Instr := .xferUnit tag index payload
      let joined : State := { s with drive := { s.drive with units := s.drive.units ++ [⟨tag, index, payload⟩] } }
      (8 ≤ s.drive.units.length → exec c s = .next { s with drive := { s.drive with inbound := [c] } })
      ∧ (s.drive.units.length < 8 →
        (∀ x, s.adm.table[tag] = .admitted x → exec c s = .next joined)
        ∧ (∀ x, s.adm.table[tag] = .aborting x → exec c s = .next joined)
        ∧ (∀ k e, s.adm.table[tag] = .held k e → exec c s = .next s)
        ∧ (s.adm.table[tag] = .free → exec c s = .next s)))

/-- R42, R45 to R48, R52: an empty buffer gives nothing; a unit out of its order ends the entry SEQUENCE_ERROR; the last
unit ends it DONE_PADDED where it or an earlier one was padded, else DONE; each end releases the entry's pins. An ABORTING
entry answers with pads and ends ABORTED at its last unit. R172: the frames held back behind a stalled unit are then taken
in order, as far as the room that the unit taken has made lets them. -/
def Obligations.UnitTakenEndsTransfers : Prop :=
  (∀ s m : State, Between s → s.phase = .running → (∀ c ∈ s.drive.inbound, IsFrame c) →
    exec .cipherUnitTake { s with drive := { s.drive with inbound := [] } } = .next m →
    Next (exec .cipherUnitTake s) (TakenInOrder s.drive.inbound m))
  ∧ ∀ s : State, Between s → s.drive.up = true → s.drive.inbound = [] →
    (s.drive.units = [] → exec .cipherUnitTake s = .next s)
    ∧ ∀ (u : BufUnit) (rest : List BufUnit) (x : Xfer), s.drive.units = u :: rest →
      let ends : List OutFrame → Prop := fun l => Next (exec .cipherUnitTake s) fun t =>
        t.adm.table[u.tag] = .free ∧ (∀ g : Fin 32, g ≠ u.tag → t.adm.table[g] = s.adm.table[g])
          ∧ t.drive.units = rest.filter (fun v => decide (v.tag ≠ u.tag))
          ∧ s.drive.outbox ++ l <+: t.drive.outbox
          ∧ (∀ k : Fin 18, slotPins t.slots[k] = slotPins s.slots[k] - if k ∈ slotsNamed x.segs then 1 else 0)
          ∧ ((∀ r ∈ rangesNamed x.segs, ∀ h d ws, s.ranges[r].run ≠ .closing h d ws) → t.ranges = s.ranges
            ∧ ∀ k : Fin 18, t.slots[k] = if k ∈ slotsNamed x.segs then unpinnedSlot s.slots[k] else s.slots[k])
      (s.adm.table[u.tag] = .admitted x → u.index ≠ x.next →
        ends [.xferEnd u.tag .sequenceError x.answered x.ciphered])
      ∧ (∀ g, s.adm.table[u.tag] = .admitted x → u.index = x.next → x.extent.len = x.next + 1 →
        segmentOf x u.index = some g →
        (g.treatment = .pad → ends [.xferUnit u.tag true u.index 0,
          .xferEnd u.tag .donePadded (x.answered + 1) x.ciphered])
        ∧ ∀ k key, g.treatment = .cipher k → slotKey s.slots[k] = some key →
          ends [.xferUnit u.tag false u.index
              (Config.cipher key (Config.saltBits s.copies.ranges[g.range].salt) (x.extent.start + u.index)
                (decide (x.cls = .write ∨ x.cls = .migrateWrite)) u.payload),
            .xferEnd u.tag (if x.padded = true then .donePadded else .done) (x.answered + 1) (x.ciphered + 1)])
      ∧ (s.adm.table[u.tag] = .aborting x →
        (u.index + 1 < x.extent.len → exec .cipherUnitTake s = .next (sent (.xferUnit u.tag true u.index 0) { s with
          adm := { s.adm with table := s.adm.table.set u.tag (.aborting { x with answered := x.answered + 1 }) }
          drive := { s.drive with units := rest } }))
        ∧ (x.extent.len ≤ u.index + 1 → exec .cipherUnitTake s = .next
          (sent (.xferEnd u.tag .aborted (x.answered + 1) x.ciphered) (sent (.xferUnit u.tag true u.index 0) { s with
            adm := { s.adm with table := s.adm.table.set u.tag .free }
            drive := { s.drive with units := rest.filter fun v => decide (v.tag ≠ u.tag) } }))))

/-- R50: what XFER_STOP does with the entry of its tag. Units of the tag leave the buffer, and pins are released (R52).
With no segment in a CLOSING range nothing more happens but that a WRITE's departure may send a migration order (R115);
with one, the CLOSING ranges that are then drained complete their closes (R22). -/
def Obligations.XferStopEndsTheTag : Prop :=
  ∀ (tag : Fin 32) (s : State), LinkTakes s →
    let freed : State := { s with
      adm := { s.adm with table := s.adm.table.set tag .free }
      drive := { s.drive with units := s.drive.units.filter fun u => decide (u.tag ≠ tag) } }
    (∀ x, s.adm.table[tag] = .admitted x → Next (exec (.xferStop tag) s) fun t =>
      t.adm.table[tag] = .free
        ∧ t.drive.units = s.drive.units.filter (fun u => decide (u.tag ≠ tag))
        ∧ s.drive.outbox ++ [.xferEnd tag .stopped x.answered x.ciphered] <+: t.drive.outbox
        ∧ (∀ k : Fin 18, slotPins t.slots[k] = slotPins s.slots[k] - if k ∈ slotsNamed x.segs then 1 else 0)
        ∧ (∀ r : Fin 16, t.ranges[r] = match s.ranges[r].run with
          | .closing _ _ _ => if r ∈ rangesNamed x.segs ∧ drained r freed = true then
              { s.ranges[r] with run := .locked } else s.ranges[r]
          | _ => s.ranges[r])
        ∧ t.adm = freed.adm ∧ t.copies = { s.copies with rekey := t.copies.rekey } ∧ t.watch = s.watch ∧ t.cred = s.cred
        ∧ t.erase = s.erase ∧ t.derive = s.derive ∧ t.draws = s.draws
        ∧ ((∀ r ∈ rangesNamed x.segs, ∀ h d ws, s.ranges[r].run ≠ .closing h d ws) →
          (∀ k : Fin 18, t.slots[k] = if k ∈ slotsNamed x.segs then unpinnedSlot s.slots[k] else s.slots[k])
          ∧ t = { freed with
              slots := t.slots, rekey := t.rekey, drive := { freed.drive with outbox := t.drive.outbox } }
          ∧ (x.cls ≠ .write → t = { sent (.xferEnd tag .stopped x.answered x.ciphered) freed with slots := t.slots })))
    ∧ (∀ x, s.adm.table[tag] = .aborting x →
      exec (.xferStop tag) s = .next (sent (.xferEnd tag .stopped x.answered x.ciphered) freed))
    ∧ (∀ c e, s.adm.table[tag] = .held c e → exec (.xferStop tag) s = .next (sent (.xferRefuse tag .stopped none)
      { s with adm := { s.adm with
        table := s.adm.table.set tag .free, hold := s.adm.hold.filter fun u => u != tag } }))
    ∧ (s.adm.table[tag] = .free → exec (.xferStop tag) s = .next s)

/-! ## The drive link -/

/-- R171, R172: before start-up has ended a frame is discarded; behind a frame not taken yet it waits; while the link is
DOWN it is discarded, unless it is LINK_HELLO. R191: a malformed frame is answered LINK_ERROR with its kind. R171:
LINK_HELLO brings a DOWN link UP and sends LINK_READY with the capacity, the identity and the boot count. On an UP link it
is a reset first. R124, R114: a RUNNING record on an OPEN range then has its window chosen, and its order goes if no
ADMITTED WRITE overlaps it. R167, R163: a scrub issues orders of 120 s up to four. With no rekey and no scrub under way
nothing more happens. That a malformed XFER_UNIT does not wait for the unit input buffer is entry 56 of the log; the empty
window of a rekey whose frontier is at its end is entry 52. -/
def Obligations.FramesTakenByTheLink : Prop :=
  ((∀ (kind : Byte) (s : State), LinkTakes s → exec (.malformedFrame kind) s = .next (sent (.linkError kind) s)) ∧
    ∀ (c : Instr) (s : State), (commandFrame c).isSome = true → Between s →
      (s.phase ≠ .running → exec c s = .next s)
      ∧ (s.phase = .running → s.drive.inbound ≠ [] →
        exec c s = .next { s with drive := { s.drive with inbound := s.drive.inbound ++ [c] } })
      ∧ (s.phase = .running → s.drive.inbound = [] → s.drive.up = false → c ≠ .linkHello → exec c s = .next s))
  ∧ (∀ s : State, Between s → s.phase = .running → s.drive.inbound = [] →
      let hello : State := sent (.linkReady s.copies.factory.capacity s.copies.factory.identity s.copies.boot)
        { s with drive := { s.drive with up := true } }
      (s.drive.up = true → ∃ u, exec .linkResetIndication s = .next u ∧ exec .linkHello s = exec .linkHello u)
      ∧ (s.drive.up = false →
        (s.copies.rekey = none → scrubFrontier s = none → exec .linkHello s = .next hello)
        ∧ (∀ k, s.copies.rekey = some k → scrubFrontier s = none →
          (k.state ≠ .running ∨ isOpen s.ranges[k.range].run = false → exec .linkHello s = .next hello)
          ∧ (k.state = .running → isOpen s.ranges[k.range].run = true → s.rekey.order = none →
            s.rekey.intended = none → s.rekey.completing = false → s.store.waits = [] →
            let w : Extent := ⟨k.frontier, min 256 (pieceStop s.copies k.range k.frontier - k.frontier)⟩
            ((∃ (g : Fin 32) (x : Xfer), s.adm.table[g] = .admitted x ∧ x.cls = .write
                ∧ extentsOverlap x.extent w = true) →
              exec .linkHello s = .next { hello with rekey := { s.rekey with fence := some w, intended := some w } })
            ∧ ((∀ (g : Fin 32) (x : Xfer), s.adm.table[g] = .admitted x → x.cls = .write →
                extentsOverlap x.extent w = false) →
              exec .linkHello s = .next (sent (.migrate s.rekey.counter w) { hello with rekey := { s.rekey with
                fence := some w
                order := some ⟨s.rekey.counter, w, 30⟩
                counter := if s.rekey.counter = 65535 then 1 else s.rekey.counter + 1 } }))))
        ∧ ∀ f, s.copies.rekey = none → scrubFrontier s = some f → Next (exec .linkHello s) fun t =>
          t = { hello with
            drive := { hello.drive with outbox := t.drive.outbox }
            rekey := { s.rekey with counter := t.rekey.counter }
            erase := { s.erase with orders := t.erase.orders } }
          ∧ hello.drive.outbox <+: t.drive.outbox ∧ s.erase.orders <+: t.erase.orders
          ∧ (∀ o ∈ t.erase.orders, o ∈ s.erase.orders ∨ o.deadline = 120 ∧ o.chunk < s.copies.factory.capacity
            ∧ f ≤ o.chunk ∧ o.chunk ∉ s.erase.done ∧ .scrub o.num ⟨o.chunk, 2048⟩ ∈ t.drive.outbox)
          ∧ (t.erase.orders.length < 4 → eligibleChunk f t = none)))

/-- R57, R124, R167, R173: a link-reset indication ends every transfer without a frame, empties the buffers and the list,
makes the engines forget their orders, and marks the request in progress as lost. R28: the CLOSING ranges, now drained,
are LOCKED, and no slot keeps a pin or is DRAINING. R173, R176: each answer dropped from the outbound frames gives a
COMMAND_LOST, whatever its result (entry 29 of the log), in the order of their frames (the model's choice, entry 74), and so
does a LOCK whose close the reset completes and that owes no
write from before; one that owes such a write waits for it, the model's choice (entry 73). The frames
that waited behind a stalled unit are then taken: with the link DOWN only a LINK_HELLO among them has an effect (entry 34
of the log). A DOWN link gives nothing. -/
def Obligations.LinkResetIndicationEndsTransfers : Prop :=
  ∀ s : State, Between s →
    let emptied : State := { s with drive := { s.drive with inbound := [] } }
    (s.drive.up = false → exec .linkResetIndication s = .next s)
    ∧ (s.drive.up = true → .linkHello ∉ s.drive.inbound →
      exec .linkResetIndication s = exec .linkResetIndication emptied)
    ∧ (s.drive.up = true → s.phase = .running → ∀ l, .linkHello ∉ l → s.drive.inbound = l ++ [.linkHello] →
      ∃ u, exec .linkResetIndication emptied = .next u ∧ exec .linkResetIndication s = exec .linkHello u)
    ∧ (s.drive.up = true → s.drive.inbound = [] → Next (exec .linkResetIndication s) fun t =>
      t.drive = { s.drive with up := false, units := [], outbox := [] }
      ∧ t.adm = { table := Vector.replicate 32 .free, hold := [] }
      ∧ t.rekey.order = none ∧ t.rekey.intended = none ∧ t.rekey.fence = none ∧ t.erase.orders = []
      ∧ (∀ j, t.cmd.sec = some j → j.lost = true)
      ∧ t.copies = { s.copies with rekey := t.copies.rekey } ∧ t.derive = s.derive ∧ t.watch = s.watch
      ∧ (∀ r : Fin 16, t.ranges[r] = match s.ranges[r].run with
        | .closing _ _ _ => { s.ranges[r] with run := .locked }
        | _ => s.ranges[r])
      ∧ (SlotsOk s → ∀ k : Fin 18, slotPins t.slots[k] = 0 ∧ ∀ r key n, t.slots[k] ≠ .draining r key n)
      ∧ ((∀ (r : Fin 16) h d ws, s.ranges[r].run ≠ .closing h d ws) →
        t.cmd.secQueue = withNotices (lostAnswers s.drive.outbox) s)
      ∧ ∀ j, s.cmd.sec = some j →
        (j.phase ≠ .closing → t.cmd.sec = some { j with lost := true })
        ∧ (j.phase = .closing → j.writes = [] → j.awaitsErase = false → awaited .security s = true →
          t.cmd.sec = none ∧ ∃ e ∈ t.cmd.secQueue, e.notice = .commandLost (answerKind j.req) .ok))

/-! ## The rekey and the scrub -/

/-- R116 to R118: an ORDER_DONE that no outstanding order's number matches is discarded. An OK for the migration order
moves the frontier past its window, with REKEY_HALF where it passes half of the range (R117); a FAILED retries, and at the
retry limit makes the record FAULTED and queues REKEY_FAULT. The migration deadline, at 0, completes the outstanding order
as FAILED. With seconds left the expiry is no event (entry 4 of the log). R110, R115: the order of an intended window goes
when no ADMITTED WRITE overlaps it, with the counter's number and 30 s to run; the counter wraps from 65535 to 1. -/
def Obligations.MigrationOrdersComplete : Prop :=
  (∀ s : State, Between s →
    (s.rekey.order = none → exec .migrationOrderDeadlineExpiry s = .next s)
    ∧ (∀ o, s.rekey.order = some o → o.deadline ≠ 0 → exec .migrationOrderDeadlineExpiry s = .next s)
    ∧ ∀ o k, s.rekey.order = some o → o.deadline = 0 → s.copies.rekey = some k →
      (k.retry < s.copies.policy.retryLimit → Next (exec .migrationOrderDeadlineExpiry s) fun t =>
        t.copies = { s.copies with rekey := some { k with retry := k.retry + 1 } }
        ∧ t.rekey = { s.rekey with order := none, completing := true }
        ∧ t = { s with copies := t.copies, rekey := t.rekey, store := t.store })
      ∧ (s.copies.policy.retryLimit ≤ k.retry → Next (exec .migrationOrderDeadlineExpiry s) fun t =>
        t.copies = { s.copies with rekey := some { k with state := .faulted } }
        ∧ t.cmd.secQueue = joinQueue 32 ⟨.rekeyFault k.range, false, s.cmd.seq⟩ s.cmd.secQueue
        ∧ t = { s with
            copies := t.copies
            rekey := { s.rekey with order := none, completing := true }
            store := t.store
            cmd := t.cmd }))
  ∧ (∀ (num : Nat) (s : State), LinkTakes s →
    (∀ ok, (∀ o, s.rekey.order = some o → o.num ≠ num) → (∀ o ∈ s.erase.orders, o.num ≠ num) →
      exec (.orderDone num ok) s = .next s)
    ∧ ∀ o k, s.rekey.order = some o → o.num = num → s.copies.rekey = some k →
      (restFrontier s.copies k.range (extentEnd o.window) ≠ rangeEnd s.copies k.range →
        Next (exec (.orderDone num true) s) fun t =>
          t.copies = { s.copies with rekey := some { k with
            frontier := restFrontier s.copies k.range (extentEnd o.window), retry := 0 } }
          ∧ t.rekey = { s.rekey with order := none, seen := some (k.range, k.frontier), completing := true }
          ∧ t.cmd.secQueue = halfNoticed k (restFrontier s.copies k.range (extentEnd o.window)) s
          ∧ t = { s with copies := t.copies, rekey := t.rekey, store := t.store, cmd := t.cmd })
      ∧ (k.retry < s.copies.policy.retryLimit → Next (exec (.orderDone num false) s) fun t =>
          t.copies = { s.copies with rekey := some { k with retry := k.retry + 1 } }
          ∧ t.rekey = { s.rekey with order := none, completing := true }
          ∧ t = { s with copies := t.copies, rekey := t.rekey, store := t.store })
      ∧ (s.copies.policy.retryLimit ≤ k.retry → Next (exec (.orderDone num false) s) fun t =>
          t.copies = { s.copies with rekey := some { k with state := .faulted } }
          ∧ t.cmd.secQueue = joinQueue 32 ⟨.rekeyFault k.range, false, s.cmd.seq⟩ s.cmd.secQueue
          ∧ t.rekey = { s.rekey with order := none, completing := true }
          ∧ t = { s with copies := t.copies, rekey := t.rekey, store := t.store, cmd := t.cmd }))
  ∧ ∀ s : State, Between s →
    (s.rekey.intended = none → exec .migrateOrderSend s = .next s)
    ∧ ∀ w, s.rekey.intended = some w →
      ((∃ t x, s.adm.table[(t : Fin 32)] = .admitted x ∧ x.cls = .write ∧ extentsOverlap x.extent w = true) →
        exec .migrateOrderSend s = .next s)
      ∧ (s.drive.up = true →
        (∀ (t : Fin 32) x, s.adm.table[t] = .admitted x → x.cls = .write → extentsOverlap x.extent w = false) →
        exec .migrateOrderSend s = .next (sent (.migrate s.rekey.counter w) { s with rekey := { s.rekey with
          order := some ⟨s.rekey.counter, w, 30⟩
          intended := none
          counter := if s.rekey.counter = 65535 then 1 else s.rekey.counter + 1 } }))

/-- R114, R119, R120, R53, R54: the end of a rekey and the closing steps. An OK that brings the frontier to the range's
end gives the range its next key and generation and removes the record, the range record being stored first. When both are
written the range takes its NEXT slot, the old one is retired, and REKEY_DONE is queued. The closing steps clear the fence
and release the hold list, oldest first: each held descriptor is walked again in the state the older ones left, and
admitted with its pins or refused. Then, and wherever R114 lets it, the window at the frontier is chosen, the fence is set
on it, and its order goes if no ADMITTED WRITE overlaps it. R117: REKEY_HALF is queued where the frontier passes half of
the range. The empty window of a rekey whose frontier is at its end is entry 52 of the log. -/
def Obligations.RekeyEndsAndReleases : Prop :=
  (∀ (num : Nat) (o : MigOrder) (k : RekeyRec) (s : State), LinkTakes s → s.rekey.order = some o → o.num = num →
    s.copies.rekey = some k → restFrontier s.copies k.range (extentEnd o.window) = rangeEnd s.copies k.range →
    let r := k.range
    let ended : RangeRec := { s.copies.ranges[r] with
      current := s.copies.ranges[r].next, next := none, generation := k.nextGeneration }
    Next (exec (.orderDone num true) s) fun t =>
      t.copies = { s.copies with ranges := s.copies.ranges.set r ended, rekey := none }
      ∧ t.rekey = { s.rekey with order := none, seen := some (r, k.frontier), completing := true }
      ∧ [RecWrite.range r ended, RecWrite.rekey none].Sublist
          ((t.store.active.toList ++ t.store.queue).map PendingWrite.what)
      ∧ t.ranges = s.ranges ∧ t.slots = s.slots
      ∧ t.cmd.secQueue = halfNoticed k (restFrontier s.copies r (extentEnd o.window)) s)
  ∧ (∀ (r : Fin 16) (h : Held) (n : Fin 18) (s : State), CompletesTo (.rekeyEnded r) s → s.copies.rekey = none →
    HoldListOk s → s.ranges[r].run = .opened h → h.next = some n → Next (exec .storeWriteComplete s) fun t =>
      let ended : State := { s with
        ranges := s.ranges.set r { s.ranges[r] with run := .opened { h with current := n, next := none } }
        slots := s.slots.set h.current (retiredSlot s.slots[h.current])
        rekey := { s.rekey with fence := none, seen := none, completing := false } }
      t.ranges = ended.ranges ∧ t.rekey = ended.rekey ∧ t.copies = s.copies ∧ ReleasedFrom s.adm.hold ended t
      ∧ t.cmd.secQueue = joinQueue 32 ⟨.rekeyDone r, false, s.cmd.seq⟩ s.cmd.secQueue
      ∧ (s.adm.hold = [] → t.slots = ended.slots ∧ t.adm = s.adm))
  ∧ (∀ s : State, CompletesTo .rekeyClosing s → HoldListOk s → Next (exec .storeWriteComplete s) fun t =>
      let cleared : State := { s with rekey := { s.rekey with fence := none, seen := none, completing := false } }
      ReleasedFrom s.adm.hold cleared t ∧ t.ranges = s.ranges ∧ t.copies = s.copies
      ∧ (s.copies.rekey = none → t.rekey = cleared.rekey) ∧ (s.adm.hold = [] → t.slots = s.slots ∧ t.adm = s.adm))
  ∧ ∀ (k : RekeyRec) (s : State), CompletesTo .rekeyClosing s → HoldListOk s → s.copies.rekey = some k →
    s.rekey.order = none → s.rekey.intended = none → s.drive.up = true →
    let chosen := k.state = .running ∧ isOpen s.ranges[k.range].run = true
    Next (exec .storeWriteComplete s) fun t =>
      t.adm.hold = [] ∧ t.rekey.seen = none ∧ t.rekey.completing = false ∧ t.copies = s.copies
      ∧ (¬chosen → t.rekey.fence = none ∧ t.rekey.intended = none ∧ t.rekey.order = none)
      ∧ (chosen → WindowChosen k { s with adm := t.adm } t)

/-- R163 to R166: a scrub order that completes OK marks its chunk done; the frontier passes every chunk marked done, to
C/2, where SCRUB_HALF waits for the journal, and to C, where step 5 does. An order that completes FAILED, by ORDER_DONE or
by its deadline at 0, raises its chunk's retry count; at the limit the chunk joins the skip list, once (entry 53 of the
log), and is done; with a full skip list the scrub is abandoned and the watch enters ERASED. Then orders of 120 s are
issued up to four, each for the lowest chunk at or above the frontier that is neither done nor named. With seconds left an
expiry is no event (entry 4 of the log). -/
def Obligations.ScrubOrdersComplete : Prop :=
  (∀ (num : Nat) (s : State), Between s →
    ((∀ o ∈ s.erase.orders, o.num ≠ num) → exec (.scrubOrderDeadlineExpiry num) s = .next s)
    ∧ ∀ o, scrubOrder num s = some o → o.deadline ≠ 0 → exec (.scrubOrderDeadlineExpiry num) s = .next s)
  ∧ ∀ (num : Nat) (c : Instr) (ok : Bool) (o : ScrubOrder) (j : Journal) (s : State), LinkTakes s →
    scrubOrder num s = some o → s.copies.journal = some j →
    (c = .scrubOrderDeadlineExpiry num ∧ ok = false ∧ o.deadline = 0
      ∨ c = .orderDone num ok ∧ ∀ m, s.rekey.order = some m → m.num ≠ num) →
    let n := retryCount o.chunk s.erase.retries
    let f := passDone (s.erase.done ++ [o.chunk]) (s.erase.done ++ [o.chunk]).length j.frontier
    let C := s.copies.factory.capacity
    let done : State → Prop := fun t =>
      retryCount o.chunk t.erase.retries = 0 ∧ (o.chunk ∈ t.erase.done ∨ o.chunk < f)
      ∧ (j.frontier < C → C ≤ f → ∃ ids, ⟨ids, .scrubEnd .complete⟩ ∈ t.store.waits)
      ∧ (2 * j.frontier < C → C ≤ 2 * f → ∃ ids, ⟨ids, .scrubHalf⟩ ∈ t.store.waits)
    let issued : State → Prop := fun t =>
      (∀ p ∈ t.erase.orders, p ∈ s.erase.orders ∧ p.num ≠ num
        ∨ p.deadline = 120 ∧ p.chunk < C ∧ p.chunk ∉ t.erase.done
          ∧ ∃ i k, t.copies.journal = some k ∧ p.chunk = k.frontier + 2048 * i)
      ∧ ∀ k, t.copies.journal = some k → k.step = 4 → t.erase.stopping = false → t.erase.orders.length < 4 →
        eligibleChunk k.frontier t = none
    (ok = true → Next (exec c s) fun t =>
      t.copies = { s.copies with journal := some { j with frontier := f } } ∧ done t ∧ issued t)
    ∧ (ok = false → n < s.copies.policy.retryLimit → Next (exec c s) fun t =>
      retryCount o.chunk t.erase.retries = n + 1
      ∧ (∀ d, d ≠ o.chunk → retryCount d t.erase.retries = retryCount d s.erase.retries)
      ∧ t.copies = s.copies ∧ t.store = s.store ∧ t.ranges = s.ranges ∧ t.adm = s.adm ∧ t.cmd = s.cmd ∧ issued t)
    ∧ (ok = false → s.copies.policy.retryLimit ≤ n → j.skip.length < 16 → Next (exec c s) fun t =>
      t.copies = { s.copies with journal := some { j with
        skip := if ⟨o.chunk, 2048⟩ ∈ j.skip then j.skip else j.skip ++ [⟨o.chunk, 2048⟩], frontier := f } }
      ∧ done t ∧ issued t)
    ∧ (ok = false → s.copies.policy.retryLimit ≤ n → 16 ≤ j.skip.length → unwrittenOf .eraseEngine s = [] →
      Next (exec c s) fun t =>
        t.copies.journal = some { j with step := 5, result := some .scrubAbandoned }
        ∧ t.copies.watch.state = .erased ∧ t.erase.orders = [])

/-- R157 to R163, R168: an erase goes from step to step as its writes complete, here with no request in progress on either
channel but the one that started it. Step 0: the watch enters ERASING. Step 1: held descriptors are refused, ADMITTED ones
cut, the rekey and its fence discarded. Step 2: no range is OPEN or CLOSING and every slot is EMPTY. Step 3: no wrap entry
is left, and every defined range is ERASED with a fresh salt, the next generation and no sealed key. Step 4: with the link
UP the scrub's orders go, up to four, for the chunks from the frontier on; or with scrub off step 5. Step 5: the result,
and the watch is ERASED. Each step is in the journal, in an incident and in a notice on both channels. R158, R139: once
step 0 is written an ERASE_ALL still waits for the writes of the watch's entry to ERASING, and a REMOTE_ERASE is answered.
That the orders go in the event that reaches step 4 is entry 22 of the log; which answers wait is entry 16; how fresh
salts are named is entry 6. -/
def Obligations.ErasesRunThroughTheirSteps : Prop :=
  ∀ (s : State) (j : Journal), s.copies.journal = some j →
    let incident : IncidentKind → List Incident → List Incident := fun k l =>
      joinIncident ⟨k, s.copies.boot, s.uptime, s.copies.watch.score⟩ l
    let noticed : Notice → State → Prop := fun n t =>
      t.cmd.secQueue = joinQueue 32 ⟨n, false, s.cmd.seq⟩ s.cmd.secQueue
        ∧ t.cmd.platQueue = joinQueue 16 ⟨n, false, s.cmd.seq + 1⟩ s.cmd.platQueue
    let reached : Nat → State → Prop := fun k t =>
      t.copies.journal = some { j with step := k }
        ∧ t.copies.incidents = incident (.eraseStep k) s.copies.incidents ∧ noticed (.eraseStep k) t
    let kept : State → Prop := fun t =>
      t.copies.creds = s.copies.creds ∧ t.copies.charged = s.copies.charged ∧ t.copies.policy = s.copies.policy
        ∧ t.copies.digest = s.copies.digest ∧ t.copies.token = s.copies.token ∧ t.deviceKey = s.deviceKey
    (CompletesTo .eraseEntered s → Next (exec .storeWriteComplete s) fun t =>
      t.copies = { s.copies with
        watch := { s.copies.watch with state := .erasing }
        incidents := incident (.eraseStep 0) (incident (.stateChange .erasing) s.copies.incidents) }
      ∧ t.cmd.secQueue = joinQueue 32 ⟨.eraseStep 0, false, s.cmd.seq + 2⟩
          (joinQueue 32 ⟨.watchState .erasing, false, s.cmd.seq⟩ s.cmd.secQueue)
      ∧ t.cmd.platQueue = joinQueue 16 ⟨.eraseStep 0, false, s.cmd.seq + 3⟩
          (joinQueue 16 ⟨.watchState .erasing, false, s.cmd.seq + 1⟩ s.cmd.platQueue)
      ∧ t.cred.pendingSet = [] ∧ t.watch.decay = none ∧ t.erase.starting = none ∧ AwaitsThen (.eraseNext 1) t)
    ∧ (∀ p, Between s → s.store.active = some p → s.store.waits = [⟨[p.id], .eraseEntered⟩] →
      (∀ req lost keys k b, s.cmd.sec = some ⟨req, lost, .answering k b, keys, [], true⟩ → s.cmd.plat = none →
        Next (exec .storeWriteComplete s) fun t => ∃ ids, ids ≠ []
          ∧ t.cmd.sec = some ⟨req, lost, .answering k b, keys, ids, false⟩ ∧ t.copies.watch.state = .erasing
          ∧ ∀ i ∈ ids, ∃ w ∈ t.store.active.toList ++ t.store.queue, w.id = i
            ∧ (w.what = .watch t.copies.watch ∨ w.what = .incidents t.copies.incidents))
      ∧ ∀ kind dropped k, s.cmd.plat = some ⟨kind, dropped, .answering k, [], true⟩ → s.cmd.sec = none →
        Next (exec .storeWriteComplete s) fun t => t.cmd.plat = none ∧ t.copies.watch.state = .erasing
          ∧ t.platform = { s.platform with buffer := if dropped = true then none else some (.answer kind k .empty) })
    ∧ (CompletesTo (.eraseNext 1) s → HoldListOk s → Next (exec .storeWriteComplete s) fun t =>
      reached 1 t ∧ kept t ∧ t.copies.wraps = s.copies.wraps ∧ t.copies.rekey = none
      ∧ t.rekey.order = none ∧ t.rekey.fence = none ∧ t.rekey.intended = none ∧ t.adm.hold = []
      ∧ (∀ g : Fin 32, t.adm.table[g] = match s.adm.table[g] with
        | .admitted x => .aborting x
        | .held _ _ => .free
        | e => e)
      ∧ t.copies.ranges = (match s.copies.rekey with
        | some k => s.copies.ranges.set k.range { s.copies.ranges[k.range] with next := none }
        | none => s.copies.ranges)
      ∧ (s.drive.up = true → ∀ g ∈ s.adm.hold, .xferRefuse g .erasing none ∈ t.drive.outbox)
      ∧ (SlotsOk s → ∀ k : Fin 18, slotPins t.slots[k] = 0) ∧ AwaitsThen (.eraseNext 2) t)
    ∧ (CompletesTo (.eraseNext 2) s → Next (exec .storeWriteComplete s) fun t =>
      reached 2 t ∧ kept t ∧ t.copies.wraps = s.copies.wraps ∧ t.copies.ranges = s.copies.ranges
      ∧ (∀ k : Fin 18, t.slots[k] = .empty)
      ∧ (∀ r : Fin 16, t.ranges[r] =
        if (heldBy s.ranges[r].run).isSome = true then { s.ranges[r] with run := .locked } else s.ranges[r])
      ∧ AwaitsThen (.eraseNext 3) t)
    ∧ (CompletesTo (.eraseNext 3) s → Next (exec .storeWriteComplete s) fun t =>
      reached 3 t ∧ kept t ∧ (∀ i : Fin 64, t.copies.wraps[i] = none)
      ∧ (∀ r : Fin 16, rangeDefined s.copies r = false →
        t.copies.ranges[r] = s.copies.ranges[r] ∧ t.ranges[r] = s.ranges[r])
      ∧ (∀ r : Fin 16, rangeDefined s.copies r = true → t.ranges[r] = { s.ranges[r] with run := .erased }
        ∧ ∃ n, s.draws ≤ n ∧ n < t.draws ∧ t.copies.ranges[r] = { s.copies.ranges[r] with
          current := none, next := none, generation := (s.copies.ranges[r].generation + 1) % 65536, salt := ⟨n⟩
          erased := true })
      ∧ AwaitsThen (.eraseNext 4) t)
    ∧ (CompletesTo (.eraseNext 4) s → s.copies.policy.scrubEnable = true → j.frontier < s.copies.factory.capacity →
      Next (exec .storeWriteComplete s) fun t =>
        reached 4 t ∧ kept t ∧ t.copies.ranges = s.copies.ranges ∧ t.copies.watch = s.copies.watch
        ∧ (∀ o ∈ t.erase.orders, o ∈ s.erase.orders ∨ o.deadline = 120 ∧ o.chunk < s.copies.factory.capacity
          ∧ j.frontier ≤ o.chunk ∧ .scrub o.num ⟨o.chunk, 2048⟩ ∈ t.drive.outbox)
        ∧ (s.drive.up = true → s.erase.stopping = false →
          4 ≤ t.erase.orders.length ∨ eligibleChunk j.frontier t = none)
        ∧ t.store.waits = [])
    ∧ ∀ w r, (CompletesTo (.scrubEnd r) s ∧ w = r
        ∨ CompletesTo (.eraseNext 4) s ∧ s.copies.policy.scrubEnable = false ∧ w = .scrubSkipped) →
      Next (exec .storeWriteComplete s) fun t =>
        kept t ∧ t.copies.journal = some { j with step := 5, result := some w }
        ∧ t.copies.watch = { s.copies.watch with state := .erased }
        ∧ t.copies.incidents = incident (.stateChange .erased) (incident (.eraseStep 5) s.copies.incidents)
        ∧ t.cmd.secQueue = joinQueue 32 ⟨.eraseDone w, false, s.cmd.seq + 4⟩
            (joinQueue 32 ⟨.watchState .erased, false, s.cmd.seq + 2⟩
              (joinQueue 32 ⟨.eraseStep 5, false, s.cmd.seq⟩ s.cmd.secQueue))
        ∧ t.cmd.platQueue = joinQueue 16 ⟨.eraseDone w, false, s.cmd.seq + 5⟩
            (joinQueue 16 ⟨.watchState .erased, false, s.cmd.seq + 3⟩
              (joinQueue 16 ⟨.eraseStep 5, false, s.cmd.seq + 1⟩ s.cmd.platQueue))
        ∧ t.erase.orders = [] ∧ t.ranges = s.ranges ∧ t.slots = s.slots

/-! ## The security channel -/

/-- R174, R175: while a request is in progress another is answered CHANNEL_BUSY; an unknown kind or a wrong length is
BAD_FORMAT; a request the watch state bars is NOT_NOW, before its own form is looked at (entry 20 of the log). R177, R192:
while the platform link is DOWN no message is taken; while one is in progress another is answered CHANNEL_BUSY; a
malformed one is answered BAD_FORMAT. Nothing else changes. -/
def Obligations.CommandsTurnedAwayAtTheChannels : Prop :=
  (∀ (c : Instr) (s : State), LinkTakes s → (requestCode c).isSome = true →
      let turned : Code → Prop := fun k =>
        exec c s = .next (sent (.secAnswer (requestId c) (answerKind c) k .empty) s)
      (s.cmd.sec.isSome = true → turned .channelBusy)
      ∧ (s.cmd.sec = none → (∃ id kind, c = .secRequestBadKind id kind) → turned .badFormat)
      ∧ (s.cmd.sec = none → (∀ id kind, c ≠ .secRequestBadKind id kind) →
        channelPasses c s.copies.watch.state = false → turned .notNow))
  ∧ (∀ (m : Instr) (kind : Byte) (s : State), messageCode m = some kind → Between s →
      (s.platform.up = false → exec m s = .next s)
      ∧ (s.platform.up = true → s.cmd.plat.isSome = true → exec m s = .next (answered kind .channelBusy .empty s))
      ∧ (MessageTaken s → m = .platformMalformedMessage kind ∨ (∃ l, m = .remoteErase l ∧ secretFits l = false)
          ∨ (∃ w, m = .platformSetMask w ∧ 1024 ≤ w.toNat) →
        exec m s = .next (answered kind .badFormat .empty s)))

/-- R175, R190: STATUS reports the part as it stands, field by field. R180, R181: FETCH_NOTICES gives the eight oldest
entries and how many stay, SET_ATTENTION_MASK replaces the mask and sets the line anew, or is refused BAD_VALUE with a bit
above 9. R172, R180: the oldest frame leaves; with the answer to a fetch the entries it delivers leave their queue, and
the line is set anew. The answers are made as the requests are taken (entry 30 of the log); the seconds of a stopped timer
are 0 (entry 55). -/
def Obligations.StatusFetchAndMaskAnswered : Prop :=
  (∀ (id : BitVec 16) (s : State), ChannelTakes s →
      (∃ b, exec (.status id) s = .next (sent (.secAnswer id 0x01 .ok (.status b)) s)
        ∧ b.watch = s.copies.watch ∧ b.decay = s.watch.decay.getD 0 ∧ b.levels = s.watch.levels
        ∧ b.holdDowns = s.watch.holdDowns.toList.map (·.getD 0) ∧ b.incidents = s.copies.incidents.length
        ∧ b.binding = s.watch.binding ∧ b.deadline = s.watch.deadline.getD 0 ∧ b.supervision = s.watch.supervision
        ∧ (s.watch.supervision = .armed → b.checkin = s.watch.checkin)
        ∧ (s.watch.supervision ≠ .armed → b.checkin = 0)
        ∧ b.sleep = s.watch.sleep ∧ b.pendingSet = s.cred.pendingSet
        ∧ b.ranges.length = 16 ∧ (∀ r : Fin 16, b.ranges[r.val]? = some ⟨rangeDefined s.copies r, s.ranges[r].run,
            s.copies.ranges[r].attributes, definedExtent s.copies r⟩)
        ∧ (let number : (Entry → Bool) → Nat := fun p => s.adm.table.toList.countP p
          b.free = number (fun x => decide (x = .free)) ∧ b.held = number (fun x => match x with
            | .held _ _ => true
            | _ => false)
          ∧ b.admitted = number (fun x => match x with
            | .admitted _ => true
            | _ => false)
          ∧ b.aborting = number (fun x => match x with
            | .aborting _ => true
            | _ => false)
          ∧ b.holdList = s.adm.hold.length)
        ∧ b.creds.length = 8
        ∧ (∀ c : Fin 8, b.creds[c.val]? = some (roleOf c, s.copies.creds[c].state, s.copies.creds[c].ownCount))
        ∧ b.charged = s.copies.charged ∧ b.holdoff = s.cred.holdoff.getD 0
        ∧ b.rekey = s.copies.rekey ∧ b.order = s.rekey.order ∧ b.fence = s.rekey.fence ∧ b.policy = s.copies.policy
        ∧ b.driveUp = s.drive.up ∧ b.platformUp = s.platform.up
        ∧ b.secNotices = s.cmd.secQueue.length ∧ b.platNotices = s.cmd.platQueue.length
        ∧ b.secMask = s.cmd.secMask ∧ b.platMask = s.cmd.platMask
        ∧ b.wraps = (s.copies.wraps.toList.reduceOption.map fun e => (e.holder, e.range, e.access))
        ∧ b.journal = s.copies.journal ∧ b.scrubOrders = s.erase.orders.length)
      ∧ exec (.fetchNotices id) s = .next (sent (.secAnswer id 0x02 .ok
          (.notices (s.cmd.secQueue.take 8) (s.cmd.secQueue.length - 8))) s)
      ∧ ∀ m : BitVec 16,
        (m.toNat < 1024 → exec (.setAttentionMask id m) s = .next (sent (.secAnswer id 0x03 .ok (.mask m)) { s with
          cmd := { s.cmd with secMask := m, secAttn := attention s.cmd.secQueue m } }))
        ∧ (1024 ≤ m.toNat → exec (.setAttentionMask id m) s = .next (sent (.secAnswer id 0x03 .badValue .empty) s)))
  ∧ (∀ s : State, Between s →
      (s.drive.outbox = [] → exec .outboundFrameSent s = .next s)
      ∧ ∀ f rest, s.drive.outbox = f :: rest →
        ((∀ id k c l n, f ≠ .secAnswer id k c (.notices l n)) → exec .outboundFrameSent s
          = .next { s with drive := { s.drive with outbox := rest, lastSent := some f } })
        ∧ (∀ id k c l n, f = .secAnswer id k c (.notices l n) →
          let q := s.cmd.secQueue.filter fun e => !l.any fun d => decide (d.seq = e.seq)
          exec .outboundFrameSent s = .next { s with
            drive := { s.drive with outbox := rest, lastSent := some f }
            cmd := { s.cmd with secQueue := q, secAttn := attention q s.cmd.secMask } }))

/-- R21, R22: LOCK of an index that names no range is BAD_VALUE; of a LOCKED or ERASED range OK at once; of a CLOSING
range it joins its waiters; an OPEN range with transfers admitted goes CLOSING for 2 s with the request waiting; a drained
one is LOCKED and its slots retired. R55: the held descriptors that touch the range are refused LOCKED, and no other entry
changes. R115, R121: of the range under rekey the intended window is withdrawn, and once LOCKED its record is PAUSED,
after whose write the answer comes (R108; entry 14 of the log). The range leaves the pending set (R82). After LOCK_ALL no
defined range is OPEN, no auto-open is pending, and no record has changed but the rekey's; each defined range is closed as
LOCK closes it. -/
def Obligations.LockAndLockAllClose : Prop :=
  (∀ (id : BitVec 16) (b : Byte) (s : State), ChannelTakes s → alive s.copies.watch.state = true →
      let r := rangeIx b
      let s' : State := { s with cred := { s.cred with pendingSet := s.cred.pendingSet.filter fun q => q != r } }
      let answer : Code → OutFrame := fun k => .secAnswer id 0x04 k .empty
      (16 ≤ b.toNat ∨ rangeDefined s.copies r = false → exec (.lock id b) s = .next (sent (answer .badValue) s))
      ∧ (b.toNat < 16 → rangeDefined s.copies r = true → awaited .security s = false → NoCloseAwaited s →
        ((s.ranges[r].run = .locked ∨ s.ranges[r].run = .erased) → exec (.lock id b) s = .next (sent (answer .ok) s'))
        ∧ (∀ h d ws, s.ranges[r].run = .closing h d ws → exec (.lock id b) s = .next { s' with
          ranges := s.ranges.set r { s.ranges[r] with run := .closing h d (ws ++ [.security]) }
          cmd := { s.cmd with sec := some ⟨.lock id b, false, .closing, [], [], false⟩ } })
        ∧ (∀ h, s.ranges[r].run = .opened h → h.next = none → rekeyOn r s.copies = false → s.rekey.seen = none →
          s.adm.hold = [] →
          (drained r s = false → exec (.lock id b) s = .next { s' with
            ranges := s.ranges.set r { s.ranges[r] with run := .closing h 2 [.security] }
            cmd := { s.cmd with sec := some ⟨.lock id b, false, .closing, [], [], false⟩ } })
          ∧ (drained r s = true → exec (.lock id b) s = .next (sent (answer .ok) { s' with
            ranges := s.ranges.set r { s.ranges[r] with run := .locked }
            slots := s.slots.set h.current (retiredSlot s.slots[h.current]) })))
        ∧ ∀ h, s.ranges[r].run = .opened h → HoldListOk s → Next (exec (.lock id b) s) fun t =>
          (∀ g : Fin 32, match s.adm.table[g] with
            | .held _ e =>
              (touches s r e = true →
                t.adm.table[g] = .free ∧ g ∉ t.adm.hold ∧ .xferRefuse g .locked (some r) ∈ t.drive.outbox)
              ∧ (touches s r e = false → t.adm.table[g] = s.adm.table[g] ∧ g ∈ t.adm.hold)
            | e => t.adm.table[g] = e)
          ∧ t.cred = s'.cred ∧ t.copies = { s.copies with rekey := t.copies.rekey }
          ∧ (drained r s = false →
            t.ranges = s.ranges.set r { s.ranges[r] with run := .closing h 2 [.security] }
            ∧ t.slots = s.slots ∧ t.copies = s.copies
            ∧ t.rekey = (if rekeyOn r s.copies = true then windowWithdrawn s.rekey else s.rekey)
            ∧ t.cmd.sec = some ⟨.lock id b, false, .closing, [], [], false⟩)
          ∧ (drained r s = true →
            let answered := t.cmd.sec = none ∧ answer .ok ∈ t.drive.outbox
            t.ranges = s.ranges.set r { s.ranges[r] with run := .locked } ∧ SlotsRetired h s t
            ∧ (rekeyOn r s.copies = false → t.copies = s.copies ∧ answered)
            ∧ ∀ k, s.copies.rekey = some k → k.range = r →
              t.copies.rekey = some { k with state := .paused } ∧ t.rekey = windowWithdrawn s.rekey
              ∧ (k.state = .paused → answered) ∧ (k.state ≠ .paused → Answering (.lock id b) .ok .empty t))))
  ∧ (∀ (id : BitVec 16) (s : State), ChannelTakes s → alive s.copies.watch.state = true →
      Next (exec (.lockAll id) s) fun t =>
        (∀ r : Fin 16, rangeDefined s.copies r = true → isOpen t.ranges[r].run = false)
        ∧ t.cred = { s.cred with pendingSet := [] }
        ∧ t.copies = { s.copies with rekey := t.copies.rekey } ∧ t.watch = s.watch ∧ t.erase = s.erase
        ∧ (∀ r : Fin 16, rangeDefined s.copies r = true → t.ranges[r].run = match s.ranges[r].run with
          | .opened h => if drained r s = true then .locked else .closing h 2 [.security]
          | .closing h d ws => .closing h d (ws ++ [.security])
          | x => x)
        ∧ (∀ k, s.copies.rekey = some k → rangeDefined s.copies k.range = true → isOpen s.ranges[k.range].run = true →
          t.rekey = windowWithdrawn s.rekey
          ∧ t.copies.rekey = some (if drained k.range s = true then { k with state := .paused } else k))
        ∧ (HoldListOk s → s.rekey.seen = none → ∀ g : Fin 32, match s.adm.table[g] with
          | .held _ e =>
            let cut := ∃ r : Fin 16, rangeDefined s.copies r = true ∧ isOpen s.ranges[r].run = true ∧ touches s r e = true
            (cut → t.adm.table[g] = .free ∧ g ∉ t.adm.hold) ∧ (¬cut → t.adm.table[g] = s.adm.table[g] ∧ g ∈ t.adm.hold)
          | e => t.adm.table[g] = e)
        ∧ ((∀ r : Fin 16, s.ranges[r].run = .locked ∨ s.ranges[r].run = .erased) → NoCloseAwaited s →
          t = sent (.secAnswer id 0x05 .ok .empty) { s with cred := { s.cred with pendingSet := [] } }))

/-! ## The credential test -/

/-- R67: a request that passes form and gating is charged, for each of UNLOCK, CHANGE_SECRET, SET_SECRET,
ENABLE_CREDENTIAL, REMOVE_CREDENTIAL, GRANT, REVOKE, DEFINE_RANGE, DELETE_RANGE, SET_RANGE_ATTRIBUTES, ERASE_RANGE,
SET_POLICY, BIND_TO_PLATFORM, UNBIND, SET_REMOTE_TOKEN, READ_INCIDENTS, CLEAR_INCIDENTS, REKEY_START, REKEY_RESUME,
ERASE_ALL and REPROVISION: both counts rise by one, saturating, their two writes are requested, and the request waits for
them. R65, R66: a request that fails its form check or a gating check is refused with the first failure's code, uncharged:
HOLD_OFF with the seconds left, EMPTY_SLOT, DISABLED, ROLE_REFUSED in this order. -/
def Obligations.CredentialRequestsChargedOrRefused : Prop :=
  (∀ (c : Instr) (cred : Fin 8) (secret : Secret) (s : State), ChannelTakes s → credentials c = some (cred, secret) →
      channelPasses c s.copies.watch.state = true → formCheck s.copies.factory.capacity c = none →
      gatingCheck c cred s = none →
      let n := min 65535 (s.copies.charged + 1)
      let own : CredRec := { s.copies.creds[cred] with ownCount := min 255 (s.copies.creds[cred].ownCount + 1) }
      let asked := requestWrite .credentialUnit (.cred cred own) (requestWrite .credentialUnit (.charged n) s.store)
      Next (exec c s) fun t =>
        t.copies = { s.copies with charged := n, creds := s.copies.creds.set cred own }
        ∧ t.cmd = { s.cmd with sec := some ⟨c, false, .charging, [], asked.touched, false⟩ }
        ∧ asked.touched.length = 2 ∧ t.store = { asked with touched := [] }
        ∧ t = { s with copies := t.copies, store := t.store, cmd := t.cmd })
  ∧ (∀ (c : Instr) (cred : Fin 8) (secret : Secret) (s : State), ChannelTakes s → credentials c = some (cred, secret) →
      channelPasses c s.copies.watch.state = true →
      let refused : Code → AnswerBody → Prop := fun k b =>
        exec c s = .next (sent (.secAnswer (requestId c) (answerKind c) k b) s)
      (∀ k b, formCheck s.copies.factory.capacity c = some (k, b) → refused k b)
      ∧ (formCheck s.copies.factory.capacity c = none →
        (∀ k b, unlockWatch c s.copies.watch.state = some (k, b) → refused k b)
        ∧ (unlockWatch c s.copies.watch.state = none →
          (∀ n, s.cred.holdoff = some n → refused .holdOff (.seconds n))
          ∧ (s.cred.holdoff = none →
            (s.copies.creds[cred].state = .empty → refused .emptySlot .empty)
            ∧ (s.copies.creds[cred].state = .disabled → refused .disabled .empty)
            ∧ (s.copies.creds[cred].state = .active →
              (s.copies.watch.state = .alarmed ∧ roleOf cred = .user) ∨ roleSuits c (roleOf cred) = false →
              refused .roleRefused .empty)))))

/-- R65, R78, R90 to R107, R190: what the form checks refuse, first the credential index, then the secret, then the fields
of the request, each uncharged and with nothing changed. That of two checks that fail the one listed first answers is
entry 48 of the log; that a second secret of a wrong size that a GRANT needs is BAD_VALUE, as R93 says against R65, is
entry 24; which field of a policy is named is entry 25; that a SET_POLICY refused for its credential index names none is
entry 54. -/
def Obligations.FormChecksRefuse : Prop :=
  ∀ (id : BitVec 16) (cb : Byte) (secret : Secret) (s : State), ChannelTakes s →
    let refused : Instr → Code → AnswerBody → Prop := fun c k b => channelPasses c s.copies.watch.state = true →
      exec c s = .next (sent (.secAnswer id (answerKind c) k b) s)
    let sized : Secret → Prop := fun l => 8 ≤ l.length ∧ l.length ≤ 64
    (∀ c, credentialBearing id cb secret c →
      (8 ≤ cb.toNat → refused c .badValue .empty)
      ∧ (cb.toNat < 8 → ¬sized secret → refused c .badFormat .empty))
    ∧ (cb.toNat < 8 → sized secret →
      (∀ l, (∃ b ∈ l, 16 ≤ b.toNat) ∨ ¬l.Nodup → refused (.unlock id cb secret l) .badValue .empty)
      ∧ (∀ new, ¬sized new → refused (.changeSecret id cb secret new) .badFormat .empty)
      ∧ (∀ target new, ¬sized new → refused (.setSecret id cb secret target new) .badFormat .empty)
      ∧ (∀ target new, sized new → target.toNat = 0 ∨ 7 < target.toNat →
        refused (.setSecret id cb secret target new) .badValue .empty)
      ∧ (∀ target, target.toNat = 0 ∨ 7 < target.toNat →
        refused (.enableCredential id cb secret target) .badValue .empty
          ∧ refused (.removeCredential id cb secret target) .badValue .empty)
      ∧ (∀ target range access second,
        let grant : Instr := .grant id cb secret target range access second
        let needed := target.toNat < 8 ∧ target ≠ cb
        (needed ∧ ¬sized second) ∨ 8 < target.toNat ∨ 15 < range.toNat ∨ 1 < access.toNat →
          refused grant .badValue .empty)
      ∧ (∀ target range, 8 < target.toNat ∨ 15 < range.toNat →
        refused (.revoke id cb secret target range) .badValue .empty)
      ∧ (∀ range start len attrs, range.toNat = 0 ∨ 15 < range.toNat ∨ start % 8 ≠ 0 ∨ len % 8 ≠ 0 ∨ len < 8
          ∨ s.copies.factory.capacity < start + len ∨ 7 < attrs.toNat →
        refused (.defineRange id cb secret range start len attrs) .badValue .empty)
      ∧ (∀ range, range.toNat = 0 ∨ 15 < range.toNat → refused (.deleteRange id cb secret range) .badValue .empty)
      ∧ (∀ range attrs, 15 < range.toNat ∨ 7 < attrs.toNat →
        refused (.setRangeAttributes id cb secret range attrs) .badValue .empty)
      ∧ (∀ range, 15 < range.toNat → refused (.eraseRange id cb secret range) .badValue .empty
        ∧ refused (.rekeyStart id cb secret range) .badValue .empty)
      ∧ (∀ l, let p := readPolicy l
        (p.t1 = 0 → refused (.setPolicy id cb secret l) .badValue (.offset 9))
        ∧ (1 ≤ p.t1 → p.t2 < p.t1 → refused (.setPolicy id cb secret l) .badValue (.offset 10))
        ∧ (1 ≤ p.t1 → p.t1 ≤ p.t2 → p.t3 < p.t2 → refused (.setPolicy id cb secret l) .badValue (.offset 11))
        ∧ (Ordered p → p.gMax ≤ p.gMin → refused (.setPolicy id cb secret l) .badValue (.offset 31)))
      ∧ (∀ token, token ≠ [] → ¬sized token → refused (.setRemoteToken id cb secret token) .badFormat .empty)
      ∧ ∀ position, 23 < position.toNat → refused (.readIncidents id cb secret position) .badValue .empty)

/-- R89, R71: TAKE_OWNERSHIP of a secret of a wrong size is BAD_FORMAT, with an owner there NOT_NOW; otherwise a salt is
drawn and the derivation of the owner's verifier is requested. When it ends with the watch ERASING or ERASED nothing is
written. Otherwise slot 0 is ACTIVE with the verifier, the OPEN ranges and no others have an owner FULL entry, as far as
the table has room, and no other entry has changed. That the watch is tested before the form is entry 20 of the log; how
keys and wraps are named is entry 6. -/
def Obligations.TakeOwnershipDerivesTheOwner : Prop :=
  (∀ (id : BitVec 16) (secret : Secret) (s : State), ChannelTakes s → alive s.copies.watch.state = true →
    let c : Instr := .takeOwnership id secret
    (secret.length < 8 ∨ 64 < secret.length → exec c s = .next (sent (.secAnswer id 0x20 .badFormat .empty) s))
    ∧ (8 ≤ secret.length → secret.length ≤ 64 →
      (s.copies.creds[(0 : Fin 8)].state ≠ .empty → exec c s = .next (sent (.secAnswer id 0x20 .notNow .empty) s))
      ∧ (s.copies.creds[(0 : Fin 8)].state = .empty →
        let j : DerivJob := ⟨.security, secret, ⟨s.draws⟩, s.copies.policy.workFactor⟩
        exec c s = .next { s with
          draws := s.draws + 1
          derive := if s.derive.job = none then { s.derive with job := some j }
            else { s.derive with waiting := s.derive.waiting ++ [j] }
          cmd := { s.cmd with sec := some ⟨c, false, .second, [], [], false⟩ } })))
  ∧ ∀ (id : BitVec 16) (secret : Secret) (lost : Bool) (j : DerivJob) (s : State), Between s →
    s.derive.job = some j → j.channel = .security →
    s.cmd.sec = some ⟨.takeOwnership id secret, lost, .second, [], [], false⟩ →
    let key := derived j
    (alive s.copies.watch.state = false → Next (exec .derivationComplete s) fun t =>
      t.copies = s.copies ∧ t.store = s.store ∧ t.cmd.sec = none)
    ∧ (alive s.copies.watch.state = true → (∀ r : Fin 16, findWrap (.slot 0) r s.copies = none) →
      let owner : Fin 16 → Held → WrapEntry := fun r h =>
        ⟨.slot 0, r, .full, s.copies.ranges[r].salt, ⟨h.key, .cred key⟩⟩
      Next (exec .derivationComplete s) fun t =>
        t.copies = { s.copies with
          creds := s.copies.creds.set 0 ⟨.active, some ⟨key, key.salt, key.wf⟩, 0⟩, wraps := t.copies.wraps }
        ∧ t.ranges = s.ranges ∧ t.slots = s.slots ∧ t.watch = s.watch
        ∧ (∀ (k : Fin 64) e, s.copies.wraps[k] = some e → t.copies.wraps[k] = some e)
        ∧ (∀ (k : Fin 64) e, t.copies.wraps[k] = some e →
          s.copies.wraps[k] = some e ∨ ∃ r h, s.ranges[r].run = .opened h ∧ e = owner r h)
        ∧ ∃ l, Answering (.takeOwnership id secret) .ok (.rangeResults l) t
          ∧ ∀ r h, s.ranges[r].run = .opened h →
            ((r, .ok) ∈ l ∧ ∃ k : Fin 64, t.copies.wraps[k] = some (owner r h))
            ∨ ((r, .tableFull) ∈ l ∧ freeWrap t.copies = none))

/-- R68, R73, R76, R77: the mismatch verdict. Evidence CREDENTIAL_FAILED is taken, the hold-off starts for the charged
count under the watch state evidence left, the exhaustion limit starts an erase, the disabling limit disables a USER, and
the answer DENIED waits for the writes. That its body is empty, as R190 says against R155, is entry 23 of the log; that
the watch is ERASING in the event that starts an erase is entry 7, which answers wait is entry 16. -/
def Obligations.FailedTestHoldsOff : Prop :=
  ∀ (req : Instr) (c : Fin 8) (key : CredKey) (s : State), Testing req c key s →
    verifies s.copies.creds[c].verifier key = false → alive s.copies.watch.state = true →
    let p := s.copies.policy
    let score := min 255 (s.copies.watch.score + p.weights[(0 : Fin 14)])
    let w := watchAt p s.copies.watch.state score
    Next (exec .derivationComplete s) fun t =>
      t.copies.watch.score = score
      ∧ t.copies.watch.state = (if p.wipeLimit ≠ 0 ∧ p.wipeLimit ≤ s.copies.charged then .erasing else w)
      ∧ t.cred.holdoff = startTimer (holdoffLength p w s.copies.charged)
      ∧ t.copies.creds = s.copies.creds.set c { s.copies.creds[c] with
          state := if roleOf c = .user ∧ p.disableLimit ≠ 0 ∧ p.disableLimit ≤ s.copies.creds[c].ownCount then .disabled
            else s.copies.creds[c].state }
      ∧ t.copies.charged = s.copies.charged ∧ t.copies.wraps = s.copies.wraps ∧ t.copies.ranges = s.copies.ranges
      ∧ Answering req .denied .empty t

/-- R69, R74: whatever the request and its own effect, the success verdict leaves both counts at 0 and the hold-off timer
stopped. R70: the watch state in which the verdict is taken withholds the effect: UNLOCK is answered ERASED while ERASING
or ERASED, any other but REPROVISION in ERASED NOT_NOW; a USER's request in ALARMED ROLE_REFUSED; SET_POLICY outside
SETTLED, the rekey requests in ALARMED and REPROVISION outside ERASED NOT_NOW. Of the records only those of R69 change
then. That it is the state before the verdict's own step 2 is entry 47 of the log. R69, step 2, and R145: in SETTLED and
WARY the score falls by the relief and is evaluated; in ALARMED an OWNER's or RECOVERY's success settles the watch with
score 0, and the decay timer starts at 0; in ERASING and ERASED, and for a USER in ALARMED, nothing of the watch changes.
(The effects of an UNLOCK that gives evidence and of ERASE_ALL move the watch further, and are left to their statements.)
That the watch is ERASING in the event that starts an erase is entry 7; that it stays ERASED in the event of a succeeding
REPROVISION's verdict, and is settled only once the writes are done, is the model's choice, entry 49. -/
def Obligations.SucceedingTestResetsTheCounts : Prop :=
  ∀ (req : Instr) (c : Fin 8) (key : CredKey) (s : State), Succeeds req c key s →
    let w := s.copies.watch.state
    let isUnlock := ∃ id cb l rs, req = .unlock id cb l rs
    let isReprovision := ∃ id cb l, req = .reprovision id cb l
    let isRekey := (∃ id cb l r, req = .rekeyStart id cb l r) ∨ ∃ id cb l, req = .rekeyResume id cb l
    let movesWatch := (isUnlock ∧ (s.watch.binding = .mismatched ∨ s.watch.binding = .absent))
      ∨ ∃ id cb l, req = .eraseAll id cb l
    Next (exec .derivationComplete s) fun t =>
      let withheld : Code → Prop := fun k =>
        Answering req k .empty t
        ∧ t.copies = { countsReset c s.copies with
            watch := t.copies.watch, incidents := t.copies.incidents, rekey := t.copies.rekey
            journal := t.copies.journal }
      let unmoved := OnlyRecords s t ∧ t.copies = countsReset c s.copies
      t.copies.charged = 0 ∧ t.copies.creds[c].ownCount = 0 ∧ t.cred.holdoff = none
      ∧ (alive w = false → (isUnlock → withheld .erased ∧ unmoved)
        ∧ (¬isUnlock → ¬(isReprovision ∧ w = .erased) → withheld .notNow ∧ unmoved))
      ∧ (w = .alarmed → roleOf c = .user → ¬isReprovision → withheld .roleRefused ∧ unmoved)
      ∧ (alive w = true → (w = .alarmed → roleOf c ≠ .user) →
        (isReprovision → withheld .notNow)
        ∧ (isRekey → w = .alarmed → withheld .notNow)
        ∧ ((∃ id cb l p, req = .setPolicy id cb l p) → w ≠ .settled → withheld .notNow))
      ∧ (¬movesWatch →
        (calm w = true →
          let score := s.copies.watch.score - s.copies.policy.relief
          t.copies.watch = ⟨watchAt s.copies.policy w score, score⟩
          ∧ t.watch.decay = (if calm t.copies.watch.state = true then s.watch.decay else none)
          ∧ (t.copies.watch.state ≠ w → t.copies.watch.state ≠ .erasing → (∀ id cb l, req ≠ .clearIncidents id cb l) →
            ⟨.stateChange t.copies.watch.state, s.copies.boot, s.uptime, score⟩ ∈ t.copies.incidents))
        ∧ (w = .alarmed → roleOf c ≠ .user → t.copies.watch = ⟨.settled, 0⟩ ∧ t.watch.decay = some 0
          ∧ ((∀ id cb l, req ≠ .clearIncidents id cb l) →
            ⟨.stateChange .settled, s.copies.boot, s.uptime, 0⟩ ∈ t.copies.incidents))
        ∧ (w = .alarmed ∧ roleOf c = .user ∨ alive w = false →
          t.copies.watch = s.copies.watch ∧ t.watch.decay = s.watch.decay))

/-- R62, R67, R184: with no work waiting a completed write goes into the store and the next one begins; when the last
write of a charge completes, the test's derivation is requested against the credential's verifier. R69, R87, R176: an answer
that is ready waits for the last of its writes, and then leaves. -/
def Obligations.StoreWriteCompletesAndTheTestFollows : Prop :=
  ∀ s : State, Between s → s.store.waits = [] → s.cmd.plat = none →
    (s.store.active = none → exec .storeWriteComplete s = .next s)
    ∧ ∀ p, s.store.active = some p →
      let st : Store := { s.store with
        nv := applyWrite p.what s.store.nv, active := s.store.queue.head?, queue := s.store.queue.tail }
      (s.cmd.sec = none → exec .storeWriteComplete s = .next { s with store := st })
      ∧ (∀ j, s.cmd.sec = some j → (∃ i ∈ j.writes, i ≠ p.id) → exec .storeWriteComplete s = .next { s with
          store := st
          cmd := { s.cmd with sec := some { j with writes := j.writes.filter fun i => i != p.id } } })
      ∧ (∀ req lost k b keys, s.cmd.sec = some ⟨req, lost, .answering k b, keys, [p.id], false⟩ →
          Next (exec .storeWriteComplete s) fun t => AnswerLeft req lost k b s t
            ∧ t = { s with store := st, cmd := t.cmd, drive := { s.drive with outbox := t.drive.outbox } })
      ∧ ∀ req lost keys c secret v, s.cmd.sec = some ⟨req, lost, .charging, keys, [p.id], false⟩ →
        credentials req = some (c, secret) → s.copies.creds[c].verifier = some v →
        let j : DerivJob := ⟨.security, secret, v.salt, v.wf⟩
        exec .storeWriteComplete s = .next { s with
          store := st
          derive := if s.derive.job = none then { s.derive with job := some j }
            else { s.derive with waiting := s.derive.waiting ++ [j] }
          cmd := { s.cmd with sec := some ⟨req, lost, .testing, keys, [], false⟩ } }

/-! ## The requests' effects -/

/-- R78 to R80, R19, R20: a success for a LOCKED range that the credential's entry grants opens it at the entry's level in
the lowest EMPTY slot, with nothing else changed but the counts. For any list of ranges, and for ALL, each requested range
has one result, ascending: NOT_GRANTED without an entry or undefined; ALREADY_OPEN for an OPEN range, whose level rises
where the entry's is higher; BUSY_CLOSING; ERASED; BINDING_PENDING or BOUND_ELSEWHERE as the binding says; DENIED where
the entry does not unwrap; else it opens, or is NO_SLOT. One BINDING_MISMATCH is taken where a result is BOUND_ELSEWHERE,
and the watch state it leaves withholds the opening where it is ERASING, or ALARMED for a USER; else the marked ranges
open all the same, after an alarm those that it closed too. Ranges that are not opened stay as they are. R19, R122: the
range under rekey takes two slots, or is NO_SLOT with its record as it was; a PAUSED record becomes RUNNING, a FAULTED one
stays, and unless an order is outstanding the window of a RUNNING one is chosen. How keys and wraps are named is entry 6
of the log; when the watch is ERASING is entry 7; the empty window is entry 52. That NO_SLOT leaves the sleep mark too as it
was is the model's choice, entry 70. -/
def Obligations.UnlockOpensAGrantedRange : Prop :=
  (∀ (id : BitVec 16) (cb b : Byte) (secret : Secret) (c : Fin 8) (key : CredKey) (e : WrapEntry) (m : SealedKey)
    (k : Fin 18) (l : List (Fin 18)) (s : State),
    let req : Instr := .unlock id cb secret [b]
    let r := rangeIx b
    Succeeds req c key s → AtRest s → b.toNat < 16 → (∀ i x, s.copies.wraps[(i : Fin 64)] = some x →
      isStale s.copies x = false) →
    freshEntry (.slot c) r s.copies = some e → e.wrapped.under = .cred key → rangeDefined s.copies r = true →
    s.ranges[r].run = .locked → s.copies.ranges[r].current = some m → rekeyOn r s.copies = false →
    s.copies.ranges[r].attributes.bindingRequired = false → emptySlots s = k :: l →
    Next (exec .derivationComplete s) fun t =>
      t = { s with
        ranges := s.ranges.set r ⟨.opened ⟨levelOf e.access, e.wrapped.key, k, none⟩, false⟩
        slots := s.slots.set k (.live r m.media 0)
        copies := countsReset c s.copies
        store := t.store
        cred := { s.cred with holdoff := none }
        cmd := { s.cmd with sec := t.cmd.sec }
        derive := { job := s.derive.waiting.head?, waiting := s.derive.waiting.tail } }
      ∧ Answering req .ok (.rangeResults [(r, .opened)]) t)
  ∧ (∀ (id : BitVec 16) (cb b : Byte) (secret : Secret) (c : Fin 8) (key : CredKey) (e : WrapEntry) (m n : SealedKey)
    (k : RekeyRec) (s : State),
    let req : Instr := .unlock id cb secret [b]
    let r := rangeIx b
    Succeeds req c key s → AtRest s → b.toNat < 16 → (∀ i x, s.copies.wraps[(i : Fin 64)] = some x →
      isStale s.copies x = false) →
    freshEntry (.slot c) r s.copies = some e → e.wrapped.under = .cred key → rangeDefined s.copies r = true →
    s.ranges[r].run = .locked → s.copies.ranges[r].current = some m → s.copies.ranges[r].next = some n →
    s.copies.rekey = some k → k.range = r → s.copies.ranges[r].attributes.bindingRequired = false →
    ((emptySlots s).length < 2 → Next (exec .derivationComplete s) fun t =>
      Answering req .ok (.rangeResults [(r, .noSlot)]) t ∧ t.copies = countsReset c s.copies ∧ t.ranges = s.ranges
      ∧ t.slots = s.slots ∧ t.rekey = s.rekey)
    ∧ ∀ i j l, emptySlots s = i :: j :: l → Next (exec .derivationComplete s) fun t =>
      Answering req .ok (.rangeResults [(r, .opened)]) t
      ∧ t.ranges = s.ranges.set r ⟨.opened ⟨levelOf e.access, e.wrapped.key, i, some j⟩, false⟩
      ∧ t.slots = (s.slots.set i (.live r m.media 0)).set j (.live r n.media 0) ∧ t.adm = s.adm
      ∧ t.copies = { countsReset c s.copies with
          rekey := some { k with state := if k.state = .paused then .running else k.state } }
      ∧ (k.state = .faulted ∨ s.rekey.order.isSome = true → t.rekey = s.rekey)
      ∧ (k.state ≠ .faulted → s.drive.up = true → s.rekey.order = none → s.rekey.intended = none →
        s.rekey.completing = false → (∀ w ∈ s.store.waits, w.job ≠ .rekeyWindow) → WindowChosen k s t))
  ∧ ∀ (id : BitVec 16) (cb : Byte) (secret : Secret) (l : List Byte) (c : Fin 8) (key : CredKey) (s : State),
    Succeeds (.unlock id cb secret l) c key s → AtRest s →
    (∀ i x, s.copies.wraps[(i : Fin 64)] = some x → isStale s.copies x = false) →
    let entry : Fin 16 → Option WrapEntry := fun r => freshEntry (.slot c) r s.copies
    let told : State := { s with copies := countsReset c s.copies }
    Next (exec .derivationComplete s) fun t => ∃ res, Answering (.unlock id cb secret l) .ok (.rangeResults res) t
      ∧ (res.map Prod.fst).Pairwise (· < ·)
      ∧ (∀ r, r ∈ res.map Prod.fst ↔ if l = [] then (entry r).isSome = true else ∃ b ∈ l, b.toNat = r)
      ∧ let elsewhere := ∃ r, (r, .boundElsewhere) ∈ res
        (elsewhere → EvidenceTaken (.bindingMismatch 2) told t)
        ∧ (¬elsewhere → t.copies = { told.copies with rekey := t.copies.rekey } ∧ t.watch = s.watch
          ∧ ∀ r, (∀ k, (r, k) ∈ res → k ≠ .opened ∧ k ≠ .alreadyOpen) → t.ranges[r] = s.ranges[r])
        ∧ ∀ r k, (r, k) ∈ res →
          (entry r = none ∨ rangeDefined s.copies r = false → k = .notGranted)
          ∧ ∀ e, entry r = some e → rangeDefined s.copies r = true →
            let bound := s.copies.ranges[r].attributes.bindingRequired
            let raises : Held → Prop := fun h => e.access = .full ∧ h.level = .readOnly
            let marked := s.ranges[r].run = .locked ∨ ∃ h, s.ranges[r].run = .opened h ∧ raises h
            let lets := bound = false ∨ s.watch.binding = .matched ∨ s.watch.binding = .unbound
            (∀ h, s.ranges[r].run = .opened h → ¬raises h → k = .alreadyOpen)
            ∧ (∀ h d ws, s.ranges[r].run = .closing h d ws → k = .busyClosing)
            ∧ (s.ranges[r].run = .erased → k = .erased)
            ∧ (marked → bound = true → s.watch.binding = .unknown → k = .bindingPending)
            ∧ (marked → bound = true → s.watch.binding = .mismatched ∨ s.watch.binding = .absent → k = .boundElsewhere)
            ∧ let w := t.copies.watch.state
            let withheld := elsewhere ∧ (alive w = false ∨ w = .alarmed ∧ roleOf c = .user)
            (marked → lets → withheld → k = (if alive w = true then .roleRefused else .erased))
            ∧ (marked → lets → ¬withheld →
              (e.wrapped.under ≠ .cred key → k = .denied)
              ∧ (e.wrapped.under = .cred key →
                (∀ h, s.ranges[r].run = .opened h → w ≠ .alarmed →
                  k = .alreadyOpen ∧ t.ranges[r].run = .opened { h with level := .readWrite })
                ∧ (s.ranges[r].run = .locked ∨ w = .alarmed → s.copies.ranges[r].current.isSome = true →
                  (k = .opened ∨ k = .noSlot)
                  ∧ (w ≠ .alarmed → (emptySlots s = [] → k = .noSlot) ∧ (k = .noSlot → t.ranges[r] = s.ranges[r]))
                  ∧ (k = .noSlot → t.ranges[r].run = .locked)
                  ∧ (k = .opened → ∃ h, t.ranges[r] = ⟨.opened h, false⟩ ∧ h.level = levelOf e.access
                    ∧ h.key = e.wrapped.key))))

/-- R91, R92: ENABLE_CREDENTIAL of an EMPTY slot is NOT_ACTIVE; of another it makes it ACTIVE with its own count 0.
REMOVE_CREDENTIAL empties the slot and removes every wrap entry that names it, and no other. -/
def Obligations.CredentialsEnabledAndRemoved : Prop :=
  ∀ (id : BitVec 16) (cb target : Byte) (secret : Secret) (c : Fin 8) (key : CredKey) (s : State), AtRest s →
    let q := credIx target
    let recs := countsReset c s.copies
    (Succeeds (.enableCredential id cb secret target) c key s → Next (exec .derivationComplete s) fun t =>
      OnlyRecords s t
      ∧ (s.copies.creds[q].state = .empty →
        t.copies = recs ∧ Answering (.enableCredential id cb secret target) .notActive .empty t)
      ∧ (s.copies.creds[q].state ≠ .empty →
        t.copies = { recs with creds := recs.creds.set q { recs.creds[q] with state := .active, ownCount := 0 } }
        ∧ Answering (.enableCredential id cb secret target) .ok .empty t))
    ∧ (Succeeds (.removeCredential id cb secret target) c key s → s.copies.creds[q].state ≠ .empty →
      Next (exec .derivationComplete s) fun t =>
        OnlyRecords s t
        ∧ t.copies = { recs with creds := recs.creds.set q ⟨.empty, none, 0⟩, wraps := t.copies.wraps }
        ∧ (∀ k : Fin 64, t.copies.wraps[k] =
          if s.copies.wraps[k].any (fun e => decide (e.holder = .slot q)) = true then none else s.copies.wraps[k])
        ∧ Answering (.removeCredential id cb secret target) .ok .empty t)

/-- R93, R94, R16: GRANT to an EMPTY slot is NOT_ACTIVE, of a range not OPEN NOT_OPEN, and TABLE_FULL with 64 entries,
none of them the pair's. To DEVICE or to the presenter itself it makes the entry in the lowest free record, or gives the
entry that exists the new access and keeps its wrapped key: REPLACED. R95, R106, R107: REVOKE removes the one entry it
names; SET_REMOTE_TOKEN with an empty token clears it; READ_INCIDENTS answers up to eight incidents from its position;
CLEAR_INCIDENTS empties the list. That an entry takes the lowest free record is the model's choice, entry 27 of the log;
that the incidents answered are those held at the verdict is entry 57; how keys and wraps are named is entry 6. -/
def Obligations.EntriesTokenAndIncidentsAdministered : Prop :=
  ∀ (id : BitVec 16) (cb : Byte) (secret : Secret) (c : Fin 8) (key : CredKey) (s : State), AtRest s →
    let recs := countsReset c s.copies
    (∀ target range access second,
      let req : Instr := .grant id cb secret target range access second
      let who := holderOf target
      let r := rangeIx range
      Succeeds req c key s → (∀ i x, s.copies.wraps[(i : Fin 64)] = some x → isStale s.copies x = false) →
      let refused : Code → Prop := fun k => Next (exec .derivationComplete s) fun t =>
        OnlyRecords s t ∧ t.copies = recs ∧ Answering req k .empty t
      let answers : Code → Fin 64 → WrapEntry → Prop := fun k i e => Next (exec .derivationComplete s) fun t =>
        OnlyRecords s t ∧ t.copies = { recs with wraps := s.copies.wraps.set i (some e) } ∧ Answering req .ok (.code k) t
      ((∃ q, who = .slot q ∧ s.copies.creds[q].state = .empty) → refused .notActive)
      ∧ ((∀ q, who = .slot q → s.copies.creds[q].state ≠ .empty) →
        (rangeDefined s.copies r = false ∨ isOpen s.ranges[r].run = false → refused .notOpen)
        ∧ ∀ h, s.ranges[r].run = .opened h → rangeDefined s.copies r = true →
          (findWrap who r s.copies = none → 64 ≤ wrapCount s.copies → refused .tableFull)
          ∧ (who = .device ∨ who = .slot c →
            (∀ i e, findWrap who r s.copies = some i → s.copies.wraps[i] = some e →
              answers .replaced i { e with access := accessOf access })
            ∧ ∀ i, findWrap who r s.copies = none → wrapCount s.copies < 64 → freeWrap s.copies = some i →
              answers .created i ⟨who, r, accessOf access, s.copies.ranges[r].salt,
                ⟨h.key, if who = .device then .device s.deviceKey else .cred key⟩⟩)))
    ∧ (∀ target range, Succeeds (.revoke id cb secret target range) c key s → Next (exec .derivationComplete s) fun t =>
      OnlyRecords s t ∧ t.copies = { recs with wraps := t.copies.wraps }
      ∧ (∀ k : Fin 64, t.copies.wraps[k] =
        if s.copies.wraps[k].any (fun e => decide (e.holder = holderOf target ∧ e.range = rangeIx range)) = true then
          none
        else s.copies.wraps[k])
      ∧ Answering (.revoke id cb secret target range) .ok .empty t)
    ∧ (Succeeds (.setRemoteToken id cb secret []) c key s → Next (exec .derivationComplete s) fun t =>
      OnlyRecords s t ∧ t.copies = { recs with token := none }
      ∧ Answering (.setRemoteToken id cb secret []) .ok .empty t)
    ∧ (∀ pos, Succeeds (.readIncidents id cb secret pos) c key s → Next (exec .derivationComplete s) fun t =>
      OnlyRecords s t ∧ t.copies = recs ∧ Answering (.readIncidents id cb secret pos) .ok
        (.incidents s.copies.incidents.length ((s.copies.incidents.drop pos.toNat).take 8)) t)
    ∧ (Succeeds (.clearIncidents id cb secret) c key s → Next (exec .derivationComplete s) fun t =>
      OnlyRecords s t ∧ t.copies = { recs with incidents := [] }
      ∧ Answering (.clearIncidents id cb secret) .ok .empty t)

/-- R104, R105: BIND_TO_PLATFORM without a word received is NO_WORD; with one it stores the word's digest and the part
is MATCHED. UNBIND removes the digest and the part is UNBOUND. That both take effect at the verdict is entry 11 of the
log; that the digest is the word is entry 8. -/
def Obligations.BindingStoredAndRemoved : Prop :=
  ∀ (id : BitVec 16) (cb : Byte) (secret : Secret) (c : Fin 8) (key : CredKey) (s : State), AtRest s →
    s.cred.pendingSet = [] →
    let recs := countsReset c s.copies
    (Succeeds (.bindToPlatform id cb secret) c key s →
      (s.watch.lastWord = none → Next (exec .derivationComplete s) fun t =>
        OnlyRecords s t ∧ t.copies = recs ∧ Answering (.bindToPlatform id cb secret) .noWord .empty t)
      ∧ ∀ w, s.watch.lastWord = some w → Next (exec .derivationComplete s) fun t =>
        t.copies = { recs with digest := some ⟨w⟩ } ∧ t.watch = { s.watch with binding := .matched }
        ∧ t.ranges = s.ranges ∧ t.slots = s.slots ∧ Answering (.bindToPlatform id cb secret) .ok .empty t)
    ∧ (Succeeds (.unbind id cb secret) c key s → s.copies.digest.isSome = true →
      Next (exec .derivationComplete s) fun t =>
        t.copies = { recs with digest := none } ∧ t.watch = { s.watch with binding := .unbound }
        ∧ t.ranges = s.ranges ∧ t.slots = s.slots ∧ Answering (.unbind id cb secret) .ok .empty t)

/-- R96, R97, R25: DEFINE_RANGE is refused REKEY_ACTIVE, OVERLAP or TABLE_FULL with no change of its own; otherwise
the range takes its extent, its attributes, fresh keys, a fresh salt and the next generation, no other range's record
changes, and every admitted transfer on its old or new LBAs is cut. Of its wrap entries none is left but an owner FULL entry
and, with AUTO_OPEN, a DEVICE FULL entry, both under the new range key; those of other ranges stay. A LOCKED range opens
READ_WRITE in the lowest EMPTY slot, or stays LOCKED where there is none, and the answer says which; its sleep mark is clear
(entry 43 of the log). How fresh keys and salts are named is entry 6 of the log. -/
def Obligations.DefineRangeRenewsTheRange : Prop :=
  ∀ (id : BitVec 16) (cb range attrs : Byte) (secret : Secret) (start len : Nat) (c : Fin 8) (key : CredKey)
    (s : State),
    let req : Instr := .defineRange id cb secret range start len attrs
    let r := rangeIx range
    let e : Extent := ⟨start, len⟩
    let a := attributesOf attrs
    Succeeds req c key s → AtRest s →
    let recs := countsReset c s.copies
    let bars := rekeyOn 0 s.copies || rekeyOn r s.copies
    let refused : Code → Prop := fun k => Next (exec .derivationComplete s) fun t =>
      OnlyRecords s t ∧ t.copies = recs ∧ Answering req k .empty t
    (bars = true → refused .rekeyActive)
    ∧ (bars = false → overlapsOther r e s.copies = true → refused .overlap)
    ∧ (bars = false → overlapsOther r e s.copies = false → roomFor r a.autoOpen s.copies = false → refused .tableFull)
    ∧ (bars = false → overlapsOther r e s.copies = false → roomFor r a.autoOpen s.copies = true →
      Next (exec .derivationComplete s) fun t =>
        t.copies.ranges = s.copies.ranges.set r
          { defined := true, extent := some e, attributes := a
            generation := (s.copies.ranges[r].generation + 1) % 65536, salt := ⟨s.draws + 2⟩
            current := some ⟨⟨s.draws + 1⟩, ⟨s.draws⟩⟩, next := none, erased := false }
        ∧ (∀ (g : Fin 32) x, s.adm.table[g] = .admitted x →
          extentsOverlap x.extent e = true ∨ admittedIn r (.admitted x) = true → t.adm.table[g] = .aborting x)
        ∧ (∀ (i : Fin 64) w, t.copies.wraps[i] = some w →
          s.copies.wraps[i] = some w ∧ w.range ≠ r
            ∨ w = ⟨.slot c, r, .full, ⟨s.draws + 2⟩, ⟨⟨s.draws⟩, .cred key⟩⟩
            ∨ a.autoOpen = true ∧ w = ⟨.device, r, .full, ⟨s.draws + 2⟩, ⟨⟨s.draws⟩, .device s.deviceKey⟩⟩)
        ∧ (∀ (i : Fin 64) w, s.copies.wraps[i] = some w → w.range ≠ r → t.copies.wraps[i] = some w)
        ∧ (∃ i : Fin 64, t.copies.wraps[i] = some ⟨.slot c, r, .full, ⟨s.draws + 2⟩, ⟨⟨s.draws⟩, .cred key⟩⟩)
        ∧ (a.autoOpen = true → ∃ i : Fin 64,
          t.copies.wraps[i] = some ⟨.device, r, .full, ⟨s.draws + 2⟩, ⟨⟨s.draws⟩, .device s.deviceKey⟩⟩)
        ∧ (∃ k, (k = .ok ∨ k = .noSlot) ∧ Answering req .ok (.code k) t)
        ∧ (s.ranges[r].run = .locked →
          (∀ (g : Fin 32) x, s.adm.table[g] = .admitted x →
            extentsOverlap x.extent e = false ∧ admittedIn r (.admitted x) = false) →
          (∀ k l, emptySlots s = k :: l →
            t.ranges = s.ranges.set r ⟨.opened ⟨.readWrite, ⟨s.draws⟩, k, none⟩, false⟩
            ∧ t.slots = s.slots.set k (.live r ⟨s.draws + 1⟩ 0) ∧ Answering req .ok (.code .ok) t)
          ∧ (emptySlots s = [] → t.ranges = s.ranges.set r ⟨.locked, false⟩ ∧ t.slots = s.slots
            ∧ Answering req .ok (.code .noSlot) t)))

/-- R71, R72, R90, R59, R94, R106: CHANGE_SECRET, SET_SECRET and SET_REMOTE_TOKEN draw a salt and derive the new secret at
the policy's work factor; SET_SECRET first removes the target's wrap entries; a GRANT to another slot derives the second
secret against the target's verifier. When the derivation ends, CHANGE_SECRET rewraps the entries of the credential that
unwrap under the old key, and the record takes the new verifier; SET_SECRET makes the target ACTIVE; SET_REMOTE_TOKEN
stores the token's verifier; GRANT adds the target's entry under its own key or replaces its access, or is answered
TARGET_MISMATCH, NOT_OPEN where the range has closed meanwhile, or TABLE_FULL, with nothing added. How keys, salts and
verifiers are named is entry 6 of the log; that an entry takes the lowest free record is entry 27. -/
def Obligations.SecretsAreReplaced : Prop :=
  (∀ (id : BitVec 16) (cb target : Byte) (secret new : Secret) (c : Fin 8) (key : CredKey) (s : State), AtRest s →
    s.derive.waiting = [] →
    let recs := countsReset c s.copies
    let derives : Instr → State → Prop := fun req t =>
      t.draws = s.draws + 1 ∧ t.derive.job = some ⟨.security, new, ⟨s.draws⟩, s.copies.policy.workFactor⟩
        ∧ t.derive.waiting = [] ∧ t.ranges = s.ranges ∧ t.slots = s.slots ∧ t.watch = s.watch
        ∧ ∃ j, t.cmd.sec = some j ∧ j.req = req ∧ j.phase = .second ∧ j.keys = [key]
    (Succeeds (.changeSecret id cb secret new) c key s → Next (exec .derivationComplete s) fun t =>
      t.copies = recs ∧ derives (.changeSecret id cb secret new) t)
    ∧ (Succeeds (.setSecret id cb secret target new) c key s → Next (exec .derivationComplete s) fun t =>
      t.copies = { recs with wraps := t.copies.wraps } ∧ derives (.setSecret id cb secret target new) t
      ∧ ∀ k : Fin 64, t.copies.wraps[k] =
        if s.copies.wraps[k].any (fun e => decide (e.holder = .slot (credIx target))) = true then none
        else s.copies.wraps[k])
    ∧ (Succeeds (.setRemoteToken id cb secret new) c key s → new ≠ [] → Next (exec .derivationComplete s) fun t =>
      t.copies = recs ∧ derives (.setRemoteToken id cb secret new) t)
    ∧ ∀ range access q v, Succeeds (.grant id cb secret target range access new) c key s → holderOf target = .slot q →
      q ≠ c → s.copies.creds[q].state ≠ .empty → s.copies.creds[q].verifier = some v →
      (∀ i x, s.copies.wraps[(i : Fin 64)] = some x → isStale s.copies x = false) →
      rangeDefined s.copies (rangeIx range) = true → isOpen s.ranges[rangeIx range].run = true →
      (findWrap (.slot q) (rangeIx range) s.copies).isSome = true ∨ wrapCount s.copies < 64 →
      Next (exec .derivationComplete s) fun t =>
        t.copies = recs ∧ t.draws = s.draws ∧ t.derive.job = some ⟨.security, new, v.salt, v.wf⟩ ∧ t.derive.waiting = []
        ∧ t.ranges = s.ranges ∧ t.slots = s.slots ∧ t.watch = s.watch
        ∧ ∃ j, t.cmd.sec = some j ∧ j.req = .grant id cb secret target range access new ∧ j.phase = .second
          ∧ j.keys = [key])
  ∧ ∀ (id : BitVec 16) (cb target : Byte) (secret new : Secret) (lost : Bool) (j : DerivJob) (old : CredKey) (s : State),
    Between s → s.derive.job = some j → j.channel = .security →
    let key := derived j
    (s.cmd.sec = some ⟨.changeSecret id cb secret new, lost, .second, [old], [], false⟩ →
      (∀ i x, s.copies.wraps[(i : Fin 64)] = some x → isStale s.copies x = false) →
      (∀ i k x y, s.copies.wraps[(i : Fin 64)] = some x → s.copies.wraps[(k : Fin 64)] = some y →
        x.holder = y.holder → x.range = y.range → i = k) →
      let q := credIx cb
      Next (exec .derivationComplete s) fun t =>
        t.copies = { s.copies with
          creds := s.copies.creds.set q { s.copies.creds[q] with verifier := some ⟨key, key.salt, key.wf⟩ }
          wraps := t.copies.wraps }
        ∧ (∀ k : Fin 64, t.copies.wraps[k] = s.copies.wraps[k].map fun e =>
          if e.holder = .slot q ∧ e.wrapped.under = .cred old then { e with wrapped := ⟨e.wrapped.key, .cred key⟩ }
          else e)
        ∧ ∃ l, Answering (.changeSecret id cb secret new) .ok (.rangeList l) t)
    ∧ (s.cmd.sec = some ⟨.setSecret id cb secret target new, lost, .second, [old], [], false⟩ →
      let q := credIx target
      Next (exec .derivationComplete s) fun t =>
        t.copies = { s.copies with creds := s.copies.creds.set q ⟨.active, some ⟨key, key.salt, key.wf⟩, 0⟩ }
        ∧ Answering (.setSecret id cb secret target new) .ok .empty t)
    ∧ (s.cmd.sec = some ⟨.setRemoteToken id cb secret new, lost, .second, [old], [], false⟩ →
      Next (exec .derivationComplete s) fun t =>
        t.copies = { s.copies with token := some ⟨key, key.salt, key.wf⟩ }
        ∧ Answering (.setRemoteToken id cb secret new) .ok .empty t)
    ∧ ∀ range access, s.cmd.sec = some ⟨.grant id cb secret target range access new, lost, .second, [old], [], false⟩ →
      let q := credIx target
      let r := rangeIx range
      let req : Instr := .grant id cb secret target range access new
      let refused : Code → Prop := fun k => Next (exec .derivationComplete s) fun t =>
        t.copies = s.copies ∧ t.store = s.store ∧ AnswerLeft req lost k .empty s t
      (verifies s.copies.creds[q].verifier key = false → refused .targetMismatch)
      ∧ (verifies s.copies.creds[q].verifier key = true →
        (isOpen s.ranges[r].run = false → refused .notOpen)
        ∧ ((∀ i x, s.copies.wraps[(i : Fin 64)] = some x → isStale s.copies x = false) →
          ∀ h, s.ranges[r].run = .opened h →
          (∀ i e, findWrap (.slot q) r s.copies = some i → s.copies.wraps[i] = some e →
            Next (exec .derivationComplete s) fun t =>
              t.copies = { s.copies with wraps := s.copies.wraps.set i (some { e with access := accessOf access }) }
              ∧ Answering req .ok (.code .replaced) t)
          ∧ (findWrap (.slot q) r s.copies = none →
            (freeWrap s.copies = none → refused .tableFull)
            ∧ ∀ i, freeWrap s.copies = some i → Next (exec .derivationComplete s) fun t =>
              t.copies = { s.copies with wraps := s.copies.wraps.set i (some ⟨.slot q, r, accessOf access,
                s.copies.ranges[r].salt, ⟨h.key, .cred key⟩⟩) }
              ∧ Answering req .ok (.code .created) t)))

/-- R98, R27: DELETE_RANGE cuts the transfers admitted in the range, undefines it, locks it, retires its slots and removes
its wrap entries. R100, R25: ERASE_RANGE cuts them too and renews the range with fresh keys, keeping its extent and
attributes: of its wrap entries none is left but an owner FULL entry and, with AUTO_OPEN, a DEVICE FULL entry; it is OPEN
READ_WRITE in a slot of its own, or LOCKED where there is none, as the answer says. R99: SET_RANGE_ATTRIBUTES sets the
attributes, and a range that need no longer be bound leaves the pending set. One that clears AUTO_OPEN removes the DEVICE
entry, and the range leaves the pending set; one that sets it adds a DEVICE FULL entry where there is none, and is
NOT_OPEN for a range not OPEN and TABLE_FULL with 64 entries. Of a range not defined each is BAD_VALUE. That the sleep
mark is clear after a deletion or a renewal is entry 43 of the log, that an entry takes the lowest free record entry 27,
how fresh keys and salts are named entry 6. -/
def Obligations.RangesDeletedErasedAndRelabelled : Prop :=
  ∀ (id : BitVec 16) (cb range attrs : Byte) (secret : Secret) (c : Fin 8) (key : CredKey) (s : State), AtRest s →
    let r := rangeIx range
    let cut : State → Prop := fun t => ∀ (g : Fin 32) x, s.adm.table[g] = .admitted x →
      t.adm.table[g] = if admittedIn r (.admitted x) = true then .aborting x else .admitted x
    let recs := countsReset c s.copies
    let old := s.copies.ranges[r]
    let refused : Instr → Code → Prop := fun req k => Next (exec .derivationComplete s) fun t =>
      OnlyRecords s t ∧ t.copies = recs ∧ Answering req k .empty t
    (Succeeds (.deleteRange id cb secret range) c key s →
      let req : Instr := .deleteRange id cb secret range
      (rekeyBars r s.copies = true → refused req .rekeyActive)
      ∧ (rekeyBars r s.copies = false → rangeDefined s.copies r = false → refused req .badValue)
      ∧ (rekeyBars r s.copies = false → rangeDefined s.copies r = true → Next (exec .derivationComplete s) fun t =>
        t.copies.ranges = s.copies.ranges.set r { old with
          defined := false, extent := none, attributes := ⟨false, false, false⟩, current := none, next := none
          erased := false }
        ∧ (∀ k : Fin 64, t.copies.wraps[k] =
          if s.copies.wraps[k].any (fun e => decide (e.range = r)) = true then none else s.copies.wraps[k])
        ∧ t.ranges[r] = ⟨.locked, false⟩ ∧ r ∉ t.cred.pendingSet ∧ Answering req .ok .empty t ∧ cut t
        ∧ (∀ h, heldBy s.ranges[r].run = some h →
          ¬LiveFor r h.current t ∧ (∀ n, h.next = some n → ¬LiveFor r n t) ∧ (drained r s = true → SlotsRetired h s t))
        ∧ (heldBy s.ranges[r].run = none → drained r s = true → t.slots = s.slots)))
    ∧ (Succeeds (.eraseRange id cb secret range) c key s →
      let req : Instr := .eraseRange id cb secret range
      (rangeDefined s.copies r = false → refused req .badValue)
      ∧ (rangeDefined s.copies r = true → roomFor r old.attributes.autoOpen s.copies = false → refused req .tableFull)
      ∧ (rangeDefined s.copies r = true → roomFor r old.attributes.autoOpen s.copies = true →
        Next (exec .derivationComplete s) fun t =>
          t.copies.ranges = s.copies.ranges.set r { old with
            defined := true, generation := (old.generation + 1) % 65536, salt := ⟨s.draws + 2⟩
            current := some ⟨⟨s.draws + 1⟩, ⟨s.draws⟩⟩, next := none, erased := false }
          ∧ rekeyOn r t.copies = false ∧ cut t
          ∧ (let owner : WrapEntry := ⟨.slot c, r, .full, ⟨s.draws + 2⟩, ⟨⟨s.draws⟩, .cred key⟩⟩
            let device : WrapEntry := ⟨.device, r, .full, ⟨s.draws + 2⟩, ⟨⟨s.draws⟩, .device s.deviceKey⟩⟩
            (∀ (i : Fin 64) w, t.copies.wraps[i] = some w →
              s.copies.wraps[i] = some w ∧ w.range ≠ r ∨ w = owner ∨ old.attributes.autoOpen = true ∧ w = device)
            ∧ (∀ (i : Fin 64) w, s.copies.wraps[i] = some w → w.range ≠ r → t.copies.wraps[i] = some w)
            ∧ (∃ i : Fin 64, t.copies.wraps[i] = some owner)
            ∧ (old.attributes.autoOpen = true → ∃ i : Fin 64, t.copies.wraps[i] = some device))
          ∧ ((Answering req .ok (.code .ok) t ∧ ∃ k : Fin 18,
              t.ranges[r] = ⟨.opened ⟨.readWrite, ⟨s.draws⟩, k, none⟩, false⟩
              ∧ ∃ n, t.slots[k] = .live r ⟨s.draws + 1⟩ n)
            ∨ Answering req .ok (.code .noSlot) t ∧ t.ranges[r] = ⟨.locked, false⟩)
          ∧ (∀ h o m, s.ranges[r].run = .opened h → s.slots[h.current] = .live o m 0 → Answering req .ok (.code .ok) t)
          ∧ (heldBy s.ranges[r].run = none → drained r s = true → rekeyOn r s.copies = false →
            (∀ k l, emptySlots s = k :: l →
              t.ranges = s.ranges.set r ⟨.opened ⟨.readWrite, ⟨s.draws⟩, k, none⟩, false⟩
              ∧ t.slots = s.slots.set k (.live r ⟨s.draws + 1⟩ 0))
            ∧ (emptySlots s = [] → t.ranges = s.ranges.set r ⟨.locked, false⟩ ∧ t.slots = s.slots))))
    ∧ (Succeeds (.setRangeAttributes id cb secret range attrs) c key s →
      (∀ i x, s.copies.wraps[(i : Fin 64)] = some x → isStale s.copies x = false) →
      let req : Instr := .setRangeAttributes id cb secret range attrs
      let a := attributesOf attrs
      (rangeDefined s.copies r = false → refused req .badValue)
      ∧ (rangeDefined s.copies r = true → a.autoOpen = old.attributes.autoOpen →
        Next (exec .derivationComplete s) fun t =>
          t.copies = { recs with ranges := s.copies.ranges.set r { old with attributes := a } }
          ∧ t.cred.pendingSet = (if old.attributes.bindingRequired = true ∧ a.bindingRequired = false then
              s.cred.pendingSet.filter fun q => q != r else s.cred.pendingSet)
          ∧ t.ranges = s.ranges ∧ t.slots = s.slots ∧ Answering req .ok .empty t)
      ∧ (rangeDefined s.copies r = true → old.attributes.autoOpen = true → a.autoOpen = false →
        Next (exec .derivationComplete s) fun t =>
          t.copies = { recs with
            ranges := s.copies.ranges.set r { old with attributes := a }, wraps := t.copies.wraps }
          ∧ (∀ k : Fin 64, t.copies.wraps[k] =
            if s.copies.wraps[k].any (fun e => decide (e.holder = .device ∧ e.range = r)) = true then none
            else s.copies.wraps[k])
          ∧ t.cred.pendingSet = s.cred.pendingSet.filter (fun q => q != r)
          ∧ t.ranges = s.ranges ∧ t.slots = s.slots ∧ Answering req .ok .empty t)
      ∧ (rangeDefined s.copies r = true → old.attributes.autoOpen = false → a.autoOpen = true →
        (findWrap .device r s.copies = none →
          (isOpen s.ranges[r].run = false → refused req .notOpen)
          ∧ ∀ h, s.ranges[r].run = .opened h →
            (64 ≤ wrapCount s.copies → refused req .tableFull)
            ∧ ∀ k, wrapCount s.copies < 64 → freeWrap s.copies = some k → Next (exec .derivationComplete s) fun t =>
              t.copies = { recs with
                ranges := s.copies.ranges.set r { old with attributes := a }
                wraps := s.copies.wraps.set k (some ⟨.device, r, .full, old.salt, ⟨h.key, .device s.deviceKey⟩⟩) }
              ∧ t.ranges = s.ranges ∧ t.slots = s.slots ∧ Answering req .ok .empty t)
        ∧ ((findWrap .device r s.copies).isSome = true → Next (exec .derivationComplete s) fun t =>
          t.copies = { recs with ranges := s.copies.ranges.set r { old with attributes := a } }
          ∧ t.ranges = s.ranges ∧ t.slots = s.slots ∧ Answering req .ok .empty t)))

/-- R111 to R113: REKEY_START of a range not OPEN at READ_WRITE is NOT_OPEN, with a rekey there REKEY_ACTIVE, without
an EMPTY slot NO_SLOT; otherwise a media key is drawn and sealed as the range's next, the lowest EMPTY slot takes it,
and the record starts RUNNING. (A rekey with nothing to move, and the first window, are no part of this.) REKEY_RESUME takes
up a FAULTED record alone. That closing steps still owed count as a rekey is entry 18 of the log; how keys are named, and
what sealing gives, is entry 6. -/
def Obligations.RekeyStartsAndResumes : Prop :=
  ∀ (id : BitVec 16) (cb range : Byte) (secret : Secret) (c : Fin 8) (key : CredKey) (s : State), AtRest s →
    let r := rangeIx range
    let recs := countsReset c s.copies
    let refused : Instr → Code → Prop := fun req k => Next (exec .derivationComplete s) fun t =>
      OnlyRecords s t ∧ t.copies = recs ∧ Answering req k .empty t
    (Succeeds (.rekeyStart id cb secret range) c key s →
      let req : Instr := .rekeyStart id cb secret range
      ((∀ h, s.ranges[r].run = .opened h → h.level = .readOnly) → refused req .notOpen)
      ∧ ∀ h, s.ranges[r].run = .opened h → h.level = .readWrite →
        (s.copies.rekey.isSome = true ∨ s.rekey.completing = true → refused req .rekeyActive)
        ∧ (s.copies.rekey = none → s.rekey.completing = false →
          (emptySlots s = [] → refused req .noSlot)
          ∧ ∀ k l, emptySlots s = k :: l → startFrontier s.copies r ≠ rangeEnd s.copies r →
            Next (exec .derivationComplete s) fun t =>
              t.copies = { recs with
                ranges := s.copies.ranges.set r { s.copies.ranges[r] with next := some ⟨⟨s.draws⟩, h.key⟩ }
                rekey := some ⟨r, startFrontier s.copies r, 0, .running,
                  (s.copies.ranges[r].generation + 1) % 65536⟩ }
              ∧ t.draws = s.draws + 1
              ∧ t.ranges = s.ranges.set r { s.ranges[r] with run := .opened { h with next := some k } }
              ∧ t.slots = s.slots.set k (.live r ⟨s.draws⟩ 0) ∧ t.rekey = s.rekey
              ∧ Answering req .ok .empty t))
    ∧ (Succeeds (.rekeyResume id cb secret) c key s →
      let req : Instr := .rekeyResume id cb secret
      ((∀ k, s.copies.rekey = some k → k.state ≠ .faulted) → refused req .notFaulted)
      ∧ ∀ k, s.copies.rekey = some k → k.state = .faulted → Next (exec .derivationComplete s) fun t =>
        OnlyRecords s t ∧ t.copies = { recs with rekey := some { k with state := .running, retry := 0 } }
        ∧ Answering req .ok .empty t)

/-- R102, R103: SET_POLICY's test asks for the policy record's write and leaves the policy in force; when the write is
done the clamped policy is in force and the request is answered with it, at once or after the writes that its coming into
force has asked for; a lost answer gives COMMAND_LOST. A running hold-off timer keeps its seconds. R103, R144: the score
is then evaluated against the new thresholds, and a check-in or a decay period that is due by the new g_max or P expires
at once: a check-in missed is evidence, and the decay step comes off the score, each evaluated. When the policy comes into
force, and in what order its consequences are taken, is entry 12 of the log; that the watch is ERASING in the event that
starts an erase is entry 7. -/
def Obligations.PolicyTakesEffectWhenWritten : Prop :=
  (∀ (id : BitVec 16) (cb : Byte) (secret : Secret) (l : List Byte) (c : Fin 8) (key : CredKey) (s : State),
    Succeeds (.setPolicy id cb secret l) c key s → AtRest s → Next (exec .derivationComplete s) fun t =>
      OnlyRecords s t ∧ t.copies = countsReset c s.copies
      ∧ (∃ p ∈ t.store.active.toList ++ t.store.queue, p.what = .policy (readPolicy l))
      ∧ ∃ j, t.cmd.sec = some j ∧ j.phase = .policyWrite (readPolicy l))
  ∧ ∀ (req : Instr) (lost : Bool) (p : Policy) (keys : List CredKey) (w : PendingWrite) (s : State),
    Between s → s.store.waits = [] → s.cmd.plat = none → s.store.active = some w →
    s.cmd.sec = some ⟨req, lost, .policyWrite p, keys, [w.id], false⟩ → Next (exec .storeWriteComplete s) fun t =>
      let old := s.copies.watch
      let missed := s.watch.supervision = .armed ∧ p.gMax ≤ s.watch.checkin
      let scored : Nat → WatchRec → WatchRec := fun n v => if alive v.state = true then ⟨watchAt p v.state n, n⟩ else v
      let judged := scored old.score old
      let told := if missed then scored (min 255 (judged.score + p.weights[(4 : Fin 14)])) judged else judged
      let decay := if calm told.state = true then s.watch.decay else none
      let decays := ∃ e, decay = some e ∧ 60 * p.decayPeriod ≤ e
      t.copies.policy = p ∧ t.cred.holdoff = s.cred.holdoff
        ∧ t.store.nv = applyWrite w.what s.store.nv
        ∧ (Answering req .ok (.policy p) t ∨ AnswerLeft req lost .ok (.policy p) s t)
        ∧ (calm old.state = true ∨ s.watch.decay = none →
          t.copies.watch = (if decays then scored (told.score - p.decayStep) told else told)
          ∧ (decays → t.watch.decay = if calm t.copies.watch.state = true then some 0 else none)
          ∧ (¬decays → t.watch.decay = decay))
        ∧ t.watch.checkin = (if missed then 0 else s.watch.checkin)
        ∧ (missed → ∃ i ∈ t.copies.incidents, i.kind = .evidence .checkinMissed)

/-- R149, R157, R158: ERASE_ALL starts an erase with cause OWNER: the journal stands at step 0, the watch is ERASING,
and the answer waits for step 0. That the watch is ERASING in the same event is entry 7 of the log; that no order, done mark
or retry count of an earlier erase stands is entry 58. -/
def Obligations.EraseAllStartsTheErase : Prop :=
  ∀ (id : BitVec 16) (cb : Byte) (secret : Secret) (c : Fin 8) (key : CredKey) (s : State),
    Succeeds (.eraseAll id cb secret) c key s → AtRest s → Next (exec .derivationComplete s) fun t =>
      t.copies = { countsReset c s.copies with
        watch := ⟨.erasing, 0⟩, journal := some ⟨.owner, 0, 0, [], none⟩ }
      ∧ t.erase.orders = [] ∧ t.erase.done = [] ∧ t.erase.retries = []
      ∧ t.ranges = s.ranges ∧ t.slots = s.slots ∧ t.adm = s.adm
      ∧ ∃ j, t.cmd.sec = some j ∧ j.phase = .answering .ok (.eraseStep 0) ∧ j.awaitsErase = true

/-- R170: REPROVISION renews range 0 and every defined range, opens those that find a slot, clears every own count and
removes the journal. From an empty wrap table each renewed range has an owner FULL entry under its new range key and, with
AUTO_OPEN, a DEVICE FULL entry, and there is no other. The watch stays ERASED until these are written: a descriptor that
is no READ is still refused ERASING. Then the watch enters SETTLED with S = 0, the decay timer starts at 0, and the answer
lists the ranges opened. That the watch waits for the writes is entry 49 of the log; in which records the entries stand is
entries 27 and 62; how keys and salts are named is entry 6. -/
def Obligations.ReprovisionRenewsTheDrive : Prop :=
  (∀ (id : BitVec 16) (cb : Byte) (secret : Secret) (c : Fin 8) (key : CredKey) (s : State),
    Succeeds (.reprovision id cb secret) c key s → s.copies.watch.state = .erased →
    Next (exec .derivationComplete s) fun t =>
      t.copies.watch = s.copies.watch ∧ t.copies.journal = none
      ∧ (∀ d : Fin 8, t.copies.creds[d] = { s.copies.creds[d] with ownCount := 0 })
      ∧ (∀ r : Fin 16, rangeDefined s.copies r = false → t.copies.ranges[r] = s.copies.ranges[r])
      ∧ (∀ r : Fin 16, rangeDefined s.copies r = true →
        ∃ n, s.draws ≤ n ∧ t.copies.ranges[r] = { s.copies.ranges[r] with
          defined := true, generation := (s.copies.ranges[r].generation + 1) % 65536, salt := ⟨n + 2⟩
          current := some ⟨⟨n + 1⟩, ⟨n⟩⟩, next := none, erased := false })
      ∧ (let owner : Fin 16 → SealedKey → WrapEntry := fun r x =>
          ⟨.slot c, r, .full, t.copies.ranges[r].salt, ⟨x.under, .cred key⟩⟩
        let device : Fin 16 → SealedKey → WrapEntry := fun r x =>
          ⟨.device, r, .full, t.copies.ranges[r].salt, ⟨x.under, .device s.deviceKey⟩⟩
        (∀ (i : Fin 64) w, t.copies.wraps[i] = some w → s.copies.wraps[i] = some w ∧ rangeDefined s.copies w.range = false
          ∨ rangeDefined s.copies w.range = true ∧ ∃ x, t.copies.ranges[w.range].current = some x
            ∧ (w = owner w.range x ∨ s.copies.ranges[w.range].attributes.autoOpen = true ∧ w = device w.range x))
        ∧ ((∀ i : Fin 64, s.copies.wraps[i] = none) → ∀ r x, rangeDefined s.copies r = true →
          t.copies.ranges[r].current = some x → (∃ i : Fin 64, t.copies.wraps[i] = some (owner r x))
            ∧ (s.copies.ranges[r].attributes.autoOpen = true → ∃ i : Fin 64, t.copies.wraps[i] = some (device r x))))
      ∧ (LinkTakes s → ∀ tag cls start count order, cls ≠ .read →
        exec (.xferOpen tag cls start count order) t = .next (sent (.xferRefuse tag .erasing none) t))
      ∧ ∃ l j, t.cmd.sec = some j ∧ j.req = .reprovision id cb secret ∧ j.phase = .reprovisioning l
        ∧ ((∀ k : Fin 18, s.slots[k] = .empty) → (∀ r : Fin 16, heldBy s.ranges[r].run = none) → ∀ r : Fin 16,
          (r ∈ l ↔ rangeDefined s.copies r = true)
          ∧ (r ∈ l → ∃ h, t.ranges[r].run = .opened h ∧ h.level = .readWrite ∧ h.next = none)))
  ∧ ∀ (req : Instr) (lost : Bool) (l : List (Fin 16)) (keys : List CredKey) (p : PendingWrite) (s : State), Between s →
    s.store.active = some p → s.store.waits = [] → s.cmd.plat = none → s.copies.watch.state = .erased →
    s.cmd.sec = some ⟨req, lost, .reprovisioning l, keys, [p.id], false⟩ →
    Next (exec .storeWriteComplete s) fun t =>
      t.copies = { s.copies with
        watch := ⟨.settled, 0⟩
        incidents := joinIncident ⟨.stateChange .settled, s.copies.boot, s.uptime, 0⟩ s.copies.incidents }
      ∧ t.watch = { s.watch with decay := some 0 } ∧ t.ranges = s.ranges ∧ t.slots = s.slots ∧ t.adm = s.adm
      ∧ t.cmd.secQueue = joinQueue 32 ⟨.watchState .settled, false, s.cmd.seq⟩ s.cmd.secQueue
      ∧ t.cmd.platQueue = joinQueue 16 ⟨.watchState .settled, false, s.cmd.seq + 1⟩ s.cmd.platQueue
      ∧ Answering req .ok (.rangeList l) t

/-! ## Closes and slots -/

/-- R13, R22, R23: CLOSE_COMPLETE locks a drained CLOSING range and retires its slots, and does nothing to any other; a
LOCK that waited for this close alone is answered, after the write of the record that it made PAUSED (R108; entry 14 of
the log). A DRAINING slot without a pin becomes EMPTY. When the close deadline reaches 0 the range's admitted transfers
are ABORTING, the others as they were, and the range is LOCKED. R121: of the range under rekey the record is PAUSED and an
intended window withdrawn. With seconds left the expiry is no event (entry 4); completions happen in the event that allows
them (entry 13). -/
def Obligations.ClosesCompleteAndExpire : Prop :=
  ∀ s : State, Between s →
    (∀ (r : Fin 16),
      ((∀ h d ws, s.ranges[r].run ≠ .closing h d ws) → exec (.closeComplete r) s = .next s
        ∧ exec (.closeDeadlineExpiry r) s = .next s)
      ∧ ∀ h d ws, s.ranges[r].run = .closing h d ws →
        (drained r s = false → exec (.closeComplete r) s = .next s)
        ∧ (drained r s = true → h.next = none → rekeyOn r s.copies = false → s.rekey.seen = none → NoCloseAwaited s →
          exec (.closeComplete r) s = .next { s with
            ranges := s.ranges.set r { s.ranges[r] with run := .locked }
            slots := s.slots.set h.current (retiredSlot s.slots[h.current]) })
        ∧ (drained r s = true → Next (exec (.closeComplete r) s) fun t =>
          t.ranges = s.ranges.set r { s.ranges[r] with run := .locked } ∧ SlotsRetired h s t ∧ t.adm = s.adm
          ∧ (rekeyOn r s.copies = false → t.copies = s.copies)
          ∧ (∀ k, s.copies.rekey = some k → k.range = r →
            t.copies = { s.copies with rekey := some { k with state := .paused } } ∧ t.rekey = windowWithdrawn s.rekey)
          ∧ ∀ j, s.cmd.sec = some j → j.phase = .closing → j.lost = false → j.writes = [] → j.awaitsErase = false →
            .security ∈ ws → (∀ q : Fin 16, q ≠ r → .security ∉ waitersOf s.ranges[q].run) →
            let writes := ∃ k, s.copies.rekey = some k ∧ k.range = r ∧ k.state ≠ .paused
            (writes → Answering j.req .ok .empty t)
            ∧ (¬writes → s.drive.up = true → t.cmd.sec = none
              ∧ .secAnswer (requestId j.req) (answerKind j.req) .ok .empty ∈ t.drive.outbox))
        ∧ (d ≠ 0 → exec (.closeDeadlineExpiry r) s = .next s)
        ∧ (d = 0 → Next (exec (.closeDeadlineExpiry r) s) fun t =>
          t.ranges[r].run = .locked ∧ t.copies = { s.copies with rekey := t.copies.rekey }
          ∧ (∀ k, s.copies.rekey = some k → k.range = r → t.copies.rekey = some { k with state := .paused }
            ∧ (s.rekey.intended = none → t.rekey = s.rekey))
          ∧ ∀ g : Fin 32, t.adm.table[g] = match s.adm.table[g] with
            | .admitted x => if admittedIn r (.admitted x) = true then .aborting x else .admitted x
            | e => e))
    ∧ ∀ k : Fin 18,
      (∀ o m, s.slots[k] = .draining o m 0 → exec (.slotDrainComplete k) s = .next { s with
        slots := s.slots.set k .empty })
      ∧ ((∀ o m, s.slots[k] ≠ .draining o m 0) → exec (.slotDrainComplete k) s = .next s)

/-! ## Timers -/

/-- R73: the hold-off length, from a policy within the ranges R102 keeps it in; and a policy that comes into force leaves
a running timer alone. -/
def Obligations.HoldoffLengthFollowsTheCount : Prop :=
  ∀ (p : Policy) (w : WatchState) (n : Nat),
    let F := if w = .settled then p.freeAttempts else 0
    (n ≤ F → holdoffLength p w n = 0)
    ∧ (F < n → n - F - 1 < 17 → holdoffLength p w n = min p.holdCap (p.holdBase * 2 ^ (n - F - 1)))
    ∧ (F < n → 17 ≤ n - F - 1 → holdoffLength p w n = p.holdCap)
    ∧ (Policy.default.freeAttempts = 3 ∧ Policy.default.holdBase = 5 ∧ Policy.default.holdCap = 3600)
    ∧ (∀ l, (readPolicy l).freeAttempts ≤ 7 ∧ 1 ≤ (readPolicy l).holdBase ∧ (readPolicy l).holdBase ≤ 60
      ∧ 60 ≤ (readPolicy l).holdCap ∧ (readPolicy l).holdCap ≤ 86400)
    ∧ (1 ≤ p.holdBase → p.holdCap ≤ 86400 → 17 ≤ n - F - 1 → F < n →
      holdoffLength p w n = min p.holdCap (p.holdBase * 2 ^ (n - F - 1)))
    ∧ ∀ s : State, (policyWritten p s).cred.holdoff = s.cred.holdoff

/-- R127, R131, R133, R147: at the binding deadline a part still UNKNOWN becomes ABSENT with evidence, and WAITING
supervision is ARMED; when g_max seconds have passed a missed check-in is evidence and restarts its timer; when a decay
period has passed a decay step lowers the score, which is evaluated. R74: at 0 the hold-off timer stops and HOLDOFF_END is
queued with the charged count. A timer that is stopped, or not due, gives nothing (entry 4 of the log); that evidence makes
the watch ERASING in the same event is entry 7. -/
def Obligations.TimersExpire : Prop :=
  ∀ s : State, Between s →
    (s.cred.holdoff ≠ some 0 → exec .holdoffExpiry s = .next s) ∧
    (s.cred.holdoff = some 0 →
      let q := joinQueue 32 ⟨.holdoffEnd s.copies.charged, false, s.cmd.seq⟩ s.cmd.secQueue
      exec .holdoffExpiry s = .next { s with
        cred := { s.cred with holdoff := none }
        cmd := { s.cmd with secQueue := q, secAttn := attention q s.cmd.secMask, seq := s.cmd.seq + 1 } }) ∧
    (s.watch.deadline ≠ some 0 → exec .bindingDeadlineExpiry s = .next s)
    ∧ (s.watch.deadline = some 0 → Next (exec .bindingDeadlineExpiry s) fun t =>
      t.watch.deadline = none
      ∧ t.watch.binding = (if s.watch.binding = .unknown then .absent else s.watch.binding)
      ∧ t.watch.supervision = (if s.watch.supervision = .waiting then .armed else s.watch.supervision)
      ∧ t.watch.checkin = (if s.watch.supervision = .waiting then 0 else s.watch.checkin)
      ∧ (s.watch.binding = .unknown → EvidenceTaken .bindingAbsent s t)
      ∧ (s.watch.binding ≠ .unknown → t = { s with watch := t.watch }))
    ∧ (s.watch.supervision ≠ .armed ∨ s.watch.checkin < s.copies.policy.gMax → exec .checkinTimerExpiry s = .next s)
    ∧ (s.watch.supervision = .armed → s.copies.policy.gMax ≤ s.watch.checkin → Next (exec .checkinTimerExpiry s) fun t =>
      t.watch.checkin = 0 ∧ t.watch.supervision = .armed ∧ t.watch.binding = s.watch.binding
      ∧ EvidenceTaken .checkinMissed s t)
    ∧ ((∀ n, s.watch.decay = some n → n < 60 * s.copies.policy.decayPeriod) → exec .decayTimerExpiry s = .next s)
    ∧ (∀ n, s.watch.decay = some n → 60 * s.copies.policy.decayPeriod ≤ n → calm s.copies.watch.state = true → Next (exec .decayTimerExpiry s) fun t =>
      let score := s.copies.watch.score - s.copies.policy.decayStep
      t.copies.watch = ⟨watchAt s.copies.policy s.copies.watch.state score, score⟩
      ∧ (calm t.copies.watch.state = true → t.watch = { s.watch with decay := some 0 })
      ∧ (t.copies.watch.state = s.copies.watch.state → t.copies.incidents = s.copies.incidents))

/-- R151, R152: an edge sets the level; one that its line's mode does not name, or that finds the hold-down running, does
nothing more; any other is evidence LINE_n with the level, and starts the hold-down unless its time is 0. When the
hold-down reaches 0 the timer stops, and nothing more; with seconds left its expiry is no event (entry 4 of the log). That
a level which does not change is no edge is entry 40 of the log; that evidence makes the watch ERASING in the same event
is entry 7. -/
def Obligations.WatchLineEdgesAreJudged : Prop :=
  ∀ (n : Fin 4) (level : Bool) (s : State), Between s →
    (s.watch.holdDowns[n] = some 0 → exec (.holdDownExpiry n) s
      = .next { s with watch := { s.watch with holdDowns := s.watch.holdDowns.set n none } })
    ∧ (s.watch.holdDowns[n] ≠ some 0 → exec (.holdDownExpiry n) s = .next s)
    ∧ (s.phase = .running →
      let qualifies := (s.copies.policy.lineModes[n] = .rise ∧ level = true)
        ∨ (s.copies.policy.lineModes[n] = .fall ∧ level = false) ∨ s.copies.policy.lineModes[n] = .both
      let seen : State := { s with watch := { s.watch with levels := s.watch.levels.set n level } }
      (s.watch.levels[n] = level → exec (.watchLineEdge n level) s = .next s)
      ∧ (s.watch.levels[n] ≠ level → ¬qualifies → exec (.watchLineEdge n level) s = .next seen)
      ∧ (s.watch.levels[n] ≠ level → qualifies → s.watch.holdDowns[n].isSome = true →
        exec (.watchLineEdge n level) s = .next seen)
      ∧ (s.watch.levels[n] ≠ level → qualifies → s.watch.holdDowns[n] = none →
        Next (exec (.watchLineEdge n level) s) fun t =>
          EvidenceTaken (.line n level) s t
          ∧ t.watch.levels = s.watch.levels.set n level
          ∧ t.watch.holdDowns = s.watch.holdDowns.set n
            (if s.copies.policy.lineHold[n] = 0 then none else some s.copies.policy.lineHold[n])))

/-! ## The platform channel -/

/-- R128, R129, R126: BIND keeps its word; without a stored digest nothing more; a word whose digest is stored makes the
part MATCHED; any other makes it MISMATCHED with evidence, and where it was MATCHED every BINDING_REQUIRED range that was
OPEN closes. The other ranges stay unless the evidence raises the alarm. That the digest is the word is entry 8 of the
log; entry 7 says when the watch is ERASING, entry 15 when the answer falls due. -/
def Obligations.BindJudgesTheWord : Prop :=
  ∀ (w : BindingWord) (s : State), MessageTaken s →
    let kept : TheftWatch := { s.watch with lastWord := some w }
    (s.copies.digest = none → exec (.bind w) s = .next (answered 0x01 .ok .empty { s with watch := kept }))
    ∧ (s.copies.digest = some ⟨w⟩ → s.cred.pendingSet = [] →
      exec (.bind w) s = .next (answered 0x01 .ok .empty { s with watch := { kept with binding := .matched } }))
    ∧ ∀ d, s.copies.digest = some d → d ≠ ⟨w⟩ → Next (exec (.bind w) s) fun t =>
      t.watch.binding = .mismatched ∧ t.watch.lastWord = some w
      ∧ EvidenceTaken (.bindingMismatch 0) s t
      ∧ (s.watch.binding = .matched → ∀ r : Fin 16, s.copies.ranges[r].attributes.bindingRequired = true →
        isOpen t.ranges[r].run = false)
      ∧ ((t.copies.watch.state = .alarmed → s.copies.watch.state = .alarmed) → ∀ r : Fin 16,
        s.watch.binding ≠ .matched ∨ s.copies.ranges[r].attributes.bindingRequired = false →
        t.ranges[r] = s.ranges[r])
      ∧ t.platform = { s.platform with buffer := some (.answer 0x01 .ok .empty) } ∧ t.cmd.plat = none

/-- R132: how a CHECKIN is judged. That the digest is the word is entry 8 of the log; entry 7 says when the watch is
ERASING, entry 15 when the answer falls due. -/
def Obligations.CheckinJudgedBySupervision : Prop :=
  ∀ (w : BindingWord) (s : State), MessageTaken s →
    let c : Instr := .checkin w
    let good := s.watch.binding = .unbound ∨ s.copies.digest = some ⟨w⟩
    let judged : Code → Evidence → Prop := fun k e => Next (exec c s) fun t =>
      t.platform = { s.platform with buffer := some (.answer 0x02 k .empty) } ∧ t.cmd.plat = none
      ∧ EvidenceTaken e s t ∧ t.watch = { s.watch with decay := t.watch.decay }
    let accepted := exec c s = .next (answered 0x02 .accepted .empty
      { s with watch := { s.watch with supervision := .armed, checkin := 0 } })
    (s.watch.supervision = .off ∨ s.watch.supervision = .suspended →
      exec c s = .next (answered 0x02 .notNow .empty s))
    ∧ (s.watch.supervision = .waiting → (good → accepted) ∧ (¬good → judged .wrongWord (.bindingMismatch 1)))
    ∧ (s.watch.supervision = .armed →
      (¬good → judged .wrongWord (.bindingMismatch 1))
      ∧ (good → s.watch.checkin < s.copies.policy.gMin → judged .early (.checkinEarly s.watch.checkin))
      ∧ (good → s.copies.policy.gMin ≤ s.watch.checkin → accepted))
    ∧ Policy.default.weights[evidenceIx (.checkinEarly 0)] = 16

/-- R134 to R136: SLEEP is NOT_NOW while ERASING and ALREADY while asleep, and otherwise suspends supervision; with no
range to close it is answered at once. Each LOCK_ON_SLEEP range that is OPEN closes, at once if drained, and is marked if
it is AUTO_OPEN; a CLOSING one takes SLEEP as a further waiter; while a close is awaited so is the answer. WAKE is ALREADY
while awake, and otherwise clears every mark and arms supervision again. -/
def Obligations.SleepAndWakeSuspendSupervision : Prop :=
  ∀ s : State, MessageTaken s →
    (s.copies.watch.state = .erasing → exec .sleep s = .next (answered 0x03 .notNow .empty s))
    ∧ (s.copies.watch.state ≠ .erasing →
      (s.watch.sleep = .asleep → exec .sleep s = .next (answered 0x03 .already .empty s))
      ∧ (s.watch.sleep = .awake →
        (∀ r : Fin 16, s.copies.ranges[r].attributes.lockOnSleep = false) → awaited .sleep s = false →
        NoCloseAwaited s → exec .sleep s = .next (answered 0x03 .ok .empty { s with watch := { s.watch with
          sleep := .asleep
          supervision := if s.watch.supervision = .off then .off else .suspended
          checkin := 0 } }))
      ∧ (s.watch.sleep = .awake → Next (exec .sleep s) fun t =>
        t.watch = { s.watch with
          sleep := .asleep
          supervision := if s.watch.supervision = .off then .off else .suspended
          checkin := 0 }
        ∧ (∀ r : Fin 16, t.ranges[r] =
          if s.copies.ranges[r].attributes.lockOnSleep = true then
            match s.ranges[r].run with
            | .opened h => ⟨if drained r s = true then .locked else .closing h 2 [.sleep],
                s.ranges[r].sleepMark || s.copies.ranges[r].attributes.autoOpen⟩
            | .closing h d ws => ⟨.closing h d (ws ++ [.sleep]), s.ranges[r].sleepMark⟩
            | _ => s.ranges[r]
          else s.ranges[r])
        ∧ t.copies = { s.copies with rekey := t.copies.rekey } ∧ t.cred = s.cred
        ∧ (awaited .sleep t = true → t.cmd.plat = some ⟨0x03, false, .closing, [], false⟩)
        ∧ (awaited .sleep t = false → t.cmd.plat = none
          ∧ t.platform = { s.platform with buffer := some (.answer 0x03 .ok .empty) })))
    ∧ (s.watch.sleep = .awake → exec .wake s = .next (answered 0x04 .already .empty s))
    ∧ (s.watch.sleep = .asleep → (∀ r : Fin 16, s.ranges[r].sleepMark = false) →
      exec .wake s = .next (answered 0x04 .ok .empty { s with watch := { s.watch with
        sleep := .awake
        supervision := if s.watch.supervision = .suspended then .armed else s.watch.supervision
        checkin := if s.watch.supervision = .suspended then 0 else s.watch.checkin } }))
    ∧ (s.watch.sleep = .asleep → Next (exec .wake s) fun t =>
      t.watch = { s.watch with
        sleep := .awake
        supervision := if s.watch.supervision = .suspended then .armed else s.watch.supervision
        checkin := if s.watch.supervision = .suspended then 0 else s.watch.checkin }
      ∧ ∀ r : Fin 16, t.ranges[r].sleepMark = false ∧ (s.ranges[r].sleepMark = false → t.ranges[r] = s.ranges[r]))

/-- R137: ALERT with a severity above 3 is BAD_VALUE without evidence; otherwise its evidence is taken in every state,
and a read after it reports the watch state that results. That the watch is ERASING in the event of an erase's start
is entry 7 of the log; that the answer falls due at once is entry 15. -/
def Obligations.AlertGivesEvidence : Prop :=
  ∀ (sev : Byte) (s : State), MessageTaken s →
    (3 < sev.toNat → exec (.alert sev) s = .next (answered 0x05 .badValue .empty s))
    ∧ (∀ k : Fin 4, sev.toNat = k → Next (exec (.alert sev) s) fun t =>
      EvidenceTaken (.alert k) s t
      ∧ t.platform = { s.platform with buffer := some (.answer 0x05 .ok .empty) } ∧ t.cmd.plat = none
      ∧ t.watch.binding = s.watch.binding ∧ t.watch.supervision = s.watch.supervision
      ∧ Next (exec .platformRead t) fun u =>
        u.platform.lastRead = some ⟨0x05, .ok, platStatus t, .empty⟩
          ∧ (platStatus t).watch = t.copies.watch.state)
    ∧ Policy.default.weights[evidenceIx (.alert 0)] = 8 ∧ Policy.default.weights[evidenceIx (.alert 1)] = 24
    ∧ Policy.default.weights[evidenceIx (.alert 2)] = 64 ∧ Policy.default.weights[evidenceIx (.alert 3)] = 128

/-- R138, R139: REMOTE_ERASE is NOT_SET without a token and NOT_NOW while ERASING or ERASED; otherwise its token is
derived against a copy of the verifier. A match starts the erase with cause REMOTE; a mismatch is evidence, and
DENIED. That a key matches its own verifier alone is entry 6 of the log; entry 7 says when the watch is ERASING, entry
16 which answers wait. -/
def Obligations.RemoteEraseTestsItsToken : Prop :=
  (∀ (l : Secret) (s : State), MessageTaken s → 8 ≤ l.length → l.length ≤ 64 →
    (s.copies.token = none → exec (.remoteErase l) s = .next (answered 0x06 .notSet .empty s))
    ∧ ∀ v, s.copies.token = some v →
      (alive s.copies.watch.state = false → exec (.remoteErase l) s = .next (answered 0x06 .notNow .empty s))
      ∧ (alive s.copies.watch.state = true →
        let j : DerivJob := ⟨.platform, l, v.salt, v.wf⟩
        exec (.remoteErase l) s = .next { s with
          platform := { s.platform with buffer := none }
          cmd := { s.cmd with plat := some ⟨0x06, false, .token v, [], false⟩ }
          derive := if s.derive.job = none then { s.derive with job := some j }
            else { s.derive with waiting := s.derive.waiting ++ [j] } }))
  ∧ ∀ (j : DerivJob) (v : Verifier) (s : State), Between s → s.derive.job = some j → j.channel = .platform →
    s.cmd.plat = some ⟨0x06, false, .token v, [], false⟩ → alive s.copies.watch.state = true →
    (v.check = derived j → Next (exec .derivationComplete s) fun t =>
      t.copies = { s.copies with
        watch := ⟨.erasing, s.copies.watch.score⟩, journal := some ⟨.remote, 0, 0, [], none⟩ }
      ∧ t.cmd = { s.cmd with plat := some ⟨0x06, false, .answering .ok, [], true⟩ })
    ∧ (v.check ≠ derived j → Next (exec .derivationComplete s) fun t =>
      EvidenceTaken .remoteTokenBad s t
      ∧ (t.copies.watch.state = .erasing → t.cmd.plat = some ⟨0x06, false, .answering .denied, [], true⟩)
      ∧ (t.copies.watch.state ≠ .erasing → t.cmd.plat = none
        ∧ t.platform = { s.platform with buffer := some (.answer 0x06 .denied .empty) }))

/-- R177, R180, R181: PLATFORM_FETCH leaves its placeholder; PLATFORM_SET_MASK replaces the mask and sets the line anew; a
read returns the answer and empties the buffer, delivers up to eight entries for a fetch, and answers IN_PROGRESS or
NO_ANSWER where no answer is there. -/
def Obligations.PlatformFetchMaskAndRead : Prop :=
  ∀ s : State, Between s →
    (MessageTaken s → exec .platformFetch s = .next { s with platform := { s.platform with buffer := some .fetch } })
    ∧ (∀ m : BitVec 16, MessageTaken s → m.toNat < 1024 → exec (.platformSetMask m) s
      = .next (answered 0x08 .ok (.mask m) { s with cmd := { s.cmd with
        platMask := m, platAttn := attention s.cmd.platQueue m } }))
    ∧ (s.platform.up = false → exec .platformRead s = .next { s with platform := { s.platform with lastRead := none } })
    ∧ (s.platform.up = true →
      let read : Option PlatAnswer → Byte → Code → AnswerBody → PlatformLink := fun b kind c body =>
        { s.platform with buffer := b, lastRead := some ⟨kind, c, platStatus s, body⟩ }
      (∀ kind c b, s.platform.buffer = some (.answer kind c b) →
        exec .platformRead s = .next { s with platform := read none kind c b })
      ∧ (s.platform.buffer = some .fetch → exec .platformRead s = .next { s with
        platform := read none 0x07 .ok (.notices (s.cmd.platQueue.take 8) (s.cmd.platQueue.length - 8))
        cmd := { s.cmd with
          platQueue := s.cmd.platQueue.drop 8, platAttn := attention (s.cmd.platQueue.drop 8) s.cmd.platMask } })
      ∧ (s.platform.buffer = none →
        (∀ j, s.cmd.plat = some j → exec .platformRead s = .next { s with
          platform := read none j.kind .inProgress .empty })
        ∧ (s.cmd.plat = none → exec .platformRead s = .next { s with
          platform := read none 0 .noAnswer .empty })))

/-- R178: a platform-link reset empties the buffer and marks a message in progress; its answer is discarded when it falls
due, until then the channel is BUSY, and nothing else is touched. -/
def Obligations.PlatformLinkResetDropsTheAnswer : Prop :=
  ∀ s : State, Between s → Next (exec .platformLinkReset s) fun t =>
    t = { s with
      platform := { s.platform with buffer := none }
      cmd := { s.cmd with plat := s.cmd.plat.map fun j => { j with dropped := true } } }
    ∧ (∀ c b, (platReply c b t).platform.buffer = none ∧ (platReply c b t).cmd.plat = none)
    ∧ (t.cmd.plat.isSome = true → t.platform.up = true → ∀ m kind, messageCode m = some kind →
      exec m t = .next (answered kind .channelBusy .empty t))

/-- R84, R85, R81, R82: auto-open and the pending set, for a range that meets the conditions of R81: it is LOCKED and
defined, has AUTO_OPEN and a DEVICE entry that is not stale. An auto-open makes it OPEN at the entry's level in the lowest
EMPTY slot; without one it stays LOCKED and AUTO_OPEN_FAILED is queued. WAKE clears its mark and opens it, where its
binding lets it, or has it join the pending set; a BIND that makes the part MATCHED, and UNBIND, open the range of the set
and leave the set empty. With the watch ALARMED, ERASING or ERASED no range opens, and a set that is applied is emptied.
How keys and wraps are named is entry 6 of the log; that UNBIND takes effect at the verdict is entry 11; that a digest is
the word is entry 8. -/
def Obligations.AutoOpenAndPending : Prop :=
  ∀ (r : Fin 16) (e : WrapEntry) (m : SealedKey) (s : State), rangeDefined s.copies r = true →
    s.copies.ranges[r].attributes.autoOpen = true → s.ranges[r].run = .locked → freshEntry .device r s.copies = some e →
    e.wrapped.under = .device s.deviceKey → s.copies.ranges[r].current = some m → rekeyOn r s.copies = false →
    let bound := s.copies.ranges[r].attributes.bindingRequired
    let closed : RangeRt := ⟨.locked, false⟩
    let opens : RangeRt → State → Prop := fun before t =>
      (∀ k l, emptySlots s = k :: l →
        t.ranges = s.ranges.set r ⟨.opened ⟨levelOf e.access, e.wrapped.key, k, none⟩, false⟩
        ∧ t.slots = s.slots.set k (.live r m.media 0))
      ∧ (emptySlots s = [] → t.ranges = s.ranges.set r before ∧ t.slots = s.slots
        ∧ t.cmd.secQueue = joinQueue 32 ⟨.autoOpenFailed r, false, s.cmd.seq⟩ s.cmd.secQueue)
    (MessageTaken s → s.watch.sleep = .asleep → (∀ q : Fin 16, s.ranges[q].sleepMark = decide (q = r)) →
      Next (exec .wake s) fun t =>
        t.watch.sleep = .awake ∧ t.cmd.plat = none ∧ t.platform.buffer = some (.answer 0x04 .ok .empty)
        ∧ t.copies = s.copies ∧ t.store = s.store
        ∧ (calm s.copies.watch.state = false → t.ranges = s.ranges.set r closed ∧ t.slots = s.slots ∧ t.cred = s.cred)
        ∧ (calm s.copies.watch.state = true →
          (bound = false ∨ s.watch.binding = .matched ∨ s.watch.binding = .unbound → opens closed t ∧ t.cred = s.cred)
          ∧ (bound = true → s.watch.binding ≠ .matched → s.watch.binding ≠ .unbound →
            t.ranges = s.ranges.set r closed ∧ t.slots = s.slots ∧ t.cred.holdoff = s.cred.holdoff
            ∧ ∀ q : Fin 16, q ∈ t.cred.pendingSet ↔ q = r ∨ q ∈ s.cred.pendingSet)))
    ∧ (s.cred.pendingSet = [r] →
      (∀ w, MessageTaken s → s.copies.digest = some ⟨w⟩ → Next (exec (.bind w) s) fun t =>
        t.watch = { s.watch with binding := .matched, lastWord := some w } ∧ t.copies = s.copies
        ∧ t.platform.buffer = some (.answer 0x01 .ok .empty)
        ∧ (s.watch.binding = .matched → t.cred = s.cred ∧ t.ranges = s.ranges ∧ t.slots = s.slots)
        ∧ (s.watch.binding ≠ .matched → t.cred = { s.cred with pendingSet := [] }
          ∧ (calm s.copies.watch.state = true → opens s.ranges[r] t)
          ∧ (calm s.copies.watch.state = false → t.ranges = s.ranges ∧ t.slots = s.slots)))
      ∧ ∀ id cb secret c key, Succeeds (.unbind id cb secret) c key s → AtRest s → s.copies.digest.isSome = true →
        Next (exec .derivationComplete s) fun t =>
          t.watch = { s.watch with binding := .unbound } ∧ t.cred.pendingSet = [] ∧ opens s.ranges[r] t)

/-! ## Power -/

/-- R187, R188, R75: what a cold start leaves: the volatile state at its cold-start values, the boot count one higher,
no write left, and the timers, the binding and supervision as the records say. Without a factory record the part is held
after step 2, with its uptime running (R189); with power lost again it awaits the next cold start; in both it takes no
frame. How damage, the levels and a further power loss come in is
entry 35 of the log. -/
def Obligations.ColdStartStartsThePart : Prop :=
  ∀ (damage : List Damage) (levels : BitVec 4) (s : State),
    (factoryLost damage = false → Next (exec (.coldStart damage levels none) s) fun t =>
      t.phase = .running
      ∧ t.drive = { up := false, units := [], inbound := [], outbox := [], lastSent := none }
      ∧ t.platform = { up := true, buffer := none, lastRead := none }
      ∧ t.adm = { table := Vector.replicate 32 .free, hold := [] }
      ∧ t.derive = { job := none, waiting := [] }
      ∧ t.cmd.sec = none ∧ t.cmd.plat = none ∧ t.cmd.secMask = 0x3FF ∧ t.cmd.platMask = 0x3FF
      ∧ t.rekey.order = none ∧ t.rekey.counter = 1 ∧ t.erase.orders = [] ∧ t.uptime = 0
      ∧ t.store.active = none ∧ t.store.queue = []
      ∧ t.copies.boot = min (2 ^ 32 - 1) ((if damage.contains .bootCount then 0 else s.store.nv.boot) + 1)
      ∧ t.cred.holdoff = startTimer (holdoffLength t.copies.policy t.copies.watch.state t.copies.charged)
      ∧ t.watch = { t.watch with
          binding := if t.copies.digest = none then .unbound else .unknown
          lastWord := none
          deadline := some t.copies.policy.bindingDeadline
          supervision := if t.copies.policy.checkinEnable = true then .waiting else .off
          checkin := 0
          sleep := .awake
          decay := if calm t.copies.watch.state = true then some 0 else none
          holdDowns := Vector.replicate 4 none }
      ∧ (∀ n : Fin 4, t.watch.levels[n] = levels.getLsbD n))
    ∧ (factoryLost damage = true → Next (exec (.coldStart damage levels none) s) fun t =>
      t.phase = .held ∧ t.platform.up = false ∧ t.drive.up = false ∧ t.uptime = 0 ∧ t.store.active = none
        ∧ t.copies.boot = min (2 ^ 32 - 1) ((if damage.contains .bootCount then 0 else s.store.nv.boot) + 1)
        ∧ (tick t).uptime = 1)
    ∧ ∀ n, Next (exec (.coldStart damage levels (some n)) s) fun t =>
      t.phase = .starting ∧ t.platform.up = false ∧ t.drive.up = false ∧ t.store.active = none ∧ t.store.queue = []

/-- R185, R1, R59, R15, R76, R141, R154, R187, R188: how a cold start treats the records. Each record that fails its check
is treated as R185 says, and a sole one joins the incident list; the others stay, but for a USER at the disabling limit,
the wrap entries that no longer fit, and a range's next sealed key. The loaded score is evaluated. R3, R83: no range is
CLOSING and no sleep mark is set; a range is ERASED as its record says; of the others those are OPEN or pend that R81 and
R83 say, with the watch calm. R125: a rekey record whose range still holds its next key waits PAUSED, or runs if its range
has opened; any other goes, and with it every next sealed key. R169: an erase that was under way goes on from its journal.
That a scrub found with its frontier at C ends is entry 22 of the log, which copy number and which order the damage
incidents have is entry 26, and that the damage found is an operand of the command is entry 35. -/
def Obligations.ColdStartLoadsTheRecords : Prop :=
  ∀ (damage : List Damage) (levels : BitVec 4) (s : State), factoryLost damage = false →
    Next (exec (.coldStart damage levels none) s) fun t =>
    let nv := s.store.nv
    let recs := t.copies
    let lost : Damage → Prop := fun d => damage.contains d = true
    let isLive := alive recs.watch.state = true
    (SlotsOk t ∧ StoreOk t)
    ∧ (recs.factory = nv.factory
      ∧ recs.policy = (if damage.contains .policy then Policy.default else nv.policy)
      ∧ recs.charged = (if damage.contains .chargedCount then 0 else nv.charged)
      ∧ recs.digest = (if damage.contains .bindingDigest then none else nv.digest)
      ∧ recs.token = (if damage.contains .remoteToken then none else nv.token)
      ∧ (∀ c : Fin 8, recs.creds[c] =
        let found := if damage.contains (.credential c) then CredRec.empty else nv.creds[c]
        if found.state = .active ∧ roleOf c = .user ∧ recs.policy.disableLimit ≠ 0
          ∧ recs.policy.disableLimit ≤ found.ownCount then { found with state := .disabled } else found)
      ∧ (lost .incidentList → ∀ i ∈ recs.incidents, i.boot = recs.boot ∧ i.uptime = 0)
      ∧ (∀ d, damage = [d] → d ≠ .factoryCopy true → ∃ i ∈ recs.incidents, i.kind = damageKind d))
    ∧ (let found : WatchRec := if damage.contains .watchRecord then ⟨.alarmed, recs.policy.t2⟩ else nv.watch
      recs.watch.score = found.score
        ∧ (isLive → recs.watch.state = watchAt recs.policy found.state found.score))
    ∧ (∀ k : Fin 64, recs.wraps[k] = none ∨ ¬lost (.wrapEntry k) ∧ recs.wraps[k] = nv.wraps[k])
    ∧ (isLive → ∀ (k : Fin 64) e, nv.wraps[k] = some e → ¬lost (.wrapEntry k) → unloadable recs e = false →
      recs.wraps[k] = some e)
    ∧ (∀ (k : Fin 64) e, recs.wraps[k] = some e → isLive → unloadable recs e = false)
    ∧ (isLive → damage = [] → ∀ r : Fin 16, recs.ranges[r] = { nv.ranges[r] with next := recs.ranges[r].next }
      ∧ (recs.ranges[r].next = none ∨ recs.ranges[r].next = nv.ranges[r].next))
    ∧ (∀ r found, damage = [.range r found] → isLive →
      let erased : Option Extent → RangeRec := fun e =>
        { defined := true, extent := e, attributes := found.attributes, generation := found.generation
          salt := found.salt, current := none, next := none, erased := true }
      let stands : Extent → Prop := fun e => found.defined = true ∧ e.start % 8 = 0 ∧ e.len % 8 = 0 ∧ 8 ≤ e.len
        ∧ extentEnd e ≤ nv.factory.capacity
        ∧ ∀ q, q ≠ r → ∀ d, definedExtent nv q = some d → extentsOverlap d e = false
      (r = 0 → recs.ranges[r] = erased none)
      ∧ (r ≠ 0 → ∀ e, found.extent = some e →
        (stands e → recs.ranges[r] = erased (some e))
        ∧ (¬stands e →
          recs.ranges[r] = { RangeRec.undefined with generation := found.generation, salt := found.salt })))
    ∧ (∀ r : Fin 16, t.ranges[r].sleepMark = false ∧ match t.ranges[r].run with
        | .opened _ => calm recs.watch.state = true ∧ recs.ranges[r].attributes.autoOpen = true
            ∧ recs.ranges[r].erased = false ∧ (recs.ranges[r].attributes.bindingRequired = true → recs.digest = none)
        | .closing _ _ _ => False
        | .locked => recs.ranges[r].erased = false
        | .erased => recs.ranges[r].erased = true)
    ∧ (∀ r : Fin 16, r ∈ t.cred.pendingSet ↔ calm recs.watch.state = true ∧ rangeDefined recs r = true
      ∧ recs.ranges[r].erased = false ∧ recs.ranges[r].attributes.autoOpen = true
      ∧ (freshEntry .device r recs).isSome = true ∧ recs.ranges[r].attributes.bindingRequired = true
      ∧ recs.digest.isSome = true)
    ∧ (calm recs.watch.state = true → ∀ (r : Fin 16) e, rangeDefined recs r = true → recs.ranges[r].erased = false →
      recs.ranges[r].attributes.autoOpen = true → freshEntry .device r recs = some e →
      e.wrapped.under = .device s.deviceKey → recs.ranges[r].current.isSome = true →
      recs.ranges[r].attributes.bindingRequired = false ∨ recs.digest = none →
      ∃ h, t.ranges[r].run = .opened h ∧ h.level = levelOf e.access ∧ h.key = e.wrapped.key)
    ∧ (isLive → (recs.rekey = none → ∀ r : Fin 16, recs.ranges[r].next = none)
      ∧ (∀ k, recs.rekey = some k → ∃ k', nv.rekey = some k' ∧ ¬lost .rekeyRecord
        ∧ rangeDefined recs k.range = true ∧ recs.ranges[k.range].erased = false
        ∧ recs.ranges[k.range].next.isSome = true
        ∧ k = { k' with state := if isOpen t.ranges[k.range].run = true then .running else .paused })
      ∧ (∀ k, nv.rekey = some k → damage = [] → rangeDefined nv k.range = true → nv.ranges[k.range].erased = false →
        nv.ranges[k.range].next.isSome = true → recs.rekey.isSome = true ∧ ∀ r : Fin 16, recs.ranges[r] = nv.ranges[r]))
    ∧ (lost .eraseJournal → ¬isLive ∧ ∃ j, recs.journal = some j ∧ j.cause = .unknown ∧ 4 ≤ j.step)
    ∧ (∀ j, nv.journal = some j → ¬lost .eraseJournal →
      let C := nv.factory.capacity
      let scrubbing : Journal → Prop := fun j' => recs.journal = some j' ∧ recs.watch.state = .erasing
      let finished : EraseResult → Prop := fun w =>
        recs.journal = some { j with step := 5, result := some w } ∧ recs.watch.state = .erased
      (j.step = 5 → recs.journal = some j ∧ recs.watch.state = .erased)
      ∧ (j.step ≤ 3 → recs.rekey = none ∧ (∀ k : Fin 64, recs.wraps[k] = none)
        ∧ (∀ r : Fin 16, rangeDefined recs r = true → t.ranges[r].run = .erased ∧ recs.ranges[r].current = none
          ∧ recs.ranges[r].next = none ∧ recs.ranges[r].erased = true)
        ∧ (recs.policy.scrubEnable = true → j.frontier < C → scrubbing { j with step := 4 })
        ∧ (recs.policy.scrubEnable = true → C ≤ j.frontier → finished .complete)
        ∧ (recs.policy.scrubEnable = false → finished .scrubSkipped))
      ∧ (j.step = 4 → (j.frontier < C → scrubbing j) ∧ (C ≤ j.frontier → finished .complete)))

end
end

