-- ==== Sys2Proof/Laws/State.lean ====
section
/-! SUPPORT. What each update of the state leaves in each field: one rewriting rule per field and update, so that no proof
unfolds an update. -/

namespace Sys2Proof.Machine

/-! ## put -/

@[simp] theorem put_phase (w : RecWrite) (s : State) : (put w s).phase = s.phase := rfl
@[simp] theorem put_drive (w : RecWrite) (s : State) : (put w s).drive = s.drive := rfl
@[simp] theorem put_platform (w : RecWrite) (s : State) : (put w s).platform = s.platform := rfl
@[simp] theorem put_adm (w : RecWrite) (s : State) : (put w s).adm = s.adm := rfl
@[simp] theorem put_ranges (w : RecWrite) (s : State) : (put w s).ranges = s.ranges := rfl
@[simp] theorem put_slots (w : RecWrite) (s : State) : (put w s).slots = s.slots := rfl
@[simp] theorem put_cred (w : RecWrite) (s : State) : (put w s).cred = s.cred := rfl
@[simp] theorem put_derive (w : RecWrite) (s : State) : (put w s).derive = s.derive := rfl
@[simp] theorem put_rekey (w : RecWrite) (s : State) : (put w s).rekey = s.rekey := rfl
@[simp] theorem put_erase (w : RecWrite) (s : State) : (put w s).erase = s.erase := rfl
@[simp] theorem put_watch (w : RecWrite) (s : State) : (put w s).watch = s.watch := rfl
@[simp] theorem put_cmd (w : RecWrite) (s : State) : (put w s).cmd = s.cmd := rfl
@[simp] theorem put_uptime (w : RecWrite) (s : State) : (put w s).uptime = s.uptime := rfl
@[simp] theorem put_copies (w : RecWrite) (s : State) : (put w s).copies = applyWrite w s.copies := rfl
@[simp] theorem put_store (w : RecWrite) (s : State) : (put w s).store = requestWrite (writeOwner w) w s.store := rfl
@[simp] theorem put_draws (w : RecWrite) (s : State) : (put w s).draws = s.draws := rfl
@[simp] theorem put_deviceKey (w : RecWrite) (s : State) : (put w s).deviceKey = s.deviceKey := rfl
@[simp] theorem put_pending (w : RecWrite) (s : State) : (put w s).pending = s.pending := rfl

/-! ## putBy -/

@[simp] theorem putBy_phase (b : Block) (w : RecWrite) (s : State) : (putBy b w s).phase = s.phase := rfl
@[simp] theorem putBy_drive (b : Block) (w : RecWrite) (s : State) : (putBy b w s).drive = s.drive := rfl
@[simp] theorem putBy_platform (b : Block) (w : RecWrite) (s : State) : (putBy b w s).platform = s.platform := rfl
@[simp] theorem putBy_adm (b : Block) (w : RecWrite) (s : State) : (putBy b w s).adm = s.adm := rfl
@[simp] theorem putBy_ranges (b : Block) (w : RecWrite) (s : State) : (putBy b w s).ranges = s.ranges := rfl
@[simp] theorem putBy_slots (b : Block) (w : RecWrite) (s : State) : (putBy b w s).slots = s.slots := rfl
@[simp] theorem putBy_cred (b : Block) (w : RecWrite) (s : State) : (putBy b w s).cred = s.cred := rfl
@[simp] theorem putBy_derive (b : Block) (w : RecWrite) (s : State) : (putBy b w s).derive = s.derive := rfl
@[simp] theorem putBy_rekey (b : Block) (w : RecWrite) (s : State) : (putBy b w s).rekey = s.rekey := rfl
@[simp] theorem putBy_erase (b : Block) (w : RecWrite) (s : State) : (putBy b w s).erase = s.erase := rfl
@[simp] theorem putBy_watch (b : Block) (w : RecWrite) (s : State) : (putBy b w s).watch = s.watch := rfl
@[simp] theorem putBy_cmd (b : Block) (w : RecWrite) (s : State) : (putBy b w s).cmd = s.cmd := rfl
@[simp] theorem putBy_uptime (b : Block) (w : RecWrite) (s : State) : (putBy b w s).uptime = s.uptime := rfl
@[simp] theorem putBy_copies (b : Block) (w : RecWrite) (s : State) : (putBy b w s).copies = applyWrite w s.copies := rfl
@[simp] theorem putBy_store (b : Block) (w : RecWrite) (s : State) : (putBy b w s).store = requestWrite b w s.store := rfl
@[simp] theorem putBy_draws (b : Block) (w : RecWrite) (s : State) : (putBy b w s).draws = s.draws := rfl
@[simp] theorem putBy_deviceKey (b : Block) (w : RecWrite) (s : State) : (putBy b w s).deviceKey = s.deviceKey := rfl
@[simp] theorem putBy_pending (b : Block) (w : RecWrite) (s : State) : (putBy b w s).pending = s.pending := rfl

/-! ## askWrite -/

@[simp] theorem askWrite_phase (w : RecWrite) (s : State) : (askWrite w s).phase = s.phase := rfl
@[simp] theorem askWrite_drive (w : RecWrite) (s : State) : (askWrite w s).drive = s.drive := rfl
@[simp] theorem askWrite_platform (w : RecWrite) (s : State) : (askWrite w s).platform = s.platform := rfl
@[simp] theorem askWrite_adm (w : RecWrite) (s : State) : (askWrite w s).adm = s.adm := rfl
@[simp] theorem askWrite_ranges (w : RecWrite) (s : State) : (askWrite w s).ranges = s.ranges := rfl
@[simp] theorem askWrite_slots (w : RecWrite) (s : State) : (askWrite w s).slots = s.slots := rfl
@[simp] theorem askWrite_cred (w : RecWrite) (s : State) : (askWrite w s).cred = s.cred := rfl
@[simp] theorem askWrite_derive (w : RecWrite) (s : State) : (askWrite w s).derive = s.derive := rfl
@[simp] theorem askWrite_rekey (w : RecWrite) (s : State) : (askWrite w s).rekey = s.rekey := rfl
@[simp] theorem askWrite_erase (w : RecWrite) (s : State) : (askWrite w s).erase = s.erase := rfl
@[simp] theorem askWrite_watch (w : RecWrite) (s : State) : (askWrite w s).watch = s.watch := rfl
@[simp] theorem askWrite_cmd (w : RecWrite) (s : State) : (askWrite w s).cmd = s.cmd := rfl
@[simp] theorem askWrite_uptime (w : RecWrite) (s : State) : (askWrite w s).uptime = s.uptime := rfl
@[simp] theorem askWrite_copies (w : RecWrite) (s : State) : (askWrite w s).copies = s.copies := rfl
@[simp] theorem askWrite_store (w : RecWrite) (s : State) : (askWrite w s).store = requestWrite (writeOwner w) w s.store := rfl
@[simp] theorem askWrite_draws (w : RecWrite) (s : State) : (askWrite w s).draws = s.draws := rfl
@[simp] theorem askWrite_deviceKey (w : RecWrite) (s : State) : (askWrite w s).deviceKey = s.deviceKey := rfl
@[simp] theorem askWrite_pending (w : RecWrite) (s : State) : (askWrite w s).pending = s.pending := rfl

/-! ## clearTouched -/

@[simp] theorem clearTouched_phase (s : State) : (clearTouched s).phase = s.phase := rfl
@[simp] theorem clearTouched_drive (s : State) : (clearTouched s).drive = s.drive := rfl
@[simp] theorem clearTouched_platform (s : State) : (clearTouched s).platform = s.platform := rfl
@[simp] theorem clearTouched_adm (s : State) : (clearTouched s).adm = s.adm := rfl
@[simp] theorem clearTouched_ranges (s : State) : (clearTouched s).ranges = s.ranges := rfl
@[simp] theorem clearTouched_slots (s : State) : (clearTouched s).slots = s.slots := rfl
@[simp] theorem clearTouched_cred (s : State) : (clearTouched s).cred = s.cred := rfl
@[simp] theorem clearTouched_derive (s : State) : (clearTouched s).derive = s.derive := rfl
@[simp] theorem clearTouched_rekey (s : State) : (clearTouched s).rekey = s.rekey := rfl
@[simp] theorem clearTouched_erase (s : State) : (clearTouched s).erase = s.erase := rfl
@[simp] theorem clearTouched_watch (s : State) : (clearTouched s).watch = s.watch := rfl
@[simp] theorem clearTouched_cmd (s : State) : (clearTouched s).cmd = s.cmd := rfl
@[simp] theorem clearTouched_uptime (s : State) : (clearTouched s).uptime = s.uptime := rfl
@[simp] theorem clearTouched_copies (s : State) : (clearTouched s).copies = s.copies := rfl
@[simp] theorem clearTouched_nv (s : State) : (clearTouched s).store.nv = s.store.nv := rfl
@[simp] theorem clearTouched_active (s : State) : (clearTouched s).store.active = s.store.active := rfl
@[simp] theorem clearTouched_queue (s : State) : (clearTouched s).store.queue = s.store.queue := rfl
@[simp] theorem clearTouched_nextId (s : State) : (clearTouched s).store.nextId = s.store.nextId := rfl
@[simp] theorem clearTouched_touched (s : State) : (clearTouched s).store.touched = [] := rfl
@[simp] theorem clearTouched_waits (s : State) : (clearTouched s).store.waits = s.store.waits := rfl
@[simp] theorem clearTouched_draws (s : State) : (clearTouched s).draws = s.draws := rfl
@[simp] theorem clearTouched_deviceKey (s : State) : (clearTouched s).deviceKey = s.deviceKey := rfl
@[simp] theorem clearTouched_pending (s : State) : (clearTouched s).pending = s.pending := rfl

/-! ## addWait -/

@[simp] theorem addWait_phase (ids : List Nat) (job : Cont) (s : State) : (addWait ids job s).phase = s.phase := rfl
@[simp] theorem addWait_drive (ids : List Nat) (job : Cont) (s : State) : (addWait ids job s).drive = s.drive := rfl
@[simp] theorem addWait_platform (ids : List Nat) (job : Cont) (s : State) : (addWait ids job s).platform = s.platform := rfl
@[simp] theorem addWait_adm (ids : List Nat) (job : Cont) (s : State) : (addWait ids job s).adm = s.adm := rfl
@[simp] theorem addWait_ranges (ids : List Nat) (job : Cont) (s : State) : (addWait ids job s).ranges = s.ranges := rfl
@[simp] theorem addWait_slots (ids : List Nat) (job : Cont) (s : State) : (addWait ids job s).slots = s.slots := rfl
@[simp] theorem addWait_cred (ids : List Nat) (job : Cont) (s : State) : (addWait ids job s).cred = s.cred := rfl
@[simp] theorem addWait_derive (ids : List Nat) (job : Cont) (s : State) : (addWait ids job s).derive = s.derive := rfl
@[simp] theorem addWait_rekey (ids : List Nat) (job : Cont) (s : State) : (addWait ids job s).rekey = s.rekey := rfl
@[simp] theorem addWait_erase (ids : List Nat) (job : Cont) (s : State) : (addWait ids job s).erase = s.erase := rfl
@[simp] theorem addWait_watch (ids : List Nat) (job : Cont) (s : State) : (addWait ids job s).watch = s.watch := rfl
@[simp] theorem addWait_cmd (ids : List Nat) (job : Cont) (s : State) : (addWait ids job s).cmd = s.cmd := rfl
@[simp] theorem addWait_uptime (ids : List Nat) (job : Cont) (s : State) : (addWait ids job s).uptime = s.uptime := rfl
@[simp] theorem addWait_copies (ids : List Nat) (job : Cont) (s : State) : (addWait ids job s).copies = s.copies := rfl
@[simp] theorem addWait_nv (ids : List Nat) (job : Cont) (s : State) : (addWait ids job s).store.nv = s.store.nv := rfl
@[simp] theorem addWait_active (ids : List Nat) (job : Cont) (s : State) : (addWait ids job s).store.active = s.store.active := rfl
@[simp] theorem addWait_queue (ids : List Nat) (job : Cont) (s : State) : (addWait ids job s).store.queue = s.store.queue := rfl
@[simp] theorem addWait_nextId (ids : List Nat) (job : Cont) (s : State) : (addWait ids job s).store.nextId = s.store.nextId := rfl
@[simp] theorem addWait_touched (ids : List Nat) (job : Cont) (s : State) : (addWait ids job s).store.touched = s.store.touched := rfl
@[simp] theorem addWait_waits (ids : List Nat) (job : Cont) (s : State) : (addWait ids job s).store.waits = s.store.waits ++ [⟨ids, job⟩] := rfl
@[simp] theorem addWait_draws (ids : List Nat) (job : Cont) (s : State) : (addWait ids job s).draws = s.draws := rfl
@[simp] theorem addWait_deviceKey (ids : List Nat) (job : Cont) (s : State) : (addWait ids job s).deviceKey = s.deviceKey := rfl
@[simp] theorem addWait_pending (ids : List Nat) (job : Cont) (s : State) : (addWait ids job s).pending = s.pending := rfl

/-! ## setRun -/

@[simp] theorem setRun_phase (r : Fin 16) (run : RangeRun) (s : State) : (setRun r run s).phase = s.phase := rfl
@[simp] theorem setRun_drive (r : Fin 16) (run : RangeRun) (s : State) : (setRun r run s).drive = s.drive := rfl
@[simp] theorem setRun_platform (r : Fin 16) (run : RangeRun) (s : State) : (setRun r run s).platform = s.platform := rfl
@[simp] theorem setRun_adm (r : Fin 16) (run : RangeRun) (s : State) : (setRun r run s).adm = s.adm := rfl
@[simp] theorem setRun_ranges (r : Fin 16) (run : RangeRun) (s : State) : (setRun r run s).ranges = s.ranges.set r { s.ranges[r] with run := run } := rfl
@[simp] theorem setRun_slots (r : Fin 16) (run : RangeRun) (s : State) : (setRun r run s).slots = s.slots := rfl
@[simp] theorem setRun_cred (r : Fin 16) (run : RangeRun) (s : State) : (setRun r run s).cred = s.cred := rfl
@[simp] theorem setRun_derive (r : Fin 16) (run : RangeRun) (s : State) : (setRun r run s).derive = s.derive := rfl
@[simp] theorem setRun_rekey (r : Fin 16) (run : RangeRun) (s : State) : (setRun r run s).rekey = s.rekey := rfl
@[simp] theorem setRun_erase (r : Fin 16) (run : RangeRun) (s : State) : (setRun r run s).erase = s.erase := rfl
@[simp] theorem setRun_watch (r : Fin 16) (run : RangeRun) (s : State) : (setRun r run s).watch = s.watch := rfl
@[simp] theorem setRun_cmd (r : Fin 16) (run : RangeRun) (s : State) : (setRun r run s).cmd = s.cmd := rfl
@[simp] theorem setRun_uptime (r : Fin 16) (run : RangeRun) (s : State) : (setRun r run s).uptime = s.uptime := rfl
@[simp] theorem setRun_copies (r : Fin 16) (run : RangeRun) (s : State) : (setRun r run s).copies = s.copies := rfl
@[simp] theorem setRun_store (r : Fin 16) (run : RangeRun) (s : State) : (setRun r run s).store = s.store := rfl
@[simp] theorem setRun_draws (r : Fin 16) (run : RangeRun) (s : State) : (setRun r run s).draws = s.draws := rfl
@[simp] theorem setRun_deviceKey (r : Fin 16) (run : RangeRun) (s : State) : (setRun r run s).deviceKey = s.deviceKey := rfl
@[simp] theorem setRun_pending (r : Fin 16) (run : RangeRun) (s : State) : (setRun r run s).pending = s.pending := rfl

/-! ## setMark -/

@[simp] theorem setMark_phase (r : Fin 16) (b : Bool) (s : State) : (setMark r b s).phase = s.phase := rfl
@[simp] theorem setMark_drive (r : Fin 16) (b : Bool) (s : State) : (setMark r b s).drive = s.drive := rfl
@[simp] theorem setMark_platform (r : Fin 16) (b : Bool) (s : State) : (setMark r b s).platform = s.platform := rfl
@[simp] theorem setMark_adm (r : Fin 16) (b : Bool) (s : State) : (setMark r b s).adm = s.adm := rfl
@[simp] theorem setMark_ranges (r : Fin 16) (b : Bool) (s : State) : (setMark r b s).ranges = s.ranges.set r { s.ranges[r] with sleepMark := b } := rfl
@[simp] theorem setMark_slots (r : Fin 16) (b : Bool) (s : State) : (setMark r b s).slots = s.slots := rfl
@[simp] theorem setMark_cred (r : Fin 16) (b : Bool) (s : State) : (setMark r b s).cred = s.cred := rfl
@[simp] theorem setMark_derive (r : Fin 16) (b : Bool) (s : State) : (setMark r b s).derive = s.derive := rfl
@[simp] theorem setMark_rekey (r : Fin 16) (b : Bool) (s : State) : (setMark r b s).rekey = s.rekey := rfl
@[simp] theorem setMark_erase (r : Fin 16) (b : Bool) (s : State) : (setMark r b s).erase = s.erase := rfl
@[simp] theorem setMark_watch (r : Fin 16) (b : Bool) (s : State) : (setMark r b s).watch = s.watch := rfl
@[simp] theorem setMark_cmd (r : Fin 16) (b : Bool) (s : State) : (setMark r b s).cmd = s.cmd := rfl
@[simp] theorem setMark_uptime (r : Fin 16) (b : Bool) (s : State) : (setMark r b s).uptime = s.uptime := rfl
@[simp] theorem setMark_copies (r : Fin 16) (b : Bool) (s : State) : (setMark r b s).copies = s.copies := rfl
@[simp] theorem setMark_store (r : Fin 16) (b : Bool) (s : State) : (setMark r b s).store = s.store := rfl
@[simp] theorem setMark_draws (r : Fin 16) (b : Bool) (s : State) : (setMark r b s).draws = s.draws := rfl
@[simp] theorem setMark_deviceKey (r : Fin 16) (b : Bool) (s : State) : (setMark r b s).deviceKey = s.deviceKey := rfl
@[simp] theorem setMark_pending (r : Fin 16) (b : Bool) (s : State) : (setMark r b s).pending = s.pending := rfl

/-! ## setEntry -/

@[simp] theorem setEntry_phase (t : Fin 32) (e : Entry) (s : State) : (setEntry t e s).phase = s.phase := rfl
@[simp] theorem setEntry_drive (t : Fin 32) (e : Entry) (s : State) : (setEntry t e s).drive = s.drive := rfl
@[simp] theorem setEntry_platform (t : Fin 32) (e : Entry) (s : State) : (setEntry t e s).platform = s.platform := rfl
@[simp] theorem setEntry_table (t : Fin 32) (e : Entry) (s : State) : (setEntry t e s).adm.table = s.adm.table.set t e := rfl
@[simp] theorem setEntry_hold (t : Fin 32) (e : Entry) (s : State) : (setEntry t e s).adm.hold = s.adm.hold := rfl
@[simp] theorem setEntry_ranges (t : Fin 32) (e : Entry) (s : State) : (setEntry t e s).ranges = s.ranges := rfl
@[simp] theorem setEntry_slots (t : Fin 32) (e : Entry) (s : State) : (setEntry t e s).slots = s.slots := rfl
@[simp] theorem setEntry_cred (t : Fin 32) (e : Entry) (s : State) : (setEntry t e s).cred = s.cred := rfl
@[simp] theorem setEntry_derive (t : Fin 32) (e : Entry) (s : State) : (setEntry t e s).derive = s.derive := rfl
@[simp] theorem setEntry_rekey (t : Fin 32) (e : Entry) (s : State) : (setEntry t e s).rekey = s.rekey := rfl
@[simp] theorem setEntry_erase (t : Fin 32) (e : Entry) (s : State) : (setEntry t e s).erase = s.erase := rfl
@[simp] theorem setEntry_watch (t : Fin 32) (e : Entry) (s : State) : (setEntry t e s).watch = s.watch := rfl
@[simp] theorem setEntry_cmd (t : Fin 32) (e : Entry) (s : State) : (setEntry t e s).cmd = s.cmd := rfl
@[simp] theorem setEntry_uptime (t : Fin 32) (e : Entry) (s : State) : (setEntry t e s).uptime = s.uptime := rfl
@[simp] theorem setEntry_copies (t : Fin 32) (e : Entry) (s : State) : (setEntry t e s).copies = s.copies := rfl
@[simp] theorem setEntry_store (t : Fin 32) (e : Entry) (s : State) : (setEntry t e s).store = s.store := rfl
@[simp] theorem setEntry_draws (t : Fin 32) (e : Entry) (s : State) : (setEntry t e s).draws = s.draws := rfl
@[simp] theorem setEntry_deviceKey (t : Fin 32) (e : Entry) (s : State) : (setEntry t e s).deviceKey = s.deviceKey := rfl
@[simp] theorem setEntry_pending (t : Fin 32) (e : Entry) (s : State) : (setEntry t e s).pending = s.pending := rfl

/-! ## setSlot -/

@[simp] theorem setSlot_phase (k : Fin 18) (v : Slot) (s : State) : (setSlot k v s).phase = s.phase := rfl
@[simp] theorem setSlot_drive (k : Fin 18) (v : Slot) (s : State) : (setSlot k v s).drive = s.drive := rfl
@[simp] theorem setSlot_platform (k : Fin 18) (v : Slot) (s : State) : (setSlot k v s).platform = s.platform := rfl
@[simp] theorem setSlot_adm (k : Fin 18) (v : Slot) (s : State) : (setSlot k v s).adm = s.adm := rfl
@[simp] theorem setSlot_ranges (k : Fin 18) (v : Slot) (s : State) : (setSlot k v s).ranges = s.ranges := rfl
@[simp] theorem setSlot_slots (k : Fin 18) (v : Slot) (s : State) : (setSlot k v s).slots = s.slots.set k v := rfl
@[simp] theorem setSlot_cred (k : Fin 18) (v : Slot) (s : State) : (setSlot k v s).cred = s.cred := rfl
@[simp] theorem setSlot_derive (k : Fin 18) (v : Slot) (s : State) : (setSlot k v s).derive = s.derive := rfl
@[simp] theorem setSlot_rekey (k : Fin 18) (v : Slot) (s : State) : (setSlot k v s).rekey = s.rekey := rfl
@[simp] theorem setSlot_erase (k : Fin 18) (v : Slot) (s : State) : (setSlot k v s).erase = s.erase := rfl
@[simp] theorem setSlot_watch (k : Fin 18) (v : Slot) (s : State) : (setSlot k v s).watch = s.watch := rfl
@[simp] theorem setSlot_cmd (k : Fin 18) (v : Slot) (s : State) : (setSlot k v s).cmd = s.cmd := rfl
@[simp] theorem setSlot_uptime (k : Fin 18) (v : Slot) (s : State) : (setSlot k v s).uptime = s.uptime := rfl
@[simp] theorem setSlot_copies (k : Fin 18) (v : Slot) (s : State) : (setSlot k v s).copies = s.copies := rfl
@[simp] theorem setSlot_store (k : Fin 18) (v : Slot) (s : State) : (setSlot k v s).store = s.store := rfl
@[simp] theorem setSlot_draws (k : Fin 18) (v : Slot) (s : State) : (setSlot k v s).draws = s.draws := rfl
@[simp] theorem setSlot_deviceKey (k : Fin 18) (v : Slot) (s : State) : (setSlot k v s).deviceKey = s.deviceKey := rfl
@[simp] theorem setSlot_pending (k : Fin 18) (v : Slot) (s : State) : (setSlot k v s).pending = s.pending := rfl

/-! ## retireSlot -/

@[simp] theorem retireSlot_phase (k : Fin 18) (s : State) : (retireSlot k s).phase = s.phase := rfl
@[simp] theorem retireSlot_drive (k : Fin 18) (s : State) : (retireSlot k s).drive = s.drive := rfl
@[simp] theorem retireSlot_platform (k : Fin 18) (s : State) : (retireSlot k s).platform = s.platform := rfl
@[simp] theorem retireSlot_adm (k : Fin 18) (s : State) : (retireSlot k s).adm = s.adm := rfl
@[simp] theorem retireSlot_ranges (k : Fin 18) (s : State) : (retireSlot k s).ranges = s.ranges := rfl
@[simp] theorem retireSlot_slots (k : Fin 18) (s : State) : (retireSlot k s).slots = s.slots.set k (retiredSlot s.slots[k]) := rfl
@[simp] theorem retireSlot_cred (k : Fin 18) (s : State) : (retireSlot k s).cred = s.cred := rfl
@[simp] theorem retireSlot_derive (k : Fin 18) (s : State) : (retireSlot k s).derive = s.derive := rfl
@[simp] theorem retireSlot_rekey (k : Fin 18) (s : State) : (retireSlot k s).rekey = s.rekey := rfl
@[simp] theorem retireSlot_erase (k : Fin 18) (s : State) : (retireSlot k s).erase = s.erase := rfl
@[simp] theorem retireSlot_watch (k : Fin 18) (s : State) : (retireSlot k s).watch = s.watch := rfl
@[simp] theorem retireSlot_cmd (k : Fin 18) (s : State) : (retireSlot k s).cmd = s.cmd := rfl
@[simp] theorem retireSlot_uptime (k : Fin 18) (s : State) : (retireSlot k s).uptime = s.uptime := rfl
@[simp] theorem retireSlot_copies (k : Fin 18) (s : State) : (retireSlot k s).copies = s.copies := rfl
@[simp] theorem retireSlot_store (k : Fin 18) (s : State) : (retireSlot k s).store = s.store := rfl
@[simp] theorem retireSlot_draws (k : Fin 18) (s : State) : (retireSlot k s).draws = s.draws := rfl
@[simp] theorem retireSlot_deviceKey (k : Fin 18) (s : State) : (retireSlot k s).deviceKey = s.deviceKey := rfl
@[simp] theorem retireSlot_pending (k : Fin 18) (s : State) : (retireSlot k s).pending = s.pending := rfl

/-! ## pinSlot -/

@[simp] theorem pinSlot_phase (k : Fin 18) (s : State) : (pinSlot k s).phase = s.phase := rfl
@[simp] theorem pinSlot_drive (k : Fin 18) (s : State) : (pinSlot k s).drive = s.drive := rfl
@[simp] theorem pinSlot_platform (k : Fin 18) (s : State) : (pinSlot k s).platform = s.platform := rfl
@[simp] theorem pinSlot_adm (k : Fin 18) (s : State) : (pinSlot k s).adm = s.adm := rfl
@[simp] theorem pinSlot_ranges (k : Fin 18) (s : State) : (pinSlot k s).ranges = s.ranges := rfl
@[simp] theorem pinSlot_slots (k : Fin 18) (s : State) : (pinSlot k s).slots = s.slots.set k (pinnedSlot s.slots[k]) := rfl
@[simp] theorem pinSlot_cred (k : Fin 18) (s : State) : (pinSlot k s).cred = s.cred := rfl
@[simp] theorem pinSlot_derive (k : Fin 18) (s : State) : (pinSlot k s).derive = s.derive := rfl
@[simp] theorem pinSlot_rekey (k : Fin 18) (s : State) : (pinSlot k s).rekey = s.rekey := rfl
@[simp] theorem pinSlot_erase (k : Fin 18) (s : State) : (pinSlot k s).erase = s.erase := rfl
@[simp] theorem pinSlot_watch (k : Fin 18) (s : State) : (pinSlot k s).watch = s.watch := rfl
@[simp] theorem pinSlot_cmd (k : Fin 18) (s : State) : (pinSlot k s).cmd = s.cmd := rfl
@[simp] theorem pinSlot_uptime (k : Fin 18) (s : State) : (pinSlot k s).uptime = s.uptime := rfl
@[simp] theorem pinSlot_copies (k : Fin 18) (s : State) : (pinSlot k s).copies = s.copies := rfl
@[simp] theorem pinSlot_store (k : Fin 18) (s : State) : (pinSlot k s).store = s.store := rfl
@[simp] theorem pinSlot_draws (k : Fin 18) (s : State) : (pinSlot k s).draws = s.draws := rfl
@[simp] theorem pinSlot_deviceKey (k : Fin 18) (s : State) : (pinSlot k s).deviceKey = s.deviceKey := rfl
@[simp] theorem pinSlot_pending (k : Fin 18) (s : State) : (pinSlot k s).pending = s.pending := rfl

/-! ## unpinSlot -/

@[simp] theorem unpinSlot_phase (k : Fin 18) (s : State) : (unpinSlot k s).phase = s.phase := rfl
@[simp] theorem unpinSlot_drive (k : Fin 18) (s : State) : (unpinSlot k s).drive = s.drive := rfl
@[simp] theorem unpinSlot_platform (k : Fin 18) (s : State) : (unpinSlot k s).platform = s.platform := rfl
@[simp] theorem unpinSlot_adm (k : Fin 18) (s : State) : (unpinSlot k s).adm = s.adm := rfl
@[simp] theorem unpinSlot_ranges (k : Fin 18) (s : State) : (unpinSlot k s).ranges = s.ranges := rfl
@[simp] theorem unpinSlot_slots (k : Fin 18) (s : State) : (unpinSlot k s).slots = s.slots.set k (unpinnedSlot s.slots[k]) := rfl
@[simp] theorem unpinSlot_cred (k : Fin 18) (s : State) : (unpinSlot k s).cred = s.cred := rfl
@[simp] theorem unpinSlot_derive (k : Fin 18) (s : State) : (unpinSlot k s).derive = s.derive := rfl
@[simp] theorem unpinSlot_rekey (k : Fin 18) (s : State) : (unpinSlot k s).rekey = s.rekey := rfl
@[simp] theorem unpinSlot_erase (k : Fin 18) (s : State) : (unpinSlot k s).erase = s.erase := rfl
@[simp] theorem unpinSlot_watch (k : Fin 18) (s : State) : (unpinSlot k s).watch = s.watch := rfl
@[simp] theorem unpinSlot_cmd (k : Fin 18) (s : State) : (unpinSlot k s).cmd = s.cmd := rfl
@[simp] theorem unpinSlot_uptime (k : Fin 18) (s : State) : (unpinSlot k s).uptime = s.uptime := rfl
@[simp] theorem unpinSlot_copies (k : Fin 18) (s : State) : (unpinSlot k s).copies = s.copies := rfl
@[simp] theorem unpinSlot_store (k : Fin 18) (s : State) : (unpinSlot k s).store = s.store := rfl
@[simp] theorem unpinSlot_draws (k : Fin 18) (s : State) : (unpinSlot k s).draws = s.draws := rfl
@[simp] theorem unpinSlot_deviceKey (k : Fin 18) (s : State) : (unpinSlot k s).deviceKey = s.deviceKey := rfl
@[simp] theorem unpinSlot_pending (k : Fin 18) (s : State) : (unpinSlot k s).pending = s.pending := rfl

/-! ## modSec -/

@[simp] theorem modSec_phase (f : SecJob → SecJob) (s : State) : (modSec f s).phase = s.phase := rfl
@[simp] theorem modSec_drive (f : SecJob → SecJob) (s : State) : (modSec f s).drive = s.drive := rfl
@[simp] theorem modSec_platform (f : SecJob → SecJob) (s : State) : (modSec f s).platform = s.platform := rfl
@[simp] theorem modSec_adm (f : SecJob → SecJob) (s : State) : (modSec f s).adm = s.adm := rfl
@[simp] theorem modSec_ranges (f : SecJob → SecJob) (s : State) : (modSec f s).ranges = s.ranges := rfl
@[simp] theorem modSec_slots (f : SecJob → SecJob) (s : State) : (modSec f s).slots = s.slots := rfl
@[simp] theorem modSec_cred (f : SecJob → SecJob) (s : State) : (modSec f s).cred = s.cred := rfl
@[simp] theorem modSec_derive (f : SecJob → SecJob) (s : State) : (modSec f s).derive = s.derive := rfl
@[simp] theorem modSec_rekey (f : SecJob → SecJob) (s : State) : (modSec f s).rekey = s.rekey := rfl
@[simp] theorem modSec_erase (f : SecJob → SecJob) (s : State) : (modSec f s).erase = s.erase := rfl
@[simp] theorem modSec_watch (f : SecJob → SecJob) (s : State) : (modSec f s).watch = s.watch := rfl
@[simp] theorem modSec_cmd (f : SecJob → SecJob) (s : State) : (modSec f s).cmd = { s.cmd with sec := s.cmd.sec.map f } := rfl
@[simp] theorem modSec_uptime (f : SecJob → SecJob) (s : State) : (modSec f s).uptime = s.uptime := rfl
@[simp] theorem modSec_copies (f : SecJob → SecJob) (s : State) : (modSec f s).copies = s.copies := rfl
@[simp] theorem modSec_store (f : SecJob → SecJob) (s : State) : (modSec f s).store = s.store := rfl
@[simp] theorem modSec_draws (f : SecJob → SecJob) (s : State) : (modSec f s).draws = s.draws := rfl
@[simp] theorem modSec_deviceKey (f : SecJob → SecJob) (s : State) : (modSec f s).deviceKey = s.deviceKey := rfl
@[simp] theorem modSec_pending (f : SecJob → SecJob) (s : State) : (modSec f s).pending = s.pending := rfl

/-! ## awaitWrites -/

@[simp] theorem awaitWrites_phase (ids : List Nat) (s : State) : (awaitWrites ids s).phase = s.phase := rfl
@[simp] theorem awaitWrites_drive (ids : List Nat) (s : State) : (awaitWrites ids s).drive = s.drive := rfl
@[simp] theorem awaitWrites_platform (ids : List Nat) (s : State) : (awaitWrites ids s).platform = s.platform := rfl
@[simp] theorem awaitWrites_adm (ids : List Nat) (s : State) : (awaitWrites ids s).adm = s.adm := rfl
@[simp] theorem awaitWrites_ranges (ids : List Nat) (s : State) : (awaitWrites ids s).ranges = s.ranges := rfl
@[simp] theorem awaitWrites_slots (ids : List Nat) (s : State) : (awaitWrites ids s).slots = s.slots := rfl
@[simp] theorem awaitWrites_cred (ids : List Nat) (s : State) : (awaitWrites ids s).cred = s.cred := rfl
@[simp] theorem awaitWrites_derive (ids : List Nat) (s : State) : (awaitWrites ids s).derive = s.derive := rfl
@[simp] theorem awaitWrites_rekey (ids : List Nat) (s : State) : (awaitWrites ids s).rekey = s.rekey := rfl
@[simp] theorem awaitWrites_erase (ids : List Nat) (s : State) : (awaitWrites ids s).erase = s.erase := rfl
@[simp] theorem awaitWrites_watch (ids : List Nat) (s : State) : (awaitWrites ids s).watch = s.watch := rfl
@[simp] theorem awaitWrites_cmd (ids : List Nat) (s : State) : (awaitWrites ids s).cmd = { s.cmd with sec := s.cmd.sec.map fun j => if j.lost then j else { j with writes := j.writes ++ ids } } := rfl
@[simp] theorem awaitWrites_uptime (ids : List Nat) (s : State) : (awaitWrites ids s).uptime = s.uptime := rfl
@[simp] theorem awaitWrites_copies (ids : List Nat) (s : State) : (awaitWrites ids s).copies = s.copies := rfl
@[simp] theorem awaitWrites_store (ids : List Nat) (s : State) : (awaitWrites ids s).store = s.store := rfl
@[simp] theorem awaitWrites_draws (ids : List Nat) (s : State) : (awaitWrites ids s).draws = s.draws := rfl
@[simp] theorem awaitWrites_deviceKey (ids : List Nat) (s : State) : (awaitWrites ids s).deviceKey = s.deviceKey := rfl
@[simp] theorem awaitWrites_pending (ids : List Nat) (s : State) : (awaitWrites ids s).pending = s.pending := rfl

/-! ## modPlat -/

@[simp] theorem modPlat_phase (f : PlatJob → PlatJob) (s : State) : (modPlat f s).phase = s.phase := rfl
@[simp] theorem modPlat_drive (f : PlatJob → PlatJob) (s : State) : (modPlat f s).drive = s.drive := rfl
@[simp] theorem modPlat_platform (f : PlatJob → PlatJob) (s : State) : (modPlat f s).platform = s.platform := rfl
@[simp] theorem modPlat_adm (f : PlatJob → PlatJob) (s : State) : (modPlat f s).adm = s.adm := rfl
@[simp] theorem modPlat_ranges (f : PlatJob → PlatJob) (s : State) : (modPlat f s).ranges = s.ranges := rfl
@[simp] theorem modPlat_slots (f : PlatJob → PlatJob) (s : State) : (modPlat f s).slots = s.slots := rfl
@[simp] theorem modPlat_cred (f : PlatJob → PlatJob) (s : State) : (modPlat f s).cred = s.cred := rfl
@[simp] theorem modPlat_derive (f : PlatJob → PlatJob) (s : State) : (modPlat f s).derive = s.derive := rfl
@[simp] theorem modPlat_rekey (f : PlatJob → PlatJob) (s : State) : (modPlat f s).rekey = s.rekey := rfl
@[simp] theorem modPlat_erase (f : PlatJob → PlatJob) (s : State) : (modPlat f s).erase = s.erase := rfl
@[simp] theorem modPlat_watch (f : PlatJob → PlatJob) (s : State) : (modPlat f s).watch = s.watch := rfl
@[simp] theorem modPlat_cmd (f : PlatJob → PlatJob) (s : State) : (modPlat f s).cmd = { s.cmd with plat := s.cmd.plat.map f } := rfl
@[simp] theorem modPlat_uptime (f : PlatJob → PlatJob) (s : State) : (modPlat f s).uptime = s.uptime := rfl
@[simp] theorem modPlat_copies (f : PlatJob → PlatJob) (s : State) : (modPlat f s).copies = s.copies := rfl
@[simp] theorem modPlat_store (f : PlatJob → PlatJob) (s : State) : (modPlat f s).store = s.store := rfl
@[simp] theorem modPlat_draws (f : PlatJob → PlatJob) (s : State) : (modPlat f s).draws = s.draws := rfl
@[simp] theorem modPlat_deviceKey (f : PlatJob → PlatJob) (s : State) : (modPlat f s).deviceKey = s.deviceKey := rfl
@[simp] theorem modPlat_pending (f : PlatJob → PlatJob) (s : State) : (modPlat f s).pending = s.pending := rfl

/-! ## setSecQueue -/

@[simp] theorem setSecQueue_phase (q : List NoticeEntry) (s : State) : (setSecQueue q s).phase = s.phase := rfl
@[simp] theorem setSecQueue_drive (q : List NoticeEntry) (s : State) : (setSecQueue q s).drive = s.drive := rfl
@[simp] theorem setSecQueue_platform (q : List NoticeEntry) (s : State) : (setSecQueue q s).platform = s.platform := rfl
@[simp] theorem setSecQueue_adm (q : List NoticeEntry) (s : State) : (setSecQueue q s).adm = s.adm := rfl
@[simp] theorem setSecQueue_ranges (q : List NoticeEntry) (s : State) : (setSecQueue q s).ranges = s.ranges := rfl
@[simp] theorem setSecQueue_slots (q : List NoticeEntry) (s : State) : (setSecQueue q s).slots = s.slots := rfl
@[simp] theorem setSecQueue_cred (q : List NoticeEntry) (s : State) : (setSecQueue q s).cred = s.cred := rfl
@[simp] theorem setSecQueue_derive (q : List NoticeEntry) (s : State) : (setSecQueue q s).derive = s.derive := rfl
@[simp] theorem setSecQueue_rekey (q : List NoticeEntry) (s : State) : (setSecQueue q s).rekey = s.rekey := rfl
@[simp] theorem setSecQueue_erase (q : List NoticeEntry) (s : State) : (setSecQueue q s).erase = s.erase := rfl
@[simp] theorem setSecQueue_watch (q : List NoticeEntry) (s : State) : (setSecQueue q s).watch = s.watch := rfl
@[simp] theorem setSecQueue_cmd (q : List NoticeEntry) (s : State) : (setSecQueue q s).cmd = { s.cmd with secQueue := q, secAttn := attention q s.cmd.secMask } := rfl
@[simp] theorem setSecQueue_uptime (q : List NoticeEntry) (s : State) : (setSecQueue q s).uptime = s.uptime := rfl
@[simp] theorem setSecQueue_copies (q : List NoticeEntry) (s : State) : (setSecQueue q s).copies = s.copies := rfl
@[simp] theorem setSecQueue_store (q : List NoticeEntry) (s : State) : (setSecQueue q s).store = s.store := rfl
@[simp] theorem setSecQueue_draws (q : List NoticeEntry) (s : State) : (setSecQueue q s).draws = s.draws := rfl
@[simp] theorem setSecQueue_deviceKey (q : List NoticeEntry) (s : State) : (setSecQueue q s).deviceKey = s.deviceKey := rfl
@[simp] theorem setSecQueue_pending (q : List NoticeEntry) (s : State) : (setSecQueue q s).pending = s.pending := rfl

/-! ## setPlatQueue -/

@[simp] theorem setPlatQueue_phase (q : List NoticeEntry) (s : State) : (setPlatQueue q s).phase = s.phase := rfl
@[simp] theorem setPlatQueue_drive (q : List NoticeEntry) (s : State) : (setPlatQueue q s).drive = s.drive := rfl
@[simp] theorem setPlatQueue_platform (q : List NoticeEntry) (s : State) : (setPlatQueue q s).platform = s.platform := rfl
@[simp] theorem setPlatQueue_adm (q : List NoticeEntry) (s : State) : (setPlatQueue q s).adm = s.adm := rfl
@[simp] theorem setPlatQueue_ranges (q : List NoticeEntry) (s : State) : (setPlatQueue q s).ranges = s.ranges := rfl
@[simp] theorem setPlatQueue_slots (q : List NoticeEntry) (s : State) : (setPlatQueue q s).slots = s.slots := rfl
@[simp] theorem setPlatQueue_cred (q : List NoticeEntry) (s : State) : (setPlatQueue q s).cred = s.cred := rfl
@[simp] theorem setPlatQueue_derive (q : List NoticeEntry) (s : State) : (setPlatQueue q s).derive = s.derive := rfl
@[simp] theorem setPlatQueue_rekey (q : List NoticeEntry) (s : State) : (setPlatQueue q s).rekey = s.rekey := rfl
@[simp] theorem setPlatQueue_erase (q : List NoticeEntry) (s : State) : (setPlatQueue q s).erase = s.erase := rfl
@[simp] theorem setPlatQueue_watch (q : List NoticeEntry) (s : State) : (setPlatQueue q s).watch = s.watch := rfl
@[simp] theorem setPlatQueue_cmd (q : List NoticeEntry) (s : State) : (setPlatQueue q s).cmd = { s.cmd with platQueue := q, platAttn := attention q s.cmd.platMask } := rfl
@[simp] theorem setPlatQueue_uptime (q : List NoticeEntry) (s : State) : (setPlatQueue q s).uptime = s.uptime := rfl
@[simp] theorem setPlatQueue_copies (q : List NoticeEntry) (s : State) : (setPlatQueue q s).copies = s.copies := rfl
@[simp] theorem setPlatQueue_store (q : List NoticeEntry) (s : State) : (setPlatQueue q s).store = s.store := rfl
@[simp] theorem setPlatQueue_draws (q : List NoticeEntry) (s : State) : (setPlatQueue q s).draws = s.draws := rfl
@[simp] theorem setPlatQueue_deviceKey (q : List NoticeEntry) (s : State) : (setPlatQueue q s).deviceKey = s.deviceKey := rfl
@[simp] theorem setPlatQueue_pending (q : List NoticeEntry) (s : State) : (setPlatQueue q s).pending = s.pending := rfl

/-! ## setSecMask -/

@[simp] theorem setSecMask_phase (m : BitVec 16) (s : State) : (setSecMask m s).phase = s.phase := rfl
@[simp] theorem setSecMask_drive (m : BitVec 16) (s : State) : (setSecMask m s).drive = s.drive := rfl
@[simp] theorem setSecMask_platform (m : BitVec 16) (s : State) : (setSecMask m s).platform = s.platform := rfl
@[simp] theorem setSecMask_adm (m : BitVec 16) (s : State) : (setSecMask m s).adm = s.adm := rfl
@[simp] theorem setSecMask_ranges (m : BitVec 16) (s : State) : (setSecMask m s).ranges = s.ranges := rfl
@[simp] theorem setSecMask_slots (m : BitVec 16) (s : State) : (setSecMask m s).slots = s.slots := rfl
@[simp] theorem setSecMask_cred (m : BitVec 16) (s : State) : (setSecMask m s).cred = s.cred := rfl
@[simp] theorem setSecMask_derive (m : BitVec 16) (s : State) : (setSecMask m s).derive = s.derive := rfl
@[simp] theorem setSecMask_rekey (m : BitVec 16) (s : State) : (setSecMask m s).rekey = s.rekey := rfl
@[simp] theorem setSecMask_erase (m : BitVec 16) (s : State) : (setSecMask m s).erase = s.erase := rfl
@[simp] theorem setSecMask_watch (m : BitVec 16) (s : State) : (setSecMask m s).watch = s.watch := rfl
@[simp] theorem setSecMask_cmd (m : BitVec 16) (s : State) : (setSecMask m s).cmd = { s.cmd with secMask := m, secAttn := attention s.cmd.secQueue m } := rfl
@[simp] theorem setSecMask_uptime (m : BitVec 16) (s : State) : (setSecMask m s).uptime = s.uptime := rfl
@[simp] theorem setSecMask_copies (m : BitVec 16) (s : State) : (setSecMask m s).copies = s.copies := rfl
@[simp] theorem setSecMask_store (m : BitVec 16) (s : State) : (setSecMask m s).store = s.store := rfl
@[simp] theorem setSecMask_draws (m : BitVec 16) (s : State) : (setSecMask m s).draws = s.draws := rfl
@[simp] theorem setSecMask_deviceKey (m : BitVec 16) (s : State) : (setSecMask m s).deviceKey = s.deviceKey := rfl
@[simp] theorem setSecMask_pending (m : BitVec 16) (s : State) : (setSecMask m s).pending = s.pending := rfl

/-! ## setPlatMask -/

@[simp] theorem setPlatMask_phase (m : BitVec 16) (s : State) : (setPlatMask m s).phase = s.phase := rfl
@[simp] theorem setPlatMask_drive (m : BitVec 16) (s : State) : (setPlatMask m s).drive = s.drive := rfl
@[simp] theorem setPlatMask_platform (m : BitVec 16) (s : State) : (setPlatMask m s).platform = s.platform := rfl
@[simp] theorem setPlatMask_adm (m : BitVec 16) (s : State) : (setPlatMask m s).adm = s.adm := rfl
@[simp] theorem setPlatMask_ranges (m : BitVec 16) (s : State) : (setPlatMask m s).ranges = s.ranges := rfl
@[simp] theorem setPlatMask_slots (m : BitVec 16) (s : State) : (setPlatMask m s).slots = s.slots := rfl
@[simp] theorem setPlatMask_cred (m : BitVec 16) (s : State) : (setPlatMask m s).cred = s.cred := rfl
@[simp] theorem setPlatMask_derive (m : BitVec 16) (s : State) : (setPlatMask m s).derive = s.derive := rfl
@[simp] theorem setPlatMask_rekey (m : BitVec 16) (s : State) : (setPlatMask m s).rekey = s.rekey := rfl
@[simp] theorem setPlatMask_erase (m : BitVec 16) (s : State) : (setPlatMask m s).erase = s.erase := rfl
@[simp] theorem setPlatMask_watch (m : BitVec 16) (s : State) : (setPlatMask m s).watch = s.watch := rfl
@[simp] theorem setPlatMask_cmd (m : BitVec 16) (s : State) : (setPlatMask m s).cmd = { s.cmd with platMask := m, platAttn := attention s.cmd.platQueue m } := rfl
@[simp] theorem setPlatMask_uptime (m : BitVec 16) (s : State) : (setPlatMask m s).uptime = s.uptime := rfl
@[simp] theorem setPlatMask_copies (m : BitVec 16) (s : State) : (setPlatMask m s).copies = s.copies := rfl
@[simp] theorem setPlatMask_store (m : BitVec 16) (s : State) : (setPlatMask m s).store = s.store := rfl
@[simp] theorem setPlatMask_draws (m : BitVec 16) (s : State) : (setPlatMask m s).draws = s.draws := rfl
@[simp] theorem setPlatMask_deviceKey (m : BitVec 16) (s : State) : (setPlatMask m s).deviceKey = s.deviceKey := rfl
@[simp] theorem setPlatMask_pending (m : BitVec 16) (s : State) : (setPlatMask m s).pending = s.pending := rfl

/-! ## bumpSeq -/

@[simp] theorem bumpSeq_phase (s : State) : (bumpSeq s).phase = s.phase := rfl
@[simp] theorem bumpSeq_drive (s : State) : (bumpSeq s).drive = s.drive := rfl
@[simp] theorem bumpSeq_platform (s : State) : (bumpSeq s).platform = s.platform := rfl
@[simp] theorem bumpSeq_adm (s : State) : (bumpSeq s).adm = s.adm := rfl
@[simp] theorem bumpSeq_ranges (s : State) : (bumpSeq s).ranges = s.ranges := rfl
@[simp] theorem bumpSeq_slots (s : State) : (bumpSeq s).slots = s.slots := rfl
@[simp] theorem bumpSeq_cred (s : State) : (bumpSeq s).cred = s.cred := rfl
@[simp] theorem bumpSeq_derive (s : State) : (bumpSeq s).derive = s.derive := rfl
@[simp] theorem bumpSeq_rekey (s : State) : (bumpSeq s).rekey = s.rekey := rfl
@[simp] theorem bumpSeq_erase (s : State) : (bumpSeq s).erase = s.erase := rfl
@[simp] theorem bumpSeq_watch (s : State) : (bumpSeq s).watch = s.watch := rfl
@[simp] theorem bumpSeq_cmd (s : State) : (bumpSeq s).cmd = { s.cmd with seq := s.cmd.seq + 1 } := rfl
@[simp] theorem bumpSeq_uptime (s : State) : (bumpSeq s).uptime = s.uptime := rfl
@[simp] theorem bumpSeq_copies (s : State) : (bumpSeq s).copies = s.copies := rfl
@[simp] theorem bumpSeq_store (s : State) : (bumpSeq s).store = s.store := rfl
@[simp] theorem bumpSeq_draws (s : State) : (bumpSeq s).draws = s.draws := rfl
@[simp] theorem bumpSeq_deviceKey (s : State) : (bumpSeq s).deviceKey = s.deviceKey := rfl
@[simp] theorem bumpSeq_pending (s : State) : (bumpSeq s).pending = s.pending := rfl

/-! ## noticeSec -/

@[simp] theorem noticeSec_phase (n : Notice) (s : State) : (noticeSec n s).phase = s.phase := rfl
@[simp] theorem noticeSec_drive (n : Notice) (s : State) : (noticeSec n s).drive = s.drive := rfl
@[simp] theorem noticeSec_platform (n : Notice) (s : State) : (noticeSec n s).platform = s.platform := rfl
@[simp] theorem noticeSec_adm (n : Notice) (s : State) : (noticeSec n s).adm = s.adm := rfl
@[simp] theorem noticeSec_ranges (n : Notice) (s : State) : (noticeSec n s).ranges = s.ranges := rfl
@[simp] theorem noticeSec_slots (n : Notice) (s : State) : (noticeSec n s).slots = s.slots := rfl
@[simp] theorem noticeSec_cred (n : Notice) (s : State) : (noticeSec n s).cred = s.cred := rfl
@[simp] theorem noticeSec_derive (n : Notice) (s : State) : (noticeSec n s).derive = s.derive := rfl
@[simp] theorem noticeSec_rekey (n : Notice) (s : State) : (noticeSec n s).rekey = s.rekey := rfl
@[simp] theorem noticeSec_erase (n : Notice) (s : State) : (noticeSec n s).erase = s.erase := rfl
@[simp] theorem noticeSec_watch (n : Notice) (s : State) : (noticeSec n s).watch = s.watch := rfl
@[simp] theorem noticeSec_sec (n : Notice) (s : State) : (noticeSec n s).cmd.sec = s.cmd.sec := rfl
@[simp] theorem noticeSec_plat (n : Notice) (s : State) : (noticeSec n s).cmd.plat = s.cmd.plat := rfl
@[simp] theorem noticeSec_secQueue (n : Notice) (s : State) : (noticeSec n s).cmd.secQueue = joinQueue 32 ⟨n, false, s.cmd.seq⟩ s.cmd.secQueue := rfl
@[simp] theorem noticeSec_platQueue (n : Notice) (s : State) : (noticeSec n s).cmd.platQueue = s.cmd.platQueue := rfl
@[simp] theorem noticeSec_secMask (n : Notice) (s : State) : (noticeSec n s).cmd.secMask = s.cmd.secMask := rfl
@[simp] theorem noticeSec_platMask (n : Notice) (s : State) : (noticeSec n s).cmd.platMask = s.cmd.platMask := rfl
@[simp] theorem noticeSec_uptime (n : Notice) (s : State) : (noticeSec n s).uptime = s.uptime := rfl
@[simp] theorem noticeSec_copies (n : Notice) (s : State) : (noticeSec n s).copies = s.copies := rfl
@[simp] theorem noticeSec_store (n : Notice) (s : State) : (noticeSec n s).store = s.store := rfl
@[simp] theorem noticeSec_draws (n : Notice) (s : State) : (noticeSec n s).draws = s.draws := rfl
@[simp] theorem noticeSec_deviceKey (n : Notice) (s : State) : (noticeSec n s).deviceKey = s.deviceKey := rfl
@[simp] theorem noticeSec_pending (n : Notice) (s : State) : (noticeSec n s).pending = s.pending := rfl

/-! ## noticePlat -/

@[simp] theorem noticePlat_phase (n : Notice) (s : State) : (noticePlat n s).phase = s.phase := rfl
@[simp] theorem noticePlat_drive (n : Notice) (s : State) : (noticePlat n s).drive = s.drive := rfl
@[simp] theorem noticePlat_platform (n : Notice) (s : State) : (noticePlat n s).platform = s.platform := rfl
@[simp] theorem noticePlat_adm (n : Notice) (s : State) : (noticePlat n s).adm = s.adm := rfl
@[simp] theorem noticePlat_ranges (n : Notice) (s : State) : (noticePlat n s).ranges = s.ranges := rfl
@[simp] theorem noticePlat_slots (n : Notice) (s : State) : (noticePlat n s).slots = s.slots := rfl
@[simp] theorem noticePlat_cred (n : Notice) (s : State) : (noticePlat n s).cred = s.cred := rfl
@[simp] theorem noticePlat_derive (n : Notice) (s : State) : (noticePlat n s).derive = s.derive := rfl
@[simp] theorem noticePlat_rekey (n : Notice) (s : State) : (noticePlat n s).rekey = s.rekey := rfl
@[simp] theorem noticePlat_erase (n : Notice) (s : State) : (noticePlat n s).erase = s.erase := rfl
@[simp] theorem noticePlat_watch (n : Notice) (s : State) : (noticePlat n s).watch = s.watch := rfl
@[simp] theorem noticePlat_sec (n : Notice) (s : State) : (noticePlat n s).cmd.sec = s.cmd.sec := rfl
@[simp] theorem noticePlat_plat (n : Notice) (s : State) : (noticePlat n s).cmd.plat = s.cmd.plat := rfl
@[simp] theorem noticePlat_secQueue (n : Notice) (s : State) : (noticePlat n s).cmd.secQueue = s.cmd.secQueue := rfl
@[simp] theorem noticePlat_platQueue (n : Notice) (s : State) : (noticePlat n s).cmd.platQueue = joinQueue 16 ⟨n, false, s.cmd.seq⟩ s.cmd.platQueue := rfl
@[simp] theorem noticePlat_secMask (n : Notice) (s : State) : (noticePlat n s).cmd.secMask = s.cmd.secMask := rfl
@[simp] theorem noticePlat_platMask (n : Notice) (s : State) : (noticePlat n s).cmd.platMask = s.cmd.platMask := rfl
@[simp] theorem noticePlat_uptime (n : Notice) (s : State) : (noticePlat n s).uptime = s.uptime := rfl
@[simp] theorem noticePlat_copies (n : Notice) (s : State) : (noticePlat n s).copies = s.copies := rfl
@[simp] theorem noticePlat_store (n : Notice) (s : State) : (noticePlat n s).store = s.store := rfl
@[simp] theorem noticePlat_draws (n : Notice) (s : State) : (noticePlat n s).draws = s.draws := rfl
@[simp] theorem noticePlat_deviceKey (n : Notice) (s : State) : (noticePlat n s).deviceKey = s.deviceKey := rfl
@[simp] theorem noticePlat_pending (n : Notice) (s : State) : (noticePlat n s).pending = s.pending := rfl

/-! ## addIncident -/

@[simp] theorem addIncident_phase (k : IncidentKind) (s : State) : (addIncident k s).phase = s.phase := rfl
@[simp] theorem addIncident_drive (k : IncidentKind) (s : State) : (addIncident k s).drive = s.drive := rfl
@[simp] theorem addIncident_platform (k : IncidentKind) (s : State) : (addIncident k s).platform = s.platform := rfl
@[simp] theorem addIncident_adm (k : IncidentKind) (s : State) : (addIncident k s).adm = s.adm := rfl
@[simp] theorem addIncident_ranges (k : IncidentKind) (s : State) : (addIncident k s).ranges = s.ranges := rfl
@[simp] theorem addIncident_slots (k : IncidentKind) (s : State) : (addIncident k s).slots = s.slots := rfl
@[simp] theorem addIncident_cred (k : IncidentKind) (s : State) : (addIncident k s).cred = s.cred := rfl
@[simp] theorem addIncident_derive (k : IncidentKind) (s : State) : (addIncident k s).derive = s.derive := rfl
@[simp] theorem addIncident_rekey (k : IncidentKind) (s : State) : (addIncident k s).rekey = s.rekey := rfl
@[simp] theorem addIncident_erase (k : IncidentKind) (s : State) : (addIncident k s).erase = s.erase := rfl
@[simp] theorem addIncident_watch (k : IncidentKind) (s : State) : (addIncident k s).watch = s.watch := rfl
@[simp] theorem addIncident_cmd (k : IncidentKind) (s : State) : (addIncident k s).cmd = s.cmd := rfl
@[simp] theorem addIncident_uptime (k : IncidentKind) (s : State) : (addIncident k s).uptime = s.uptime := rfl
@[simp] theorem addIncident_copies (k : IncidentKind) (s : State) : (addIncident k s).copies = { s.copies with incidents := joinIncident ⟨k, s.copies.boot, s.uptime, s.copies.watch.score⟩ s.copies.incidents } := rfl
@[simp] theorem addIncident_draws (k : IncidentKind) (s : State) : (addIncident k s).draws = s.draws := rfl
@[simp] theorem addIncident_deviceKey (k : IncidentKind) (s : State) : (addIncident k s).deviceKey = s.deviceKey := rfl
@[simp] theorem addIncident_pending (k : IncidentKind) (s : State) : (addIncident k s).pending = s.pending := rfl

/-! ## setScore -/

@[simp] theorem setScore_phase (n : Nat) (s : State) : (setScore n s).phase = s.phase := rfl
@[simp] theorem setScore_drive (n : Nat) (s : State) : (setScore n s).drive = s.drive := rfl
@[simp] theorem setScore_platform (n : Nat) (s : State) : (setScore n s).platform = s.platform := rfl
@[simp] theorem setScore_adm (n : Nat) (s : State) : (setScore n s).adm = s.adm := rfl
@[simp] theorem setScore_ranges (n : Nat) (s : State) : (setScore n s).ranges = s.ranges := rfl
@[simp] theorem setScore_slots (n : Nat) (s : State) : (setScore n s).slots = s.slots := rfl
@[simp] theorem setScore_cred (n : Nat) (s : State) : (setScore n s).cred = s.cred := rfl
@[simp] theorem setScore_derive (n : Nat) (s : State) : (setScore n s).derive = s.derive := rfl
@[simp] theorem setScore_rekey (n : Nat) (s : State) : (setScore n s).rekey = s.rekey := rfl
@[simp] theorem setScore_erase (n : Nat) (s : State) : (setScore n s).erase = s.erase := rfl
@[simp] theorem setScore_watch (n : Nat) (s : State) : (setScore n s).watch = s.watch := rfl
@[simp] theorem setScore_cmd (n : Nat) (s : State) : (setScore n s).cmd = s.cmd := rfl
@[simp] theorem setScore_uptime (n : Nat) (s : State) : (setScore n s).uptime = s.uptime := rfl
@[simp] theorem setScore_copies (n : Nat) (s : State) : (setScore n s).copies = { s.copies with watch := { s.copies.watch with score := n } } := rfl
@[simp] theorem setScore_store (n : Nat) (s : State) : (setScore n s).store = s.store := rfl
@[simp] theorem setScore_draws (n : Nat) (s : State) : (setScore n s).draws = s.draws := rfl
@[simp] theorem setScore_deviceKey (n : Nat) (s : State) : (setScore n s).deviceKey = s.deviceKey := rfl
@[simp] theorem setScore_pending (n : Nat) (s : State) : (setScore n s).pending = s.pending := rfl

/-! ## setDecay -/

@[simp] theorem setDecay_phase (d : Option Nat) (s : State) : (setDecay d s).phase = s.phase := rfl
@[simp] theorem setDecay_drive (d : Option Nat) (s : State) : (setDecay d s).drive = s.drive := rfl
@[simp] theorem setDecay_platform (d : Option Nat) (s : State) : (setDecay d s).platform = s.platform := rfl
@[simp] theorem setDecay_adm (d : Option Nat) (s : State) : (setDecay d s).adm = s.adm := rfl
@[simp] theorem setDecay_ranges (d : Option Nat) (s : State) : (setDecay d s).ranges = s.ranges := rfl
@[simp] theorem setDecay_slots (d : Option Nat) (s : State) : (setDecay d s).slots = s.slots := rfl
@[simp] theorem setDecay_cred (d : Option Nat) (s : State) : (setDecay d s).cred = s.cred := rfl
@[simp] theorem setDecay_derive (d : Option Nat) (s : State) : (setDecay d s).derive = s.derive := rfl
@[simp] theorem setDecay_rekey (d : Option Nat) (s : State) : (setDecay d s).rekey = s.rekey := rfl
@[simp] theorem setDecay_erase (d : Option Nat) (s : State) : (setDecay d s).erase = s.erase := rfl
@[simp] theorem setDecay_watch (d : Option Nat) (s : State) : (setDecay d s).watch = { s.watch with decay := d } := rfl
@[simp] theorem setDecay_cmd (d : Option Nat) (s : State) : (setDecay d s).cmd = s.cmd := rfl
@[simp] theorem setDecay_uptime (d : Option Nat) (s : State) : (setDecay d s).uptime = s.uptime := rfl
@[simp] theorem setDecay_copies (d : Option Nat) (s : State) : (setDecay d s).copies = s.copies := rfl
@[simp] theorem setDecay_store (d : Option Nat) (s : State) : (setDecay d s).store = s.store := rfl
@[simp] theorem setDecay_draws (d : Option Nat) (s : State) : (setDecay d s).draws = s.draws := rfl
@[simp] theorem setDecay_deviceKey (d : Option Nat) (s : State) : (setDecay d s).deviceKey = s.deviceKey := rfl
@[simp] theorem setDecay_pending (d : Option Nat) (s : State) : (setDecay d s).pending = s.pending := rfl

/-! ## setPending -/

@[simp] theorem setPending_phase (l : List (Fin 16)) (s : State) : (setPending l s).phase = s.phase := rfl
@[simp] theorem setPending_drive (l : List (Fin 16)) (s : State) : (setPending l s).drive = s.drive := rfl
@[simp] theorem setPending_platform (l : List (Fin 16)) (s : State) : (setPending l s).platform = s.platform := rfl
@[simp] theorem setPending_adm (l : List (Fin 16)) (s : State) : (setPending l s).adm = s.adm := rfl
@[simp] theorem setPending_ranges (l : List (Fin 16)) (s : State) : (setPending l s).ranges = s.ranges := rfl
@[simp] theorem setPending_slots (l : List (Fin 16)) (s : State) : (setPending l s).slots = s.slots := rfl
@[simp] theorem setPending_cred (l : List (Fin 16)) (s : State) : (setPending l s).cred = { s.cred with pendingSet := l } := rfl
@[simp] theorem setPending_derive (l : List (Fin 16)) (s : State) : (setPending l s).derive = s.derive := rfl
@[simp] theorem setPending_rekey (l : List (Fin 16)) (s : State) : (setPending l s).rekey = s.rekey := rfl
@[simp] theorem setPending_erase (l : List (Fin 16)) (s : State) : (setPending l s).erase = s.erase := rfl
@[simp] theorem setPending_watch (l : List (Fin 16)) (s : State) : (setPending l s).watch = s.watch := rfl
@[simp] theorem setPending_cmd (l : List (Fin 16)) (s : State) : (setPending l s).cmd = s.cmd := rfl
@[simp] theorem setPending_uptime (l : List (Fin 16)) (s : State) : (setPending l s).uptime = s.uptime := rfl
@[simp] theorem setPending_copies (l : List (Fin 16)) (s : State) : (setPending l s).copies = s.copies := rfl
@[simp] theorem setPending_store (l : List (Fin 16)) (s : State) : (setPending l s).store = s.store := rfl
@[simp] theorem setPending_draws (l : List (Fin 16)) (s : State) : (setPending l s).draws = s.draws := rfl
@[simp] theorem setPending_deviceKey (l : List (Fin 16)) (s : State) : (setPending l s).deviceKey = s.deviceKey := rfl
@[simp] theorem setPending_pending (l : List (Fin 16)) (s : State) : (setPending l s).pending = s.pending := rfl

/-! ## leavePending -/

@[simp] theorem leavePending_phase (r : Fin 16) (s : State) : (leavePending r s).phase = s.phase := rfl
@[simp] theorem leavePending_drive (r : Fin 16) (s : State) : (leavePending r s).drive = s.drive := rfl
@[simp] theorem leavePending_platform (r : Fin 16) (s : State) : (leavePending r s).platform = s.platform := rfl
@[simp] theorem leavePending_adm (r : Fin 16) (s : State) : (leavePending r s).adm = s.adm := rfl
@[simp] theorem leavePending_ranges (r : Fin 16) (s : State) : (leavePending r s).ranges = s.ranges := rfl
@[simp] theorem leavePending_slots (r : Fin 16) (s : State) : (leavePending r s).slots = s.slots := rfl
@[simp] theorem leavePending_cred (r : Fin 16) (s : State) : (leavePending r s).cred = { s.cred with pendingSet := s.cred.pendingSet.filter (fun q => q != r) } := rfl
@[simp] theorem leavePending_derive (r : Fin 16) (s : State) : (leavePending r s).derive = s.derive := rfl
@[simp] theorem leavePending_rekey (r : Fin 16) (s : State) : (leavePending r s).rekey = s.rekey := rfl
@[simp] theorem leavePending_erase (r : Fin 16) (s : State) : (leavePending r s).erase = s.erase := rfl
@[simp] theorem leavePending_watch (r : Fin 16) (s : State) : (leavePending r s).watch = s.watch := rfl
@[simp] theorem leavePending_cmd (r : Fin 16) (s : State) : (leavePending r s).cmd = s.cmd := rfl
@[simp] theorem leavePending_uptime (r : Fin 16) (s : State) : (leavePending r s).uptime = s.uptime := rfl
@[simp] theorem leavePending_copies (r : Fin 16) (s : State) : (leavePending r s).copies = s.copies := rfl
@[simp] theorem leavePending_store (r : Fin 16) (s : State) : (leavePending r s).store = s.store := rfl
@[simp] theorem leavePending_draws (r : Fin 16) (s : State) : (leavePending r s).draws = s.draws := rfl
@[simp] theorem leavePending_deviceKey (r : Fin 16) (s : State) : (leavePending r s).deviceKey = s.deviceKey := rfl
@[simp] theorem leavePending_pending (r : Fin 16) (s : State) : (leavePending r s).pending = s.pending := rfl

/-! ## setBinding -/

@[simp] theorem setBinding_phase (b : Binding) (s : State) : (setBinding b s).phase = s.phase := rfl
@[simp] theorem setBinding_drive (b : Binding) (s : State) : (setBinding b s).drive = s.drive := rfl
@[simp] theorem setBinding_platform (b : Binding) (s : State) : (setBinding b s).platform = s.platform := rfl
@[simp] theorem setBinding_adm (b : Binding) (s : State) : (setBinding b s).adm = s.adm := rfl
@[simp] theorem setBinding_ranges (b : Binding) (s : State) : (setBinding b s).ranges = s.ranges := rfl
@[simp] theorem setBinding_slots (b : Binding) (s : State) : (setBinding b s).slots = s.slots := rfl
@[simp] theorem setBinding_cred (b : Binding) (s : State) : (setBinding b s).cred = s.cred := rfl
@[simp] theorem setBinding_derive (b : Binding) (s : State) : (setBinding b s).derive = s.derive := rfl
@[simp] theorem setBinding_rekey (b : Binding) (s : State) : (setBinding b s).rekey = s.rekey := rfl
@[simp] theorem setBinding_erase (b : Binding) (s : State) : (setBinding b s).erase = s.erase := rfl
@[simp] theorem setBinding_watch (b : Binding) (s : State) : (setBinding b s).watch = { s.watch with binding := b } := rfl
@[simp] theorem setBinding_cmd (b : Binding) (s : State) : (setBinding b s).cmd = s.cmd := rfl
@[simp] theorem setBinding_uptime (b : Binding) (s : State) : (setBinding b s).uptime = s.uptime := rfl
@[simp] theorem setBinding_copies (b : Binding) (s : State) : (setBinding b s).copies = s.copies := rfl
@[simp] theorem setBinding_store (b : Binding) (s : State) : (setBinding b s).store = s.store := rfl
@[simp] theorem setBinding_draws (b : Binding) (s : State) : (setBinding b s).draws = s.draws := rfl
@[simp] theorem setBinding_deviceKey (b : Binding) (s : State) : (setBinding b s).deviceKey = s.deviceKey := rfl
@[simp] theorem setBinding_pending (b : Binding) (s : State) : (setBinding b s).pending = s.pending := rfl

/-! ## setHoldDown -/

@[simp] theorem setHoldDown_phase (n : Fin 4) (v : Option Nat) (s : State) : (setHoldDown n v s).phase = s.phase := rfl
@[simp] theorem setHoldDown_drive (n : Fin 4) (v : Option Nat) (s : State) : (setHoldDown n v s).drive = s.drive := rfl
@[simp] theorem setHoldDown_platform (n : Fin 4) (v : Option Nat) (s : State) : (setHoldDown n v s).platform = s.platform := rfl
@[simp] theorem setHoldDown_adm (n : Fin 4) (v : Option Nat) (s : State) : (setHoldDown n v s).adm = s.adm := rfl
@[simp] theorem setHoldDown_ranges (n : Fin 4) (v : Option Nat) (s : State) : (setHoldDown n v s).ranges = s.ranges := rfl
@[simp] theorem setHoldDown_slots (n : Fin 4) (v : Option Nat) (s : State) : (setHoldDown n v s).slots = s.slots := rfl
@[simp] theorem setHoldDown_cred (n : Fin 4) (v : Option Nat) (s : State) : (setHoldDown n v s).cred = s.cred := rfl
@[simp] theorem setHoldDown_derive (n : Fin 4) (v : Option Nat) (s : State) : (setHoldDown n v s).derive = s.derive := rfl
@[simp] theorem setHoldDown_rekey (n : Fin 4) (v : Option Nat) (s : State) : (setHoldDown n v s).rekey = s.rekey := rfl
@[simp] theorem setHoldDown_erase (n : Fin 4) (v : Option Nat) (s : State) : (setHoldDown n v s).erase = s.erase := rfl
@[simp] theorem setHoldDown_watch (n : Fin 4) (v : Option Nat) (s : State) : (setHoldDown n v s).watch = { s.watch with holdDowns := s.watch.holdDowns.set n v } := rfl
@[simp] theorem setHoldDown_cmd (n : Fin 4) (v : Option Nat) (s : State) : (setHoldDown n v s).cmd = s.cmd := rfl
@[simp] theorem setHoldDown_uptime (n : Fin 4) (v : Option Nat) (s : State) : (setHoldDown n v s).uptime = s.uptime := rfl
@[simp] theorem setHoldDown_copies (n : Fin 4) (v : Option Nat) (s : State) : (setHoldDown n v s).copies = s.copies := rfl
@[simp] theorem setHoldDown_store (n : Fin 4) (v : Option Nat) (s : State) : (setHoldDown n v s).store = s.store := rfl
@[simp] theorem setHoldDown_draws (n : Fin 4) (v : Option Nat) (s : State) : (setHoldDown n v s).draws = s.draws := rfl
@[simp] theorem setHoldDown_deviceKey (n : Fin 4) (v : Option Nat) (s : State) : (setHoldDown n v s).deviceKey = s.deviceKey := rfl
@[simp] theorem setHoldDown_pending (n : Fin 4) (v : Option Nat) (s : State) : (setHoldDown n v s).pending = s.pending := rfl

/-! ## setBuffer -/

@[simp] theorem setBuffer_phase (b : Option PlatAnswer) (s : State) : (setBuffer b s).phase = s.phase := rfl
@[simp] theorem setBuffer_drive (b : Option PlatAnswer) (s : State) : (setBuffer b s).drive = s.drive := rfl
@[simp] theorem setBuffer_platform (b : Option PlatAnswer) (s : State) : (setBuffer b s).platform = { s.platform with buffer := b } := rfl
@[simp] theorem setBuffer_adm (b : Option PlatAnswer) (s : State) : (setBuffer b s).adm = s.adm := rfl
@[simp] theorem setBuffer_ranges (b : Option PlatAnswer) (s : State) : (setBuffer b s).ranges = s.ranges := rfl
@[simp] theorem setBuffer_slots (b : Option PlatAnswer) (s : State) : (setBuffer b s).slots = s.slots := rfl
@[simp] theorem setBuffer_cred (b : Option PlatAnswer) (s : State) : (setBuffer b s).cred = s.cred := rfl
@[simp] theorem setBuffer_derive (b : Option PlatAnswer) (s : State) : (setBuffer b s).derive = s.derive := rfl
@[simp] theorem setBuffer_rekey (b : Option PlatAnswer) (s : State) : (setBuffer b s).rekey = s.rekey := rfl
@[simp] theorem setBuffer_erase (b : Option PlatAnswer) (s : State) : (setBuffer b s).erase = s.erase := rfl
@[simp] theorem setBuffer_watch (b : Option PlatAnswer) (s : State) : (setBuffer b s).watch = s.watch := rfl
@[simp] theorem setBuffer_cmd (b : Option PlatAnswer) (s : State) : (setBuffer b s).cmd = s.cmd := rfl
@[simp] theorem setBuffer_uptime (b : Option PlatAnswer) (s : State) : (setBuffer b s).uptime = s.uptime := rfl
@[simp] theorem setBuffer_copies (b : Option PlatAnswer) (s : State) : (setBuffer b s).copies = s.copies := rfl
@[simp] theorem setBuffer_store (b : Option PlatAnswer) (s : State) : (setBuffer b s).store = s.store := rfl
@[simp] theorem setBuffer_draws (b : Option PlatAnswer) (s : State) : (setBuffer b s).draws = s.draws := rfl
@[simp] theorem setBuffer_deviceKey (b : Option PlatAnswer) (s : State) : (setBuffer b s).deviceKey = s.deviceKey := rfl
@[simp] theorem setBuffer_pending (b : Option PlatAnswer) (s : State) : (setBuffer b s).pending = s.pending := rfl

/-! ## setLastRead -/

@[simp] theorem setLastRead_phase (a : Option ReadAnswer) (s : State) : (setLastRead a s).phase = s.phase := rfl
@[simp] theorem setLastRead_drive (a : Option ReadAnswer) (s : State) : (setLastRead a s).drive = s.drive := rfl
@[simp] theorem setLastRead_platform (a : Option ReadAnswer) (s : State) : (setLastRead a s).platform = { s.platform with lastRead := a } := rfl
@[simp] theorem setLastRead_adm (a : Option ReadAnswer) (s : State) : (setLastRead a s).adm = s.adm := rfl
@[simp] theorem setLastRead_ranges (a : Option ReadAnswer) (s : State) : (setLastRead a s).ranges = s.ranges := rfl
@[simp] theorem setLastRead_slots (a : Option ReadAnswer) (s : State) : (setLastRead a s).slots = s.slots := rfl
@[simp] theorem setLastRead_cred (a : Option ReadAnswer) (s : State) : (setLastRead a s).cred = s.cred := rfl
@[simp] theorem setLastRead_derive (a : Option ReadAnswer) (s : State) : (setLastRead a s).derive = s.derive := rfl
@[simp] theorem setLastRead_rekey (a : Option ReadAnswer) (s : State) : (setLastRead a s).rekey = s.rekey := rfl
@[simp] theorem setLastRead_erase (a : Option ReadAnswer) (s : State) : (setLastRead a s).erase = s.erase := rfl
@[simp] theorem setLastRead_watch (a : Option ReadAnswer) (s : State) : (setLastRead a s).watch = s.watch := rfl
@[simp] theorem setLastRead_cmd (a : Option ReadAnswer) (s : State) : (setLastRead a s).cmd = s.cmd := rfl
@[simp] theorem setLastRead_uptime (a : Option ReadAnswer) (s : State) : (setLastRead a s).uptime = s.uptime := rfl
@[simp] theorem setLastRead_copies (a : Option ReadAnswer) (s : State) : (setLastRead a s).copies = s.copies := rfl
@[simp] theorem setLastRead_store (a : Option ReadAnswer) (s : State) : (setLastRead a s).store = s.store := rfl
@[simp] theorem setLastRead_draws (a : Option ReadAnswer) (s : State) : (setLastRead a s).draws = s.draws := rfl
@[simp] theorem setLastRead_deviceKey (a : Option ReadAnswer) (s : State) : (setLastRead a s).deviceKey = s.deviceKey := rfl
@[simp] theorem setLastRead_pending (a : Option ReadAnswer) (s : State) : (setLastRead a s).pending = s.pending := rfl

/-! ## arm -/

@[simp] theorem arm_phase (s : State) : (arm s).phase = s.phase := rfl
@[simp] theorem arm_drive (s : State) : (arm s).drive = s.drive := rfl
@[simp] theorem arm_platform (s : State) : (arm s).platform = s.platform := rfl
@[simp] theorem arm_adm (s : State) : (arm s).adm = s.adm := rfl
@[simp] theorem arm_ranges (s : State) : (arm s).ranges = s.ranges := rfl
@[simp] theorem arm_slots (s : State) : (arm s).slots = s.slots := rfl
@[simp] theorem arm_cred (s : State) : (arm s).cred = s.cred := rfl
@[simp] theorem arm_derive (s : State) : (arm s).derive = s.derive := rfl
@[simp] theorem arm_rekey (s : State) : (arm s).rekey = s.rekey := rfl
@[simp] theorem arm_erase (s : State) : (arm s).erase = s.erase := rfl
@[simp] theorem arm_watch (s : State) : (arm s).watch = { s.watch with supervision := .armed, checkin := 0 } := rfl
@[simp] theorem arm_cmd (s : State) : (arm s).cmd = s.cmd := rfl
@[simp] theorem arm_uptime (s : State) : (arm s).uptime = s.uptime := rfl
@[simp] theorem arm_copies (s : State) : (arm s).copies = s.copies := rfl
@[simp] theorem arm_store (s : State) : (arm s).store = s.store := rfl
@[simp] theorem arm_draws (s : State) : (arm s).draws = s.draws := rfl
@[simp] theorem arm_deviceKey (s : State) : (arm s).deviceKey = s.deviceKey := rfl
@[simp] theorem arm_pending (s : State) : (arm s).pending = s.pending := rfl

/-! ## sent -/

@[simp] theorem sent_phase (f : OutFrame) (s : State) : (sent f s).phase = s.phase := rfl
@[simp] theorem sent_drive (f : OutFrame) (s : State) : (sent f s).drive = { s.drive with outbox := s.drive.outbox ++ [f] } := rfl
@[simp] theorem sent_platform (f : OutFrame) (s : State) : (sent f s).platform = s.platform := rfl
@[simp] theorem sent_adm (f : OutFrame) (s : State) : (sent f s).adm = s.adm := rfl
@[simp] theorem sent_ranges (f : OutFrame) (s : State) : (sent f s).ranges = s.ranges := rfl
@[simp] theorem sent_slots (f : OutFrame) (s : State) : (sent f s).slots = s.slots := rfl
@[simp] theorem sent_cred (f : OutFrame) (s : State) : (sent f s).cred = s.cred := rfl
@[simp] theorem sent_derive (f : OutFrame) (s : State) : (sent f s).derive = s.derive := rfl
@[simp] theorem sent_rekey (f : OutFrame) (s : State) : (sent f s).rekey = s.rekey := rfl
@[simp] theorem sent_erase (f : OutFrame) (s : State) : (sent f s).erase = s.erase := rfl
@[simp] theorem sent_watch (f : OutFrame) (s : State) : (sent f s).watch = s.watch := rfl
@[simp] theorem sent_cmd (f : OutFrame) (s : State) : (sent f s).cmd = s.cmd := rfl
@[simp] theorem sent_uptime (f : OutFrame) (s : State) : (sent f s).uptime = s.uptime := rfl
@[simp] theorem sent_copies (f : OutFrame) (s : State) : (sent f s).copies = s.copies := rfl
@[simp] theorem sent_store (f : OutFrame) (s : State) : (sent f s).store = s.store := rfl
@[simp] theorem sent_draws (f : OutFrame) (s : State) : (sent f s).draws = s.draws := rfl
@[simp] theorem sent_deviceKey (f : OutFrame) (s : State) : (sent f s).deviceKey = s.deviceKey := rfl
@[simp] theorem sent_pending (f : OutFrame) (s : State) : (sent f s).pending = s.pending := rfl

/-! ## answered -/

@[simp] theorem answered_phase (kind : Byte) (c : Code) (b : AnswerBody) (s : State) : (answered kind c b s).phase = s.phase := rfl
@[simp] theorem answered_drive (kind : Byte) (c : Code) (b : AnswerBody) (s : State) : (answered kind c b s).drive = s.drive := rfl
@[simp] theorem answered_platform (kind : Byte) (c : Code) (b : AnswerBody) (s : State) : (answered kind c b s).platform = { s.platform with buffer := some (.answer kind c b) } := rfl
@[simp] theorem answered_adm (kind : Byte) (c : Code) (b : AnswerBody) (s : State) : (answered kind c b s).adm = s.adm := rfl
@[simp] theorem answered_ranges (kind : Byte) (c : Code) (b : AnswerBody) (s : State) : (answered kind c b s).ranges = s.ranges := rfl
@[simp] theorem answered_slots (kind : Byte) (c : Code) (b : AnswerBody) (s : State) : (answered kind c b s).slots = s.slots := rfl
@[simp] theorem answered_cred (kind : Byte) (c : Code) (b : AnswerBody) (s : State) : (answered kind c b s).cred = s.cred := rfl
@[simp] theorem answered_derive (kind : Byte) (c : Code) (b : AnswerBody) (s : State) : (answered kind c b s).derive = s.derive := rfl
@[simp] theorem answered_rekey (kind : Byte) (c : Code) (b : AnswerBody) (s : State) : (answered kind c b s).rekey = s.rekey := rfl
@[simp] theorem answered_erase (kind : Byte) (c : Code) (b : AnswerBody) (s : State) : (answered kind c b s).erase = s.erase := rfl
@[simp] theorem answered_watch (kind : Byte) (c : Code) (b : AnswerBody) (s : State) : (answered kind c b s).watch = s.watch := rfl
@[simp] theorem answered_cmd (kind : Byte) (c : Code) (b : AnswerBody) (s : State) : (answered kind c b s).cmd = s.cmd := rfl
@[simp] theorem answered_uptime (kind : Byte) (c : Code) (b : AnswerBody) (s : State) : (answered kind c b s).uptime = s.uptime := rfl
@[simp] theorem answered_copies (kind : Byte) (c : Code) (b : AnswerBody) (s : State) : (answered kind c b s).copies = s.copies := rfl
@[simp] theorem answered_store (kind : Byte) (c : Code) (b : AnswerBody) (s : State) : (answered kind c b s).store = s.store := rfl
@[simp] theorem answered_draws (kind : Byte) (c : Code) (b : AnswerBody) (s : State) : (answered kind c b s).draws = s.draws := rfl
@[simp] theorem answered_deviceKey (kind : Byte) (c : Code) (b : AnswerBody) (s : State) : (answered kind c b s).deviceKey = s.deviceKey := rfl
@[simp] theorem answered_pending (kind : Byte) (c : Code) (b : AnswerBody) (s : State) : (answered kind c b s).pending = s.pending := rfl

end Sys2Proof.Machine
end

