-- ==== Sys2Proof/Laws/Ops.lean ====
section
/-! SUPPORT. What each shared operation can do, said once: taking a command, frames and answers, queues, writes, slots and
entries, extents. -/

namespace Sys2Proof.Machine

/-! ## Taking a command -/

/-- Between two commands nothing is noted, and forgetting changes nothing. -/
theorem clearTouched_of_between {s : State} (h : Between s) : clearTouched s = s := by
  obtain ⟨_, _, _, _, _, _, _, _, _, _, _, _, _, _, st, _, _, _⟩ := s
  cases st
  simp only [Between] at h
  subst h
  rfl

/-- What a command answers where nothing was noted before it. -/
theorem event_of_between {f : State → State} {s : State} (h : Between s) : event f s = .next (clearTouched (f s)) := by
  rw [event, clearTouched_of_between h]

/-- A command whose effect notes no write. -/
theorem event_eq {f : State → State} {s t : State} (h : Between s) (e : f s = t) (ht : Between t) :
    event f s = .next t := by
  rw [event_of_between h, e, clearTouched_of_between ht]

/-- Taking a command never stops. -/
theorem event_next (f : State → State) (s : State) : ∃ t, event f s = .next t := ⟨_, rfl⟩

/-- What a command leaves noted. -/
theorem event_between {f : State → State} {s t : State} (h : event f s = .next t) : Between t := by
  cases h
  rfl

theorem between_sent {s : State} {f : OutFrame} (h : Between s) : Between (sent f s) := h

/-! ## Frames -/

theorem pushFrame_up {s : State} {f : OutFrame} (h : s.drive.up = true) : pushFrame f s = sent f s := by
  simp [pushFrame, sent, h]

theorem pushFrame_down {s : State} {f : OutFrame} (h : s.drive.up = false) : pushFrame f s = s := by
  simp [pushFrame, h]

/-- Producing a frame touches nothing but the frames produced. -/
theorem pushFrame_frame (f : OutFrame) (s : State) :
    pushFrame f s = { s with drive := { s.drive with outbox := (pushFrame f s).drive.outbox } } := by
  unfold pushFrame
  split <;> rfl

/-- A frame that the link takes at once is handed to its block. -/
theorem event_arrive {s : State} {c : Instr} (h : LinkTakes s) (hs : stalls c s = false) :
    event (arrive c) s = .next (clearTouched (takeFrame c s)) := by
  obtain ⟨h1, h2, h3, h4⟩ := h
  simp [event, arrive, h1, h3, clearTouched_of_between h4, drainFrom, hs]

/-- R172: the frame at the head of those that wait either stalls, and all wait on, or is taken, and the rest follows. -/
theorem drainFrom_cons (c : Instr) (rest : List Instr) (s : State) :
    (stalls c s = true → drainFrom (c :: rest) s = { s with drive := { s.drive with inbound := c :: rest } })
      ∧ (stalls c s = false → drainFrom (c :: rest) s = drainFrom rest (takeFrame c (clearTouched s))) := by
  constructor <;> intro h <;> simp [drainFrom, h]

/-- A frame other than LINK_HELLO on an UP link. -/
theorem takeFrame_up {s : State} {c : Instr} (h : s.drive.up = true) (hc : c ≠ .linkHello) :
    takeFrame c s = handFrame c s := by
  unfold takeFrame
  split
  · exact absurd rfl hc
  · rw [if_pos h]

/-- With no frame held back, room in the buffer changes nothing. -/
theorem drainInbound_none {s : State} (h : s.drive.inbound = []) : drainInbound s = s := by
  obtain ⟨_, d, _, _, _, _, _, _, _, _, _, _, _, _, _, _, _, _⟩ := s
  cases d
  simp only at h
  subst h
  rfl

/-! ## Answers -/

theorem secReply_none {c : Code} {b : AnswerBody} {s : State} (h : s.cmd.sec = none) : secReply c b s = s := by
  simp [secReply, h]

/-- A request that has not lost its answer is answered on an UP link. -/
theorem secReply_sent {c : Code} {b : AnswerBody} {s : State} {j : SecJob} (h : s.cmd.sec = some j)
    (hl : j.lost = false) (hu : s.drive.up = true) :
    secReply c b s = sent (.secAnswer (requestId j.req) (answerKind j.req) c b)
      { s with cmd := { s.cmd with sec := none } } := by
  simp [secReply, h, hl, hu, pushFrame, sent]

/-- A message whose answer is not dropped places it in the buffer. -/
theorem platReply_answered {c : Code} {b : AnswerBody} {s : State} {j : PlatJob} (h : s.cmd.plat = some j)
    (hd : j.dropped = false) :
    platReply c b s = answered j.kind c b { s with cmd := { s.cmd with plat := none } } := by
  simp [platReply, h, hd, answered]

/-- A dropped answer is discarded when it falls due (R177, R178). -/
theorem platReply_dropped {c : Code} {b : AnswerBody} {s : State} {j : PlatJob} (h : s.cmd.plat = some j)
    (hd : j.dropped = true) :
    platReply c b s = { s with
      cmd := { s.cmd with plat := none }, platform := { s.platform with buffer := none } } := by
  simp [platReply, h, hd]

/-- With no close awaited, a close that completes answers nobody. -/
theorem settleWaiters_of_none {s : State} (h : NoCloseAwaited s) : settleWaiters s = s := by
  obtain ⟨h1, h2⟩ := h
  unfold settleWaiters
  cases hs : s.cmd.sec with
  | none =>
    cases hp : s.cmd.plat with
    | none => simp only [hp]
    | some k => simp only [hp, h2 k hp, false_and, if_false]
  | some j =>
    cases hp : s.cmd.plat with
    | none => simp only [h1 j hs, false_and, if_false, hp]
    | some k => simp only [h1 j hs, false_and, if_false, hp, h2 k hp]

/-! ## Queues and lists -/

/-- R179: a queue never outgrows its size. -/
theorem joinQueue_length {cap : Nat} {e : NoticeEntry} {q : List NoticeEntry} (h0 : 0 < cap) (h : q.length ≤ cap) :
    (joinQueue cap e q).length ≤ cap := by
  unfold joinQueue
  split
  · simp; omega
  · cases q with
    | nil => simp; omega
    | cons a l => cases l <;> simp_all

/-- R154: the incident list never outgrows its size. -/
theorem joinIncident_length {i : Incident} {l : List Incident} (h : l.length ≤ 24) : (joinIncident i l).length ≤ 24 := by
  unfold joinIncident
  split
  · simp; omega
  · cases l <;> simp_all

/-- R110: the order counter stays an order number. -/
theorem nextOrderNumber_range {n : Nat} (h1 : 1 ≤ n) (h2 : n ≤ 65535) :
    1 ≤ nextOrderNumber n ∧ nextOrderNumber n ≤ 65535 := by
  unfold nextOrderNumber
  split <;> omega

theorem satAdd_le (cap a b : Nat) : satAdd cap a b ≤ cap := Nat.min_le_left _ _

/-! ## Writes (R183, R184) -/

/-- A write asked for by an idle arbiter begins at once. -/
theorem requestWrite_idle {b : Block} {w : RecWrite} {st : Store} (h : st.active = none) :
    requestWrite b w st = { st with
      active := some ⟨st.nextId, [b], w⟩, nextId := st.nextId + 1, touched := st.touched ++ [st.nextId] } := by
  simp [requestWrite, h]

/-- No request changes what the store holds, and none is dropped: it is noted. -/
theorem requestWrite_nv (b : Block) (w : RecWrite) (st : Store) : (requestWrite b w st).nv = st.nv := by
  unfold requestWrite
  split
  · rfl
  · split <;> rfl

theorem requestWrite_waits (b : Block) (w : RecWrite) (st : Store) : (requestWrite b w st).waits = st.waits := by
  unfold requestWrite
  split
  · rfl
  · split <;> rfl

theorem requestWrite_active (b : Block) (w : RecWrite) (st : Store) :
    (requestWrite b w st).active = some (st.active.getD ⟨st.nextId, [b], w⟩) := by
  unfold requestWrite
  split
  · rename_i h
    simp [h]
  · rename_i p h
    split <;> simp [h]

/-- R183, R184: every request is noted, so that its requester can wait for it. -/
theorem requestWrite_touched (b : Block) (w : RecWrite) (st : Store) :
    ∃ id, (requestWrite b w st).touched = st.touched ++ [id] := by
  unfold requestWrite
  split
  · exact ⟨_, rfl⟩
  · split <;> exact ⟨_, rfl⟩

/-- A joined write keeps the places of all waiting writes. -/
theorem coalesce_length {b : Block} {w : RecWrite} {q : List PendingWrite} {x : Nat × List PendingWrite}
    (h : coalesce b w q = some x) : x.2.length = q.length := by
  induction q generalizing x with
  | nil => simp [coalesce] at h
  | cons a l ih =>
    unfold coalesce at h
    split at h
    · cases h
      rfl
    · cases hc : coalesce b w l with
      | none => simp [hc] at h
      | some y =>
        simp only [hc, Option.map_some, Option.some.injEq] at h
        subst h
        simp [ih hc]

/-- R184: a request joins no write that its block has asked for a later one behind, so that each block's writes are stored
in the order it asked for them. -/
theorem coalesce_none_of_later {b : Block} {w : RecWrite} {q l : List PendingWrite} {p : PendingWrite}
    (hp : p.blocks.contains b = true) (hq : ∀ x ∈ l, writeRecord x.what ≠ writeRecord w)
    (hw : writeRecord p.what ≠ writeRecord w) : coalesce b w (q ++ p :: l) = none := by
  have tail : ∀ l : List PendingWrite, (∀ x ∈ l, writeRecord x.what ≠ writeRecord w) → coalesce b w l = none := by
    intro l hl
    induction l with
    | nil => rfl
    | cons a l ih =>
      simp [coalesce, hl a (by simp), ih fun x hx => hl x (by simp [hx])]
  induction q with
  | nil => simp [coalesce, hw, tail l hq]
  | cons a q ih =>
    have : ¬(writeRecord a.what = writeRecord w
        ∧ (q ++ p :: l).all (fun x => !x.blocks.contains b && decide (writeRecord x.what ≠ writeRecord w)) = true) := by
      simp only [List.all_eq_true, not_and]
      intro _ h
      have := h p (by simp)
      rw [hp] at this
      simp at this
    simp only [List.cons_append, coalesce, if_neg this, ih, Option.map_none]

/-- No write of a record changes the factory record (R186). -/
theorem applyWrite_factory (w : RecWrite) (r : Records) : (applyWrite w r).factory = r.factory := by cases w <;> rfl

/-! ## Entries, ranges and slots -/

theorem setEntry_get (t u : Fin 32) (e : Entry) (s : State) :
    (setEntry t e s).adm.table[u] = if u = t then e else s.adm.table[u] := by
  by_cases h : u = t
  · subst h
    simp [setEntry]
  · have : (t : Nat) ≠ u := fun x => h (Fin.ext x.symm)
    simp [setEntry, h, this]

theorem setRun_get (r q : Fin 16) (run : RangeRun) (s : State) :
    (setRun r run s).ranges[q].run = if q = r then run else s.ranges[q].run := by
  by_cases h : q = r
  · subst h
    simp [setRun]
  · have : (r : Nat) ≠ q := fun x => h (Fin.ext x.symm)
    simp [setRun, h, this]

theorem setSlot_get (k l : Fin 18) (v : Slot) (s : State) :
    (setSlot k v s).slots[l] = if l = k then v else s.slots[l] := by
  by_cases h : l = k
  · subst h
    simp [setSlot]
  · have : (k : Nat) ≠ l := fun x => h (Fin.ext x.symm)
    simp [setSlot, h, this]

/-- A pass over distinct slots changes each of them by `f` and nothing else of the part. -/
theorem slotPass (f : Slot → Slot) (l : List (Fin 18)) (hl : l.Nodup) (s : State) :
    l.foldl (fun s k => setSlot k (f s.slots[k]) s) s
        = { s with slots := (l.foldl (fun s k => setSlot k (f s.slots[k]) s) s).slots }
      ∧ ∀ k : Fin 18, (l.foldl (fun s k => setSlot k (f s.slots[k]) s) s).slots[k]
        = if k ∈ l then f s.slots[k] else s.slots[k] := by
  induction l generalizing s with
  | nil => simp
  | cons a l ih =>
    have hn := List.nodup_cons.mp hl
    obtain ⟨i1, i2⟩ := ih hn.2 (setSlot a (f s.slots[a]) s)
    simp only [List.foldl_cons]
    refine ⟨by rw [i1]; rfl, ?_⟩
    intro k
    rw [i2, setSlot_get]
    by_cases hk : k = a
    · subst hk
      simp [hn.1]
    · simp [hk]

/-- R12: a pin on each slot that the segments name. -/
theorem pinPass (segs : List Segment) (s : State) :
    (slotsNamed segs).foldl (fun s k => pinSlot k s) s
        = { s with slots := ((slotsNamed segs).foldl (fun s k => pinSlot k s) s).slots }
      ∧ ∀ k : Fin 18, ((slotsNamed segs).foldl (fun s k => pinSlot k s) s).slots[k]
        = if (segs.any fun g => decide (g.treatment = .cipher k)) = true then pinnedSlot s.slots[k] else s.slots[k] := by
  have h := slotPass pinnedSlot (slotsNamed segs) ((List.nodup_finRange 18).filter _) s
  refine ⟨h.1, fun k => (h.2 k).trans ?_⟩
  simp [slotsNamed]

/-- R12, R52: a pin less on each slot that the segments name. -/
theorem unpinPass (segs : List Segment) (s : State) :
    (slotsNamed segs).foldl (fun s k => unpinSlot k s) s
        = { s with slots := ((slotsNamed segs).foldl (fun s k => unpinSlot k s) s).slots }
      ∧ ∀ k : Fin 18, ((slotsNamed segs).foldl (fun s k => unpinSlot k s) s).slots[k]
        = if (segs.any fun g => decide (g.treatment = .cipher k)) = true then unpinnedSlot s.slots[k]
          else s.slots[k] := by
  have h := slotPass unpinnedSlot (slotsNamed segs) ((List.nodup_finRange 18).filter _) s
  refine ⟨h.1, fun k => (h.2 k).trans ?_⟩
  simp [slotsNamed]

/-- R13: retiring what a range holds changes its slots alone. -/
theorem retireHeld_slots (h : Held) (s : State) :
    retireHeld h s = { s with slots := (retireHeld h s).slots } ∧ SlotsRetired h s (retireHeld h s) := by
  obtain ⟨level, key, current, next⟩ := h
  cases next with
  | none =>
    refine ⟨rfl, fun k => ?_⟩
    simp only [retireHeld, retireSlot, setSlot_get]
    by_cases e : k = current <;> simp [e]
  | some n =>
    refine ⟨rfl, fun k => ?_⟩
    have twice : ∀ v, retiredSlot (retiredSlot v) = retiredSlot v := by
      intro v
      cases v with
      | live o m p => by_cases hp : p = 0 <;> simp [retiredSlot, hp]
      | _ => rfl
    simp only [retireHeld, retireSlot, setSlot_get]
    by_cases f : k = n
    · subst f
      by_cases e : k = current <;> simp [e, twice]
    · have f' : n ≠ k := fun x => f x.symm
      by_cases e : k = current
      · subst e; simp [f, f']
      · simp [e, f, f']

/-! ## The window, refusals and answers -/

/-- R115, R121: withdrawing the window changes the Rekey Engine alone. -/
theorem withdrawWindow_eq (s : State) : withdrawWindow s = { s with rekey := windowWithdrawn s.rekey } := by
  unfold withdrawWindow windowWithdrawn
  split <;> rfl

/-- R93: what the check of a GRANT's second secret answers. -/
theorem grantSecond_eq (cred target : Byte) (second : Secret) (rest : Refused) :
    grantSecond cred target second rest
      = if needsSecond cred target = true ∧ secretFits second = false then some (.badValue, .empty) else rest := by
  cases h : needsSecond cred target <;> cases f : secretFits second <;> simp [grantSecond, orRefuse, h, f]

/-! ## Segments -/

/-- R34, R36 to R38: a piece that passes becomes a segment with the slot and the treatment that those rules give. -/
theorem judgePiece_passes {s : State} {cls : XferClass} {q : Piece} (h : Passes s cls q) :
    ∃ g, judgePiece s cls q = .inr g ∧ SegmentOf s cls q g := by
  obtain ⟨e, r, b⟩ := q
  by_cases w : s.copies.watch.state = .erased
  · exact ⟨⟨e, r, .pad⟩, by simp [judgePiece, w], rfl, rfl, fun _ => rfl, fun n => absurd w n⟩
  rcases h with w' | ⟨o, ho, hl⟩ | ⟨hr, rfl⟩
  · exact absurd w' w
  · obtain ⟨level, key, current, next⟩ := o
    simp only [Fin.getElem_fin] at ho hl
    refine ⟨⟨e, r, .cipher (slotChoice cls b ⟨level, key, current, next⟩)⟩, ?_, rfl, rfl, fun x => absurd x w, fun _ => ?_⟩
    · cases cls <;> simp_all [judgePiece]
    · cases cls <;> cases b <;> cases next <;> simp_all [slotChoice]
  · simp only [Fin.getElem_fin] at hr
    exact ⟨⟨e, r, .pad⟩, by simp [judgePiece, w, hr], rfl, rfl, fun _ => rfl, fun _ => ⟨fun _ => rfl, by simp [hr]⟩⟩

/-! ## Extents -/

theorem extentHas_iff (e : Extent) (x : Nat) : extentHas e x = true ↔ e.start ≤ x ∧ x < extentEnd e := by
  simp [extentHas]

theorem extentsOverlap_iff (a b : Extent) :
    extentsOverlap a b = true ↔ a.start < extentEnd b ∧ b.start < extentEnd a := by
  simp [extentsOverlap]

end Sys2Proof.Machine
end

