-- ==== Sys2Proof/Tests/Slice0.lean ====
section
/-! SUPPORT. Small tests: ill-formed terms refused, frames written out from the tables, single steps with results from the
worked examples of spec/, and for each statement with hypotheses a state and operands that meet them. -/

namespace Sys2Proof.Tests

open Sys2Proof Sys2Proof.Machine

-- One theorem after the other: each test that waits for the kernel in parallel would keep a thread.
set_option Elab.async false

/-! ## Ill-formed terms are refused -/

def long : List Byte := List.replicate 256 0
def good : Secret := [1, 2, 3, 4, 5, 6, 7, 8]

theorem test_wf_coldStart :
    [Instr.coldStart [.policy, .policy] 0 none,
     .coldStart [.range 1 ⟨true, some ⟨2 ^ 40, 8⟩, ⟨false, false, false⟩, 0, ⟨0⟩⟩] 0 none,
     .coldStart [.range 1 ⟨true, some ⟨8, 2 ^ 40⟩, ⟨false, false, false⟩, 0, ⟨0⟩⟩] 0 none,
     .coldStart [.range 1 ⟨true, none, ⟨false, false, false⟩, 2 ^ 16, ⟨0⟩⟩] 0 none].all
      (fun c => !c.wellFormed) = true := by decide +kernel

theorem test_wf_transfers :
    [Instr.xferOpen 0 .read (2 ^ 40) 1 0, .xferOpen 0 .read 0 (2 ^ 16) 0, .xferOpen 0 .read 0 1 (2 ^ 16),
     .xferUnit 0 (2 ^ 16) 0, .orderDone (2 ^ 16) true, .scrubOrderDeadlineExpiry (2 ^ 16)].all
      (fun c => !c.wellFormed) = true := by decide +kernel

theorem test_wf_requests :
    [Instr.unlock 0 0 long [], .unlock 0 0 [] long, .takeOwnership 0 long, .changeSecret 0 0 long [],
     .changeSecret 0 0 [] long, .setSecret 0 0 long 0 [], .setSecret 0 0 [] 0 long, .enableCredential 0 0 long 0,
     .removeCredential 0 0 long 0, .grant 0 0 long 0 0 0 [], .grant 0 0 [] 0 0 0 long, .revoke 0 0 long 0 0,
     .defineRange 0 0 long 0 0 0 0, .defineRange 0 0 [] 0 (2 ^ 40) 0 0, .defineRange 0 0 [] 0 0 (2 ^ 40) 0,
     .deleteRange 0 0 long 0, .setRangeAttributes 0 0 long 0 0, .eraseRange 0 0 long 0, .setPolicy 0 0 long [],
     .setPolicy 0 0 [] (List.replicate 41 0), .bindToPlatform 0 0 long, .unbind 0 0 long, .setRemoteToken 0 0 long [],
     .setRemoteToken 0 0 [] long, .readIncidents 0 0 long 0, .clearIncidents 0 0 long, .rekeyStart 0 0 long 0,
     .rekeyResume 0 0 long, .eraseAll 0 0 long, .reprovision 0 0 long].all
      (fun c => !c.wellFormed) = true := by decide +kernel

theorem test_wf_messages :
    [Instr.remoteErase (List.replicate 7 0), .remoteErase (List.replicate 65 0), .platformSetMask 1024].all
      (fun c => !c.wellFormed) = true := by decide +kernel

/-! ## Frames and messages written out from the tables of chapter 11 -/

theorem test_parse_link : parseFrame [0x01, 0, 0] = some .linkHello := by decide +kernel

theorem test_parse_open :
    parseFrame [0x10, 11, 0, 3, 1, 0x10, 0x20, 0, 0, 0, 8, 0, 0, 0] = some (.xferOpen 3 .write 0x2010 8 0) := by
  decide +kernel

theorem test_parse_stop : parseFrame [0x16, 1, 0, 31] = some (.xferStop 31) := by decide +kernel

theorem test_parse_done : parseFrame [0x21, 3, 0, 0x34, 0x12, 1] = some (.orderDone 0x1234 false) := by decide +kernel

theorem test_parse_lock : parseFrame [0x30, 4, 0, 7, 0, 0x04, 15] = some (.lock 7 15) := by decide +kernel

theorem test_parse_unlock :
    parseFrame [0x30, 15, 0, 7, 1, 0x10, 2, 8, 1, 2, 3, 4, 5, 6, 7, 8, 1, 3]
      = some (.unlock 0x107 2 good [3]) := by decide +kernel

theorem test_parse_badKind : parseFrame [0x30, 3, 0, 7, 0, 0x77] = some (.secRequestBadKind 7 0x77) := by decide +kernel

theorem test_parse_longLock : parseFrame [0x30, 5, 0, 7, 0, 0x04, 15, 0] = some (.secRequestBadKind 7 0x04) := by
  decide +kernel

/-- R174, R191: a body that ends before the request kind; the missing byte is free. -/
theorem test_parse_shortRequest :
    parseFrame [0x30, 2, 0, 7, 1] = some (.secRequestBadKind 0x107 (Config.missingRequestByte 2)) := rfl

theorem test_parse_badTag : parseFrame [0x16, 1, 0, 32] = some (.malformedFrame 0x16) := by decide +kernel

theorem test_parse_alert : parseMessage [0x05, 1, 2] = some (.alert 2) := by decide +kernel

theorem test_parse_badMask : parseMessage [0x08, 2, 0, 4] = some (.platformMalformedMessage 0x08) := by decide +kernel

theorem test_bytes_admit : frameBytes (.xferAdmit 5) = [0x11, 1, 0, 5] := by decide +kernel

theorem test_bytes_refuse : frameBytes (.xferRefuse 5 .locked (some 2)) = [0x13, 3, 0, 5, 0x14, 2] := by decide +kernel

/-! ## Single steps, with results from the worked examples of spec/ -/

/-- What a command leaves; the state itself where it stops. -/
def after (c : Instr) (s : State) : State :=
  match exec c s with
  | .next t => t
  | .fault _ => s
  | .refused _ => s

/-- The part after reset with its drive link UP. -/
def linked : State := { State.reset with drive := { State.reset.drive with up := true } }

/-- R73: the table of hold-off lengths. -/
theorem test_holdoff_table :
    (List.map (holdoffLength Policy.default .settled) [3, 4, 5, 10, 13, 14, 40],
      List.map (holdoffLength Policy.default .wary) [0, 1, 8, 11, 60])
      = ([0, 5, 10, 320, 2560, 3600, 3600], [0, 5, 640, 3600, 3600]) := by decide +kernel

/-- R151: line 2 in mode RISE with a hold-down of 30 s and a weight of 40, at a score of 20. -/
def switch : State :=
  { linked with copies := { linked.copies with
    watch := ⟨.settled, 20⟩
    policy := { Policy.default with
      lineModes := #v[.ignore, .ignore, .rise, .ignore]
      lineHold := #v[5, 5, 30, 5]
      weights := #v[12, 96, 48, 16, 40, 0, 0, 40, 0, 8, 24, 64, 128, 64] } } }

theorem test_edge_opened :
    (after (.watchLineEdge 2 true) switch).copies.watch = ⟨.settled, 60⟩
      ∧ (after (.watchLineEdge 2 true) switch).watch.holdDowns[(2 : Fin 4)] = some 30 := by decide +kernel

theorem test_edge_warns :
    (after (.watchLineEdge 2 true) { switch with copies := { switch.copies with watch := ⟨.settled, 60⟩ } }).copies.watch
      = ⟨.wary, 100⟩ := by decide +kernel

/-- R143, R144: an alert of severity 3 adds 128, and 64 more crosses T2. -/
theorem test_alert_warns : (after (.alert 3) linked).copies.watch = ⟨.wary, 128⟩ := by decide +kernel

theorem test_alert_alarms :
    (after (.alert 2) { linked with copies := { linked.copies with watch := ⟨.wary, 128⟩ } }).copies.watch
      = ⟨.alarmed, 192⟩ := by decide +kernel

/-- R40: a READ of the open range 0 is admitted on its slot. -/
theorem test_open_admits :
    (after (.xferOpen 3 .read 8 2 0) linked).adm.table[(3 : Fin 32)]
      = .admitted ⟨.read, ⟨8, 2⟩, none, [⟨⟨8, 2⟩, 0, .cipher 0⟩], 0, 0, 0, false⟩ := by decide +kernel

/-- R13, R21: LOCK with nothing admitted closes range 0 at once. -/
theorem test_lock_closes :
    (after (.lock 7 0) linked).ranges[(0 : Fin 16)].run = .locked
      ∧ (after (.lock 7 0) linked).drive.outbox = [.secAnswer 7 0x04 .ok .empty] := by decide +kernel

/-- R110: the order counter wraps from 65535 to 1. -/
theorem test_counter_wraps : nextOrderNumber 65535 = 1 ∧ nextOrderNumber 1 = 2 := by decide

/-- R115: an intended window's order takes the counter's number. -/
def intending : State :=
  { linked with rekey := { linked.rekey with fence := some ⟨0, 256⟩, intended := some ⟨0, 256⟩, counter := 65535 } }

theorem test_order_sent :
    (after .migrateOrderSend intending).drive.outbox = [.migrate 65535 ⟨0, 256⟩]
      ∧ (after .migrateOrderSend intending).rekey.counter = 1 := by decide +kernel

/-- R177: a read with nothing to return. -/
theorem test_read_nothing :
    ((after .platformRead linked).platform.lastRead.map fun a => (a.kind, a.result)) = some (0, .noAnswer) := by
  decide +kernel


/-! ## Witnesses: states and operands that meet each statement's hypotheses, clause by clause -/

/-- Whether a command has a next state. -/
def completes (c : Instr) (s : State) : Bool :=
  match exec c s with
  | .next _ => true
  | .fault _ => false
  | .refused _ => false

theorem exec_after (c : Instr) (s : State) (h : completes c s = true) : exec c s = .next (after c s) := by
  unfold completes at h
  unfold after
  split at h <;> simp_all

def withPending (l : List Instr) (s : State) : State := { s with pending := l }
def withWatch (w : WatchRec) (s : State) : State := { s with copies := { s.copies with watch := w } }
def withEntry (tag : Fin 32) (e : Entry) (s : State) : State :=
  { s with adm := { s.adm with table := s.adm.table.set tag e } }
def withRun (r : Fin 16) (run : RangeRun) (s : State) : State := { s with ranges := s.ranges.set r ⟨run, false⟩ }
def withRange (r : Fin 16) (rec : RangeRec) (s : State) : State :=
  { s with copies := { s.copies with ranges := s.copies.ranges.set r rec } }
def withCred (c : Fin 8) (rec : CredRec) (s : State) : State :=
  { s with copies := { s.copies with creds := s.copies.creds.set c rec } }
def withWrap (k : Fin 64) (e : WrapEntry) (s : State) : State :=
  { s with copies := { s.copies with wraps := s.copies.wraps.set k (some e) } }
def withRekey (k : RekeyRec) (s : State) : State := { s with copies := { s.copies with rekey := some k } }
def withSec (j : SecJob) (s : State) : State := { s with cmd := { s.cmd with sec := some j } }
def withPlat (j : PlatJob) (s : State) : State := { s with cmd := { s.cmd with plat := some j } }
def withUnits (l : List BufUnit) (s : State) : State := { s with drive := { s.drive with units := l } }

/-- Range `r` as `RangeRec` of an extent, under the range key 7 and the media key 6. -/
def sample (start len : Nat) : RangeRec :=
  ⟨true, some ⟨start, len⟩, ⟨false, false, false⟩, 65535, ⟨5⟩, some ⟨⟨6⟩, ⟨7⟩⟩, none, false⟩

/-- A READ of 8 blocks of range 0 from LBA 8, its first unit next. -/
def reading : Xfer := ⟨.read, ⟨8, 8⟩, none, [⟨⟨8, 8⟩, 0, .cipher 0⟩], 0, 0, 0, false⟩

theorem of_some {α : Type} {o : Option α} {a : α} {P : α → Prop} (h : o = some a) (p : P a) (x : α) (hx : o = some x) :
    P x := by
  rw [h] at hx
  injection hx with hx
  exact hx ▸ p

theorem of_none {α : Type} {o : Option α} {P : α → Prop} (h : o = none) (x : α) (hx : o = some x) : P x := by
  rw [h] at hx
  cases hx

theorem linkTakes_linked : LinkTakes linked := ⟨rfl, rfl, rfl, rfl⟩
theorem channelTakes_linked : ChannelTakes linked := ⟨linkTakes_linked, rfl⟩
theorem messageTaken_linked : MessageTaken linked := ⟨rfl, rfl, rfl⟩
theorem noClose_linked : NoCloseAwaited linked := ⟨of_none rfl, of_none rfl⟩

/-! ### The machine and its invariants -/

theorem witness_StepRunsFrontCommand :
    (withPending [.lockAll 1, .sleep] linked).pending = [Instr.lockAll 1, .sleep] := rfl

theorem witness_IdleStepPassesOneSecond :
    linked.pending = [] ∧ linked.phase ≠ .starting ∧ { linked with phase := .held }.phase ≠ .starting
      ∧ { linked with phase := .starting }.pending = [] ∧ { linked with phase := .starting }.phase = .starting :=
  ⟨rfl, by decide, by decide, rfl, rfl⟩

theorem witness_CommandsKeepQueueKeyAndFactory :
    exec (.takeOwnership 1 good) linked = .next (after (.takeOwnership 1 good) linked)
      ∧ (after (.takeOwnership 1 good) linked).draws = linked.draws + 1 :=
  ⟨exec_after _ _ (by decide +kernel), by decide +kernel⟩

theorem witness_ErasingEndsInErasedAndOpensNothing :
    (∀ d l k, Instr.lock 1 0 ≠ .coldStart d l k) ∧ ReprovisionOk (withWatch ⟨.erasing, 240⟩ linked)
      ∧ (withWatch ⟨.erasing, 240⟩ linked).copies.watch.state = .erasing
      ∧ exec (.alert 3) (withWatch ⟨.erasing, 240⟩ linked)
        = .next (after (.alert 3) (withWatch ⟨.erasing, 240⟩ linked)) :=
  ⟨nofun, fun j l h => of_none (P := fun j : SecJob => j.phase = .reprovisioning l → _) rfl j h, rfl,
    exec_after _ _ (by decide +kernel)⟩

/-- Two notices wait, one of them masked out; a READ is held; a charge is being written; and a command waits. -/
def busy : State :=
  let s := withPending [.holdoffExpiry] linked
  { s with
    cred := { s.cred with holdoff := some 1 }
    rekey := { s.rekey with counter := 65535 }
    adm := ⟨s.adm.table.set 31 (.held .read ⟨0, 1⟩), [31]⟩
    store := { s.store with active := some ⟨1, [.credentialUnit], .charged 65535⟩, queue := [⟨2, [.credentialUnit], .cred 7 ⟨.active, none, 255⟩⟩] }
    cmd := { s.cmd with secQueue := [⟨.scrubHalf, false, 1⟩, ⟨.holdoffEnd 4, false, 2⟩], secAttn := true, seq := 3 } }

theorem busy_steps : step busy = .next (after .holdoffExpiry (withPending [] busy)) :=
  exec_after .holdoffExpiry (withPending [] busy) (by decide +kernel)

theorem witness_AttentionLinesFollowQueuesAndMasks :
    AttentionOk busy ∧ step busy = .next (after .holdoffExpiry (withPending [] busy)) :=
  ⟨⟨by decide +kernel, by decide +kernel⟩, busy_steps⟩

theorem witness_TablesKeepTheirBounds :
    BoundsOk busy ∧ step busy = .next (after .holdoffExpiry (withPending [] busy)) :=
  ⟨by unfold BoundsOk; decide +kernel, busy_steps⟩

theorem witness_RecordNumbersKeepTheirRanges :
    CountsOk busy ∧ step busy = .next (after .holdoffExpiry (withPending [] busy)) :=
  ⟨⟨by unfold RecordsOk; decide +kernel, by unfold RecordsOk; decide +kernel,
    of_some (α := PendingWrite) (a := ⟨1, [.credentialUnit], .charged 65535⟩) (P := fun p => WriteOk p.what) rfl (Nat.le_refl 65535),
    List.forall_mem_singleton.2 (Nat.le_refl 255), of_none rfl⟩, busy_steps⟩

theorem witness_HoldListNamesHeldEntries :
    HoldListOk busy ∧ step busy = .next (after .holdoffExpiry (withPending [] busy)) := by
  refine ⟨⟨by decide, fun t => ?_⟩, busy_steps⟩
  have h : ∀ t : Fin 32, (t ∈ busy.adm.hold) ↔ busy.adm.table[t] = .held .read ⟨0, 1⟩ := by decide +kernel
  have f : ∀ t : Fin 32, busy.adm.table[t] = .held .read ⟨0, 1⟩ ∨ busy.adm.table[t] = .free := by decide +kernel
  rw [h t]
  rcases f t with e | e <;> rw [e] <;> simp

/-- R165: an extent appears in the skip list at most once. -/
theorem test_skip_once :
    addSkip ⟨2048, 2048⟩ [⟨0, 2048⟩, ⟨2048, 2048⟩] = [⟨0, 2048⟩, ⟨2048, 2048⟩]
      ∧ addSkip ⟨2048, 2048⟩ [⟨0, 2048⟩] = [⟨0, 2048⟩, ⟨2048, 2048⟩] := by decide

/-- Two writes asked for, the first in progress, and its completion waits outside. -/
def storing : State :=
  withPending [.storeWriteComplete] (written [.charged 3, .range 15 (RangeRec.undefined)] (withWatch ⟨.settled, 0⟩ linked))

theorem witness_StoreFollowsTheWorkingCopies :
    StoreOk storing ∧ step storing = .next (after .storeWriteComplete (withPending [] storing)) :=
  ⟨by unfold StoreOk; decide +kernel, exec_after .storeWriteComplete (withPending [] storing) (by decide +kernel)⟩

/-- `reading` admitted on slot 0, and an XFER_STOP of it waits outside. -/
def pinning : State :=
  withPending [.xferStop 3]
    { withEntry 3 (.admitted reading) linked with slots := linked.slots.set 0 (.live 0 factoryMediaKey 1) }

theorem pinning_table : ∀ g : Fin 32, pinning.adm.table[g] = if g = 3 then .admitted reading else .free := by
  decide +kernel

theorem linked_table : ∀ g : Fin 32, linked.adm.table[g] = .free := by decide +kernel

theorem linked_held : ∀ r : Fin 16, heldBy linked.ranges[r].run
    = if r = 0 then some ⟨.readWrite, factoryRangeKey, 0, none⟩ else none := by decide +kernel

/-- A state with `linked`'s ranges, no entry but `reading` at most, and slot 0 as its range's own. -/
theorem slotsOk_of (s : State) (k : ∀ k : Fin 18, slotPins s.slots[k] = pinsOn k s) (r : s.ranges = linked.ranges)
    (l : LiveFor 0 0 s) (e : ∀ g : Fin 32, s.adm.table[g] = .free ∨ s.adm.table[g] = .admitted reading) : SlotsOk s := by
  refine ⟨k, fun q h hq => ?_, fun g x hx => ?_, fun g c x hx => ?_⟩
  · rw [r, linked_held] at hq
    split at hq
    · rename_i e0
      subst e0
      cases hq
      exact ⟨l, nofun⟩
    · cases hq
  · rcases e g with f | f <;> rw [f] at hx <;> cases hx
    exact ⟨by decide, by decide +kernel⟩
  · rcases e g with f | f <;> rw [f] at hx <;> cases hx

theorem slotsOk_linked : SlotsOk linked :=
  slotsOk_of linked (by decide +kernel) rfl ⟨factoryMediaKey, 0, by decide +kernel⟩ fun g => .inl (linked_table g)

theorem holdListOk_linked : HoldListOk linked :=
  ⟨by decide, fun g => ⟨nofun, fun ⟨c, e, h⟩ => by rw [linked_table] at h; cases h⟩⟩

theorem witness_SlotsHoldTheirPins :
    SlotsOk pinning ∧ (∀ w ∈ pinning.store.waits, w.job ≠ .eraseNext 2)
      ∧ step pinning = .next (after (.xferStop 3) (withPending [] pinning))
      ∧ linked.adm.hold = [] ∧ ∀ (g : Fin 32) x, linked.adm.table[g] ≠ .admitted x :=
  ⟨slotsOk_of pinning (by decide +kernel) rfl ⟨factoryMediaKey, 1, by decide +kernel⟩ fun g => by
      rw [pinning_table]; split <;> simp,
    nofun, exec_after (.xferStop 3) (withPending [] pinning) (by decide +kernel), rfl, fun g x h => by
      rw [linked_table] at h; cases h⟩

/-- A failed test at one below the threshold of ALARMED. -/
def failing : State :=
  { withSec ⟨.unlock 1 6 [1, 2, 3, 4, 5, 6, 7, 8] [], false, .testing, [], [], false⟩
      (withCred 6 ⟨.active, some ⟨⟨[], ⟨9⟩, 8⟩, ⟨9⟩, 8⟩, 1⟩ (withWatch ⟨.wary, 159⟩ linked)) with
    derive := ⟨some ⟨.security, [1, 2, 3, 4, 5, 6, 7, 8], ⟨9⟩, 8⟩, []⟩ }

theorem apart_of_none {recs : Records} (h : ∀ q : Fin 16, definedExtent recs q = none) : RangesApart recs := by
  intro q r n d e hd
  rw [h q] at hd
  cases hd

theorem linked_apart : RangesApart linked.copies := apart_of_none (by decide +kernel)

/-- A SLEEP, and a cold start, wait outside. -/
theorem witness_RangesStayApart :
    step (withPending [.sleep] linked) = .next (after .sleep linked) ∧ RangesApart (withPending [.sleep] linked).copies
      ∧ (∀ d l k, (withPending [.sleep] linked).pending.head? ≠ some (.coldStart d l k))
      ∧ step (withPending [.coldStart [] 0 none] linked) = .next (after (.coldStart [] 0 none) linked)
      ∧ (withPending [.coldStart [] 0 none] linked).pending.head? = some (.coldStart [] 0 none)
      ∧ RangesApart (withPending [.coldStart [] 0 none] linked).store.nv :=
  ⟨exec_after .sleep linked (by decide +kernel), linked_apart, nofun,
    exec_after (.coldStart [] 0 none) linked (by decide +kernel), rfl, apart_of_none (by decide +kernel)⟩

theorem witness_AlarmClosesEveryRange :
    RangesApart failing.copies ∧ RangesApart (withWatch ⟨.wary, 159⟩ linked).copies ∧ NoEraseWork failing ∧ (∀ d secret, credentials (.unlock 1 6 good []) = some (d, secret) →
        verifies failing.copies.creds[d].verifier (derived ⟨.security, good, ⟨9⟩, 8⟩) = false)
      ∧ exec .derivationComplete failing = .next (after .derivationComplete failing)
      ∧ failing.copies.watch.state ≠ .alarmed ∧ (after .derivationComplete failing).copies.watch.state = .alarmed
      ∧ Instr.alert 0 ≠ .derivationComplete
      ∧ (after (.alert 0) (withWatch ⟨.wary, 159⟩ linked)).copies.watch.state = .alarmed
      ∧ exec (.alert 0) (withWatch ⟨.wary, 159⟩ linked) = .next (after (.alert 0) (withWatch ⟨.wary, 159⟩ linked)) := by
  refine ⟨apart_of_none (by decide +kernel), apart_of_none (by decide +kernel), nofun, fun d l h => ?_,
    exec_after _ _ (by decide +kernel), by decide +kernel, by decide +kernel, nofun,
    by decide +kernel, exec_after _ _ (by decide +kernel)⟩
  have f : credentials (.unlock 1 6 good []) = some (6, good) := by decide
  rw [f] at h
  cases h
  decide +kernel

/-! ### Frames and transfers -/

theorem witness_FramesAndMessagesReadBack_short : ([7, 1] : List Byte).length < 3 ∧ ([] : List Byte).length < 3 := by decide

theorem witness_FramesAndMessagesReadBack :
    (Instr.unlock 0xFFFF 7 good [15]).wellFormed = true
      ∧ commandFrame (.unlock 0xFFFF 7 good [15]) = some [0x30, 15, 0, 0xFF, 0xFF, 0x10, 7, 8, 1, 2, 3, 4, 5, 6, 7, 8, 1, 15]
      ∧ (requestCode (.unlock 0xFFFF 7 good [15])).isSome = true ∧ badKind (.unlock 0xFFFF 7 good [15]) = false
      ∧ (Instr.platformSetMask 1023).wellFormed = true
      ∧ commandMessage (.platformSetMask 1023) = some [0x08, 2, 0xFF, 3] := by decide +kernel

/-- Two ranges that touch: [80, 880) and [880, 888). -/
def touching : State := withRange 15 (sample 880 8) (withRange 1 (sample 80 800) linked)

theorem definedExtent_touching : ∀ q : Fin 16, definedExtent touching.copies q
    = if q = 1 then some ⟨80, 800⟩ else if q = 15 then some ⟨880, 8⟩ else none := by decide +kernel

theorem touching_apart : RangesApart touching.copies := by
  intro q r n d e hd he
  rw [definedExtent_touching] at hd he
  split at hd <;> split at he <;> (try split at hd) <;> (try split at he) <;> simp_all
  all_goals subst hd he; decide

theorem witness_WalkCoversTheDescriptor :
    extentEnd ⟨0, 2 ^ 15⟩ ≤ touching.copies.factory.capacity ∧ RangesApart touching.copies
      ∧ extentHas ⟨0, 2 ^ 15⟩ 887 = true
      ∧ rangeWalk touching ⟨872, 1024⟩
        = [⟨⟨872, 8⟩, 1, false⟩, ⟨⟨880, 8⟩, 15, false⟩, ⟨⟨888, 1008⟩, 0, false⟩] :=
  ⟨by decide, touching_apart, by decide, by decide +kernel⟩

/-- An order 7 is outstanding for [0, 256). -/
def ordered : State := { linked with rekey := { linked.rekey with order := some ⟨7, ⟨0, 256⟩, 30⟩ } }

theorem witness_XferOpenRefusedInOrder :
    LinkTakes linked
      ∧ LinkTakes (withWatch ⟨.erasing, 255⟩ linked) ∧ (withWatch ⟨.erasing, 255⟩ linked).copies.watch.state = .erasing
      ∧ LinkTakes (withWatch ⟨.erased, 255⟩ linked) ∧ (withWatch ⟨.erased, 255⟩ linked).copies.watch.state = .erased
      ∧ (withEntry 31 (.admitted reading) linked).adm.table[(31 : Fin 32)] ≠ .free
      ∧ linked.adm.table[(31 : Fin 32)] = .free
      ∧ linked.copies.factory.capacity < (2 ^ 15 - 1) + 2 ∧ (2 ^ 15 - 1) + 1 ≤ linked.copies.factory.capacity
      ∧ LinkTakes ordered ∧ (∀ o, ordered.rekey.order = some o → o.num ≠ 8)
      ∧ (∀ o, ordered.rekey.order = some o → o.window.start + o.window.len < 255 + 2)
      ∧ rangeWalk linked ⟨2 ^ 15 - 1, 1⟩ = [⟨⟨2 ^ 15 - 1, 1⟩, 0, false⟩]
      ∧ (withRun 0 .locked linked).ranges[(0 : Fin 16)].run = .locked
      ∧ (withRun 0 (.closing ⟨.readWrite, ⟨1⟩, 0, none⟩ 1 []) linked).ranges[(0 : Fin 16)].run
        = .closing ⟨.readWrite, ⟨1⟩, 0, none⟩ 1 []
      ∧ (withRun 0 .erased linked).ranges[(0 : Fin 16)].run = .erased
      ∧ (withRun 0 (.opened ⟨.readOnly, ⟨1⟩, 0, none⟩) linked).ranges[(0 : Fin 16)].run
        = .opened ⟨.readOnly, ⟨1⟩, 0, none⟩ := by
  refine ⟨linkTakes_linked, ⟨rfl, rfl, rfl, rfl⟩, rfl, ⟨rfl, rfl, rfl, rfl⟩, rfl, by decide +kernel, by decide +kernel,
    by decide, by decide, ⟨rfl, rfl, rfl, rfl⟩, ?_, ?_, by decide +kernel, by decide +kernel, by decide +kernel,
    by decide +kernel, by decide +kernel⟩
  · exact of_some (a := ⟨7, ⟨0, 256⟩, 30⟩) rfl (by decide)
  · exact of_some (a := ⟨7, ⟨0, 256⟩, 30⟩) rfl (by decide)

/-- A descriptor over [79, 81): its first segment lies in the OPEN range 0, its second in the LOCKED range 1. -/
theorem witness_XferOpenRefusedInOrder_second :
    LinkTakes touching ∧ rangeWalk touching ⟨79, 2⟩ = [⟨⟨79, 1⟩, 0, false⟩] ++ ⟨⟨80, 1⟩, 1, false⟩ :: []
      ∧ (∀ p ∈ [(⟨⟨79, 1⟩, 0, false⟩ : Piece)], ∃ h, touching.ranges[p.range].run = .opened h ∧ h.level = .readWrite)
      ∧ touching.ranges[(1 : Fin 16)].run = .locked := by
  refine ⟨⟨rfl, rfl, rfl, rfl⟩, by decide +kernel, fun p hp => ?_, by decide +kernel⟩
  rw [List.mem_singleton.mp hp]
  exact ⟨⟨.readWrite, factoryRangeKey, 0, none⟩, by decide +kernel, rfl⟩

theorem passes_open {s : State} {cls : XferClass} {l : List Piece} {q : Piece} {h : Held} (w : l = [q])
    (r : s.ranges[q.range].run = .opened h) (v : h.level = .readWrite) : ∀ p ∈ l, Passes s cls p := by
  rw [w]
  intro p hp
  rw [List.mem_singleton.mp hp]
  exact .inr (.inl ⟨h, r, fun _ => v⟩)

theorem witness_XferOpenAdmitsOrHolds :
    LinkTakes linked ∧ openCheck 31 .write ⟨2 ^ 15 - 1024, 1024⟩ linked = none
      ∧ orderCheck .write ⟨2 ^ 15 - 1024, 1024⟩ 0 linked = none
      ∧ (∀ q ∈ rangeWalk linked ⟨2 ^ 15 - 1024, 1024⟩, Passes linked .write q) ∧ linked.rekey.fence = none :=
  ⟨linkTakes_linked, by decide +kernel, by decide +kernel,
    passes_open (q := ⟨⟨2 ^ 15 - 1024, 1024⟩, 0, false⟩) (h := ⟨.readWrite, factoryRangeKey, 0, none⟩) (by decide +kernel)
      (by decide +kernel) rfl, rfl⟩

/-- Range 0 is under rekey up to LBA 256, with slot 5 as its next slot. -/
def rekeyed : State :=
  withRekey ⟨0, 256, 0, .running, 1⟩ (withRun 0 (.opened ⟨.readWrite, factoryRangeKey, 0, some 5⟩) ordered)

/-- R34: a READ over the frontier takes the next slot below it and the current one above. -/
theorem test_frontier_slots :
    ((after (.xferOpen 3 .read 255 2 0) rekeyed).adm.table[(3 : Fin 32)])
      = .admitted ⟨.read, ⟨255, 2⟩, none, [⟨⟨255, 1⟩, 0, .cipher 5⟩, ⟨⟨256, 1⟩, 0, .cipher 0⟩], 0, 0, 0, false⟩ := by
  decide +kernel

theorem witness_XferOpenAdmitsOrHolds_migration :
    LinkTakes rekeyed ∧ openCheck 0 .migrateWrite ⟨0, 256⟩ rekeyed = none
      ∧ orderCheck .migrateWrite ⟨0, 256⟩ 7 rekeyed = none
      ∧ rangeWalk rekeyed ⟨0, 256⟩ = [⟨⟨0, 256⟩, 0, true⟩]
      ∧ (∀ q ∈ rangeWalk rekeyed ⟨0, 256⟩, Passes rekeyed .migrateWrite q)
      ∧ rekeyed.ranges[(0 : Fin 16)].run = .opened ⟨.readWrite, factoryRangeKey, 0, some 5⟩ :=
  ⟨⟨rfl, rfl, rfl, rfl⟩, by decide +kernel, by decide +kernel, by decide +kernel,
    passes_open (q := ⟨⟨0, 256⟩, 0, true⟩) (h := ⟨.readWrite, factoryRangeKey, 0, some 5⟩) (by decide +kernel)
      (by decide +kernel) rfl, by decide +kernel⟩

/-- A READ of an ERASED range, and one of a LOCKED range with the watch ERASED. -/
theorem witness_XferOpenAdmitsOrHolds_pad :
    LinkTakes (withRun 0 .erased linked) ∧ openCheck 0 .read ⟨0, 1⟩ (withRun 0 .erased linked) = none
      ∧ rangeWalk (withRun 0 .erased linked) ⟨0, 1⟩ = [⟨⟨0, 1⟩, 0, false⟩]
      ∧ Passes (withRun 0 .erased linked) .read ⟨⟨0, 1⟩, 0, false⟩
      ∧ LinkTakes (withWatch ⟨.erased, 1⟩ (withRun 0 .locked linked))
      ∧ openCheck 0 .read ⟨0, 1⟩ (withWatch ⟨.erased, 1⟩ (withRun 0 .locked linked)) = none
      ∧ Passes (withWatch ⟨.erased, 1⟩ (withRun 0 .locked linked)) .read ⟨⟨0, 1⟩, 0, false⟩ :=
  ⟨⟨rfl, rfl, rfl, rfl⟩, by decide +kernel, by decide +kernel, .inr (.inr ⟨by decide +kernel, rfl⟩), ⟨rfl, rfl, rfl, rfl⟩,
    by decide +kernel, .inl rfl⟩

/-- The hold list is full. -/
def holding : State := { intending with adm := { intending.adm with hold := [0, 1, 2, 3, 4, 5, 6, 7] } }

theorem witness_XferOpenAdmitsOrHolds_fence :
    LinkTakes intending ∧ openCheck 9 .read ⟨255, 1⟩ intending = none
      ∧ (∀ q ∈ rangeWalk intending ⟨255, 1⟩, Passes intending .read q)
      ∧ intending.rekey.fence = some ⟨0, 256⟩ ∧ extentsOverlap ⟨255, 1⟩ ⟨0, 256⟩ = true
      ∧ intending.adm.hold.length < 8
      ∧ LinkTakes holding ∧ openCheck 9 .read ⟨255, 1⟩ holding = none
      ∧ (∀ q ∈ rangeWalk holding ⟨255, 1⟩, Passes holding .read q)
      ∧ holding.rekey.fence = some ⟨0, 256⟩ ∧ 8 ≤ holding.adm.hold.length :=
  ⟨⟨rfl, rfl, rfl, rfl⟩, by decide +kernel,
    passes_open (q := ⟨⟨255, 1⟩, 0, false⟩) (h := ⟨.readWrite, factoryRangeKey, 0, none⟩) (by decide +kernel)
      (by decide +kernel) rfl, rfl, by decide, by decide, ⟨rfl, rfl, rfl, rfl⟩, by decide +kernel,
    passes_open (q := ⟨⟨255, 1⟩, 0, false⟩) (h := ⟨.readWrite, factoryRangeKey, 0, none⟩) (by decide +kernel)
      (by decide +kernel) rfl, rfl, by decide⟩

theorem witness_UnitsJoinAndAreAnswered_joins :
    LinkTakes (withUnits (List.replicate 8 ⟨0, 0, 0⟩) linked)
      ∧ 8 ≤ (withUnits (List.replicate 8 ⟨0, 0, 0⟩) linked).drive.units.length
      ∧ LinkTakes (withUnits (List.replicate 7 ⟨0, 0, 0⟩) linked)
      ∧ (withUnits (List.replicate 7 ⟨0, 0, 0⟩) linked).drive.units.length < 8
      ∧ LinkTakes (withEntry 3 (.admitted reading) linked)
      ∧ (withEntry 3 (.admitted reading) linked).adm.table[(3 : Fin 32)] = .admitted reading
      ∧ (withEntry 3 (.aborting reading) linked).adm.table[(3 : Fin 32)] = .aborting reading
      ∧ (withEntry 3 (.held .read ⟨0, 1⟩) linked).adm.table[(3 : Fin 32)] = .held .read ⟨0, 1⟩
      ∧ linked.adm.table[(3 : Fin 32)] = .free := by
  refine ⟨⟨rfl, rfl, rfl, rfl⟩, by decide, ⟨rfl, rfl, rfl, rfl⟩, by decide, ⟨rfl, rfl, rfl, rfl⟩, ?_⟩
  decide +kernel

/-- A unit `i` of tag 3 at the head of the buffer, whose transfer is `e`. -/
def headed (e : Entry) (i : Nat) : State := withUnits [⟨3, i, 0⟩] (withEntry 3 e linked)

theorem witness_UnitsJoinAndAreAnswered :
    Between (headed (.admitted { reading with next := 6 }) 6)
      ∧ (headed (.admitted { reading with next := 6 }) 6).adm.table[(3 : Fin 32)] = .admitted { reading with next := 6 }
      ∧ 6 + 1 < reading.extent.len
      ∧ segmentOf { reading with next := 6 } 6 = some ⟨⟨8, 8⟩, 0, .cipher 0⟩
      ∧ slotKey (headed (.admitted { reading with next := 6 }) 6).slots[(0 : Fin 18)] = some factoryMediaKey
      ∧ segmentOf { reading with segs := [⟨⟨8, 8⟩, 0, .pad⟩] } 0 = some ⟨⟨8, 8⟩, 0, .pad⟩ :=
  ⟨rfl, by decide +kernel, by decide, by decide +kernel, by decide +kernel, by decide +kernel⟩

theorem witness_UnitTakenEndsTransfers :
    Between linked ∧ linked.drive.units = []
      ∧ Between (headed (.admitted reading) 1) ∧ (headed (.admitted reading) 1).adm.table[(3 : Fin 32)] = .admitted reading
      ∧ 1 ≠ reading.next
      ∧ (headed (.admitted { reading with next := 7, segs := [⟨⟨8, 8⟩, 0, .pad⟩] }) 7).drive.units = [⟨3, 7, 0⟩]
      ∧ segmentOf { reading with next := 7, segs := [⟨⟨8, 8⟩, 0, .pad⟩] } 7 = some ⟨⟨8, 8⟩, 0, .pad⟩
      ∧ reading.extent.len = 7 + 1
      ∧ (headed (.aborting reading) 6).adm.table[(3 : Fin 32)] = .aborting reading ∧ 6 + 1 < reading.extent.len
      ∧ reading.extent.len ≤ 7 + 1
      ∧ segmentOf { reading with next := 7, padded := true } 7 = some ⟨⟨8, 8⟩, 0, .cipher 0⟩
      ∧ slotKey (headed (.admitted { reading with next := 7, padded := true }) 7).slots[(0 : Fin 18)]
        = some factoryMediaKey := by
  refine ⟨rfl, rfl, rfl, ?_⟩
  decide +kernel

/-- The buffer is full of units of tag 3; an unknown frame, two units and a request wait behind it. -/
def stalled : State :=
  { headed (.aborting reading) 0 with drive := { linked.drive with
    units := List.replicate 8 ⟨3, 0, 0⟩, inbound := [.xferUnit 3 1 0, .malformedFrame 9, .xferUnit 3 2 0, .status 7] } }

/-- R172: the unit at the head joins the buffer, the frame behind it is dropped, and the next unit stalls. -/
theorem witness_UnitTakenEndsTransfers_stalled :
    Between stalled ∧ stalled.phase = .running ∧ (∀ c ∈ stalled.drive.inbound, IsFrame c)
      ∧ completes .cipherUnitTake { stalled with drive := { stalled.drive with inbound := [] } } = true
      ∧ (after .cipherUnitTake stalled).drive.inbound = [.xferUnit 3 2 0, .status 7]
      ∧ (after .cipherUnitTake stalled).drive.units.length = 8 := by
  refine ⟨rfl, rfl, fun c hc => ?_, by decide +kernel⟩
  have h : c = .xferUnit 3 1 0 ∨ c = .malformedFrame 9 ∨ c = .xferUnit 3 2 0 ∨ c = .status 7 := by
    simpa [stalled] using hc
  obtain rfl | rfl | rfl | rfl := h
  · exact .inl rfl
  · exact .inr (.inr ⟨9, rfl⟩)
  · exact .inl rfl
  · exact .inr (.inl rfl)

theorem witness_XferStopEndsTheTag :
    LinkTakes (headed (.admitted reading) 0)
      ∧ (headed (.admitted reading) 0).adm.table[(3 : Fin 32)] = .admitted reading
      ∧ (∀ r ∈ rangesNamed reading.segs, ∀ h d ws, (headed (.admitted reading) 0).ranges[r].run ≠ .closing h d ws)
      ∧ reading.cls ≠ .write
      ∧ (headed (.aborting reading) 0).adm.table[(3 : Fin 32)] = .aborting reading
      ∧ busy.adm.table[(31 : Fin 32)] = .held .read ⟨0, 1⟩ ∧ LinkTakes busy
      ∧ linked.adm.table[(3 : Fin 32)] = .free
      ∧ (withRun 0 (.closing ⟨.readWrite, ⟨1⟩, 0, none⟩ 1 []) (headed (.admitted reading) 0)).ranges[(0 : Fin 16)].run
        = .closing ⟨.readWrite, ⟨1⟩, 0, none⟩ 1 []
      ∧ rangesNamed reading.segs = [0] := by
  refine ⟨⟨rfl, rfl, rfl, rfl⟩, by decide +kernel, ?_, by decide, by decide +kernel, by decide +kernel,
    ⟨rfl, rfl, rfl, rfl⟩, by decide +kernel, by decide +kernel, by decide +kernel⟩
  have h : rangesNamed reading.segs = [0] := by decide +kernel
  have e : (headed (.admitted reading) 0).ranges[(0 : Fin 16)].run
      = .opened ⟨.readWrite, factoryRangeKey, 0, none⟩ := by decide +kernel
  intro r hr
  rw [h, List.mem_singleton] at hr
  subst hr
  rw [e]
  exact nofun

/-! ### The drive link, the rekey and the scrub -/

/-- The credential key of `good` under salt 9 and work factor 8. -/
def goodKey : CredKey := ⟨good, ⟨9⟩, 8⟩

/-- The OWNER stands ACTIVE with `good` as its secret. -/
def owned : State := withCred 0 ⟨.active, some ⟨goodKey, ⟨9⟩, 8⟩, 0⟩ linked

/-- A write under way, the last that a charge waits for. -/
def charging : State :=
  let s := withSec ⟨.eraseAll 1 0 good, false, .charging, [], [7], false⟩ owned
  { s with store := { s.store with active := some ⟨7, [.credentialUnit], .charged 1⟩ } }

theorem witness_FramesTakenByTheLink :
    LinkTakes linked ∧ (commandFrame (.xferStop 31)).isSome = true ∧ Between linked
      ∧ { linked with phase := .starting }.phase ≠ .running
      ∧ { linked with drive := { linked.drive with inbound := [.linkHello] } }.drive.inbound ≠ []
      ∧ State.reset.phase = .running ∧ State.reset.drive.inbound = [] ∧ State.reset.drive.up = false
      ∧ Instr.xferStop 31 ≠ .linkHello :=
  ⟨linkTakes_linked, by decide, rfl, by decide, by decide, rfl, rfl, rfl, by decide⟩

/-- The link DOWN, with a rekey of range 0 at frontier 256. -/
def resuming (st : RekeyState) : State := withRekey ⟨0, 256, 0, st, 1⟩ State.reset

/-- A WRITE over the window of `resuming`. -/
def overWindow : Entry := .admitted { reading with cls := .write, extent := ⟨511, 1⟩ }

/-- The link DOWN, with the scrub at step 4 from 2048. -/
def scrubDown : State :=
  { withWatch ⟨.erasing, 240⟩ State.reset with
    copies := { State.reset.copies with
      watch := ⟨.erasing, 240⟩, journal := some ⟨.owner, 4, 2048, [], none⟩ } }

theorem witness_FramesTakenByTheLink_hello :
    (Between State.reset ∧ State.reset.phase = .running ∧ State.reset.drive.inbound = [] ∧ State.reset.drive.up = false)
      ∧ State.reset.copies.rekey = none ∧ scrubFrontier State.reset = none
      ∧ linked.drive.up = true
      ∧ (resuming .paused).copies.rekey = some ⟨0, 256, 0, .paused, 1⟩
      ∧ (resuming .running).copies.rekey = some ⟨0, 256, 0, .running, 1⟩
      ∧ scrubFrontier (resuming .running) = none ∧ isOpen (resuming .running).ranges[(0 : Fin 16)].run = true
      ∧ (resuming .running).rekey.order = none ∧ (resuming .running).rekey.intended = none
      ∧ (resuming .running).rekey.completing = false ∧ (resuming .running).store.waits = []
      ∧ (withEntry 3 overWindow (resuming .running)).adm.table[(3 : Fin 32)] = overWindow
      ∧ extentsOverlap ⟨511, 1⟩ ⟨256, 256⟩ = true ∧ (∀ g : Fin 32, (resuming .running).adm.table[g] = .free)
      ∧ scrubDown.copies.rekey = none ∧ scrubFrontier scrubDown = some 2048 :=
  ⟨⟨rfl, rfl, rfl, rfl⟩, by decide +kernel⟩

/-- A LOCK waits on the close of range 0, in which `reading` is admitted. -/
def lockWaiting : State :=
  withRun 0 (.closing ⟨.readWrite, factoryRangeKey, 0, none⟩ 1 [.security])
    (withSec ⟨.lock 9 0, false, .closing, [], [], false⟩ (withEntry 3 (.admitted reading) linked))

theorem witness_LinkResetIndicationEndsTransfers :
    Between State.reset ∧ State.reset.drive.up = false ∧ Between lockWaiting ∧ lockWaiting.drive.up = true
      ∧ lockWaiting.drive.inbound = []
      ∧ lockWaiting.cmd.sec = some ⟨.lock 9 0, false, .closing, [], [], false⟩
      ∧ awaited .security lockWaiting = true
      ∧ Instr.linkHello ∉ [Instr.status 1] ∧ [Instr.status 1, .linkHello] = [Instr.status 1] ++ [.linkHello]
      ∧ linked.phase = .running ∧ linked.drive.up = true
      ∧ charging.cmd.sec = some ⟨.eraseAll 1 0 good, false, .charging, [], [7], false⟩ ∧ SecPhase.charging ≠ .closing
      ∧ SlotsOk linked ∧ ∀ (r : Fin 16) h d ws, linked.ranges[r].run ≠ .closing h d ws := by
  refine ⟨rfl, rfl, rfl, rfl, rfl, rfl, by decide +kernel, by decide, rfl, rfl, rfl, rfl, nofun, slotsOk_linked,
    fun r h d ws hr => ?_⟩
  have f := linked_held r
  rw [hr] at f
  have g : isOpen linked.ranges[(0 : Fin 16)].run = true := by decide +kernel
  split at f
  · rename_i e
    subst e
    rw [hr] at g
    cases g
  · cases f

/-- The answer to a fetch of `busy`'s first notice is the frame to leave. -/
def fetching : State :=
  { busy with drive := { busy.drive with
    outbox := [.secAnswer 9 0x02 .ok (.notices [⟨.scrubHalf, false, 1⟩] 1), .linkError 0] } }

theorem witness_StatusFetchAndMaskAnswered_leaves :
    Between linked ∧ linked.drive.outbox = [] ∧ Between fetching
      ∧ fetching.drive.outbox = [.secAnswer 9 0x02 .ok (.notices [⟨.scrubHalf, false, 1⟩] 1), .linkError 0]
      ∧ (∀ id k c l n, OutFrame.linkError 0 ≠ .secAnswer id k c (.notices l n)) :=
  ⟨rfl, rfl, rfl, rfl, nofun⟩

/-- A rekey of range 0 from frontier 0 with order 7 outstanding, and `n` retries made. -/
def migrating (n : Nat) : State := withRekey ⟨0, 0, n, .running, 1⟩ ordered

/-- The order's deadline has come to 0. -/
def ordered' (s : State) : State := { s with rekey := { s.rekey with order := some ⟨7, ⟨0, 256⟩, 0⟩ } }

theorem witness_MigrationOrdersComplete :
    Between linked ∧ linked.rekey.order = none
      ∧ LinkTakes (migrating 1) ∧ (migrating 1).rekey.order = some ⟨7, ⟨0, 256⟩, 30⟩
      ∧ (ordered' (migrating 2)).rekey.order = some ⟨7, ⟨0, 256⟩, 0⟩
      ∧ (migrating 1).copies.rekey = some ⟨0, 0, 1, .running, 1⟩ ∧ 1 < (migrating 1).copies.policy.retryLimit
      ∧ (migrating 2).copies.policy.retryLimit ≤ 2
      ∧ (∀ o, linked.rekey.order = some o → o.num ≠ 7) ∧ (∀ o ∈ linked.erase.orders, o.num ≠ 7)
      ∧ restFrontier (migrating 1).copies 0 (extentEnd ⟨0, 256⟩) ≠ rangeEnd (migrating 1).copies 0 :=
  ⟨rfl, rfl, ⟨rfl, rfl, rfl, rfl⟩, rfl, rfl, rfl, by decide +kernel, by decide +kernel, of_none rfl, by decide +kernel,
    by decide +kernel⟩

theorem witness_MigrationOrdersComplete_sends :
    Between linked ∧ linked.rekey.intended = none
      ∧ Between intending ∧ intending.rekey.intended = some ⟨0, 256⟩ ∧ intending.drive.up = true
      ∧ (∀ (t : Fin 32) x, intending.adm.table[t] = .admitted x → x.cls = .write →
        extentsOverlap x.extent ⟨0, 256⟩ = false)
      ∧ (∃ t x, (withEntry 3 (.admitted { reading with cls := .write, extent := ⟨255, 1⟩ }) intending).adm.table[(t : Fin 32)]
        = .admitted x ∧ x.cls = .write ∧ extentsOverlap x.extent ⟨0, 256⟩ = true) := by
  refine ⟨rfl, rfl, rfl, rfl, rfl, fun t x h => ?_,
    ⟨3, { reading with cls := .write, extent := ⟨255, 1⟩ }, by decide +kernel, rfl, by decide⟩⟩
  have f : ∀ t : Fin 32, intending.adm.table[t] = .free := by decide +kernel
  rw [f t] at h
  cases h

/-- The scrub at step 4 with order 5 out for the chunk at 2048, its deadline at 0, `n` retries of it made, and `k` chunks
skipped. -/
def scrubbing (n k : Nat) : State :=
  let s := withWatch ⟨.erasing, 240⟩ linked
  { s with
    copies := { s.copies with journal := some ⟨.owner, 4, 2048, List.replicate k ⟨0, 2048⟩, none⟩ }
    erase := { s.erase with orders := [⟨5, 2048, 0⟩], retries := [(2048, n)] } }

theorem witness_ScrubOrdersComplete_skipped :
    (⟨2048, 2048⟩ : Extent) ∈ [(⟨0, 2048⟩ : Extent), ⟨2048, 2048⟩] ∧ (⟨2048, 2048⟩ : Extent) ∉ [(⟨0, 2048⟩ : Extent)] := by
  decide

theorem witness_ScrubOrdersComplete :
    Between linked ∧ (∀ o ∈ linked.erase.orders, o.num ≠ 5)
      ∧ scrubOrder 5 { scrubbing 1 0 with erase := { linked.erase with orders := [⟨5, 2048, 1⟩] } } = some ⟨5, 2048, 1⟩
      ∧ LinkTakes (scrubbing 1 0) ∧ scrubOrder 5 (scrubbing 1 0) = some ⟨5, 2048, 0⟩
      ∧ (scrubbing 1 0).copies.journal = some ⟨.owner, 4, 2048, [], none⟩
      ∧ (∀ m, (scrubbing 1 0).rekey.order = some m → m.num ≠ 5)
      ∧ retryCount 2048 (scrubbing 1 0).erase.retries < (scrubbing 1 0).copies.policy.retryLimit
      ∧ (scrubbing 2 15).copies.policy.retryLimit ≤ retryCount 2048 (scrubbing 2 15).erase.retries
      ∧ scrubOrder 5 (scrubbing 2 15) = some ⟨5, 2048, 0⟩
      ∧ (scrubbing 2 15).copies.journal = some ⟨.owner, 4, 2048, List.replicate 15 ⟨0, 2048⟩, none⟩
      ∧ (scrubbing 2 16).copies.journal = some ⟨.owner, 4, 2048, List.replicate 16 ⟨0, 2048⟩, none⟩
      ∧ unwrittenOf .eraseEngine (scrubbing 2 16) = []
      ∧ passDone [14336] 1 14336 = 2 ^ 14 ∧ passDone [2 ^ 15 - 2048] 1 (2 ^ 15 - 2048) = 2 ^ 15 :=
  ⟨rfl, by decide +kernel, by decide +kernel, ⟨rfl, rfl, rfl, rfl⟩, by decide +kernel, rfl, of_none rfl,
    by decide +kernel, by decide +kernel, by decide +kernel, rfl, rfl, by decide +kernel, by decide, by decide⟩

/-- A write in progress, whose completion lets `job` run. -/
def completing (job : Cont) (s : State) : State :=
  { s with store := { s.store with active := some ⟨7, [.rekeyEngine], .rekey none⟩, waits := [⟨[7], job⟩] } }

theorem completesTo_of (job : Cont) (s : State) (h : Between s) (a : s.cmd.sec = none) (b : s.cmd.plat = none) :
    CompletesTo job (completing job s) := ⟨h, a, b, _, rfl, rfl⟩

/-- Order 7 is the last of range 0's rekey. -/
def lastOrder : State :=
  withRekey ⟨0, 2 ^ 15 - 256, 0, .running, 1⟩
    { linked with rekey := { linked.rekey with order := some ⟨7, ⟨2 ^ 15 - 256, 256⟩, 30⟩ } }

/-- Tag 31 is held over [0, 1), behind a completion. -/
def heldBack (s : State) : State :=
  completing .rekeyClosing { s with adm := ⟨s.adm.table.set 31 (.held .read ⟨0, 1⟩), [31]⟩ }

theorem holdListOk_of (s : State) (l : s.adm.hold = [31])
    (h : ∀ g : Fin 32, s.adm.table[g] = if g = 31 then .held .read ⟨0, 1⟩ else .free) : HoldListOk s := by
  refine ⟨by rw [l]; decide, fun g => ?_⟩
  rw [l, h g, List.mem_singleton]
  split <;> simp_all

theorem witness_RekeyEndsAndReleases_held :
    CompletesTo .rekeyClosing (heldBack (withRekey ⟨0, 256, 0, .running, 1⟩ linked))
      ∧ HoldListOk (heldBack (withRekey ⟨0, 256, 0, .running, 1⟩ linked))
      ∧ (heldBack (withRekey ⟨0, 256, 0, .running, 1⟩ linked)).adm.hold = 31 :: []
      ∧ judgeAll (heldBack (withRekey ⟨0, 256, 0, .running, 1⟩ linked)) .read
        (rangeWalk (heldBack (withRekey ⟨0, 256, 0, .running, 1⟩ linked)) ⟨0, 1⟩) = .inr [⟨⟨0, 1⟩, 0, .cipher 0⟩]
      ∧ CompletesTo (.rekeyEnded 0)
        (completing (.rekeyEnded 0) (heldBack (withRun 0 (.opened ⟨.readWrite, ⟨1⟩, 0, some 17⟩) linked)))
      ∧ HoldListOk (completing (.rekeyEnded 0) (heldBack (withRun 0 (.opened ⟨.readWrite, ⟨1⟩, 0, some 17⟩) linked))) :=
  ⟨completesTo_of _ _ rfl rfl rfl, holdListOk_of _ rfl (by decide +kernel), rfl, by decide +kernel,
    completesTo_of _ _ rfl rfl rfl, holdListOk_of _ rfl (by decide +kernel)⟩

theorem witness_RekeyEndsAndReleases :
    LinkTakes lastOrder ∧ lastOrder.rekey.order = some ⟨7, ⟨2 ^ 15 - 256, 256⟩, 30⟩
      ∧ lastOrder.copies.rekey = some ⟨0, 2 ^ 15 - 256, 0, .running, 1⟩
      ∧ restFrontier lastOrder.copies 0 (extentEnd ⟨2 ^ 15 - 256, 256⟩) = rangeEnd lastOrder.copies 0
      ∧ CompletesTo (.rekeyEnded 0)
        (completing (.rekeyEnded 0) (withRun 0 (.opened ⟨.readWrite, ⟨1⟩, 0, some 17⟩) linked))
      ∧ (withRun 0 (.opened ⟨.readWrite, ⟨1⟩, 0, some 17⟩) linked).ranges[(0 : Fin 16)].run
        = .opened ⟨.readWrite, ⟨1⟩, 0, some 17⟩
      ∧ linked.copies.rekey = none ∧ linked.adm.hold = []
      ∧ CompletesTo .rekeyClosing (heldBack linked) ∧ (heldBack linked).drive.up = true
      ∧ (heldBack linked).adm.hold = [31] ∧ (heldBack linked).adm.table[(31 : Fin 32)] = .held .read ⟨0, 1⟩
      ∧ judgeAll (heldBack linked) .read (rangeWalk (heldBack linked) ⟨0, 1⟩) = .inr [⟨⟨0, 1⟩, 0, .cipher 0⟩]
      ∧ judgeAll (heldBack (withRun 0 .locked linked)) .read (rangeWalk (heldBack (withRun 0 .locked linked)) ⟨0, 1⟩)
        = .inl (.locked, 0)
      ∧ CompletesTo .rekeyClosing (completing .rekeyClosing (withRekey ⟨0, 256, 0, .running, 1⟩ linked))
      ∧ HoldListOk linked ∧ linked.rekey.order = none ∧ linked.rekey.intended = none
      ∧ isOpen linked.ranges[(0 : Fin 16)].run = true :=
  ⟨⟨rfl, rfl, rfl, rfl⟩, rfl, rfl, by decide +kernel, completesTo_of _ _ rfl rfl rfl, by decide +kernel, rfl, rfl,
    completesTo_of _ _ rfl rfl rfl, rfl, rfl, by decide +kernel, by decide +kernel, by decide +kernel,
    completesTo_of _ _ rfl rfl rfl, holdListOk_linked, rfl, rfl, by decide +kernel⟩

/-- An erase whose journal stands at step `k`, with the scrub on or off, and a completion that lets `job` run. -/
def erasing (k : Nat) (scrub : Bool) (job : Cont) : State :=
  completing job { linked with copies := { linked.copies with
    watch := ⟨.erasing, 240⟩, journal := some ⟨.owner, k, 0, [], none⟩, policy := { Policy.default with scrubEnable := scrub } } }

theorem witness_ErasesRunThroughTheirSteps :
    (erasing 0 true .eraseEntered).copies.journal = some ⟨.owner, 0, 0, [], none⟩
      ∧ CompletesTo .eraseEntered (erasing 0 true .eraseEntered)
      ∧ CompletesTo (.eraseNext 1) (erasing 0 true (.eraseNext 1)) ∧ HoldListOk (erasing 0 true (.eraseNext 1))
      ∧ SlotsOk (erasing 0 true (.eraseNext 1))
      ∧ CompletesTo (.eraseNext 2) (erasing 1 true (.eraseNext 2))
      ∧ CompletesTo (.eraseNext 3) (erasing 2 true (.eraseNext 3))
      ∧ rangeDefined (erasing 2 true (.eraseNext 3)).copies 0 = true
      ∧ rangeDefined (erasing 2 true (.eraseNext 3)).copies 15 = false
      ∧ CompletesTo (.eraseNext 4) (erasing 3 true (.eraseNext 4))
      ∧ (erasing 3 true (.eraseNext 4)).copies.policy.scrubEnable = true
      ∧ 0 < (erasing 3 true (.eraseNext 4)).copies.factory.capacity
      ∧ (erasing 3 true (.eraseNext 4)).drive.up = true ∧ (erasing 3 true (.eraseNext 4)).erase.stopping = false
      ∧ CompletesTo (.eraseNext 4) (erasing 3 false (.eraseNext 4))
      ∧ (erasing 3 false (.eraseNext 4)).copies.policy.scrubEnable = false
      ∧ CompletesTo (.scrubEnd .complete) (erasing 4 true (.scrubEnd .complete)) :=
  ⟨rfl, completesTo_of _ _ rfl rfl rfl, completesTo_of _ _ rfl rfl rfl, holdListOk_linked, slotsOk_linked,
    completesTo_of _ _ rfl rfl rfl, completesTo_of _ _ rfl rfl rfl, by decide +kernel, by decide +kernel,
    completesTo_of _ _ rfl rfl rfl, rfl, by decide +kernel, rfl, rfl, completesTo_of _ _ rfl rfl rfl, rfl,
    completesTo_of _ _ rfl rfl rfl⟩

/-- An ERASE_ALL, and a REMOTE_ERASE whose answer was dropped, wait for step 0. -/
theorem witness_ErasesRunThroughTheirSteps_answers :
    let sec := withSec ⟨.eraseAll 1 0 good, false, .answering .ok (.eraseStep 0), [], [], true⟩ (erasing 0 true .eraseEntered)
    let plat := withPlat ⟨0x06, true, .answering .ok, [], true⟩ (erasing 0 true .eraseEntered)
    sec.copies.journal = some ⟨.owner, 0, 0, [], none⟩ ∧ Between sec
      ∧ sec.store.active = some ⟨7, [.rekeyEngine], .rekey none⟩ ∧ sec.store.waits = [⟨[7], .eraseEntered⟩]
      ∧ sec.cmd.sec = some ⟨.eraseAll 1 0 good, false, .answering .ok (.eraseStep 0), [], [], true⟩ ∧ sec.cmd.plat = none
      ∧ plat.copies.journal = some ⟨.owner, 0, 0, [], none⟩ ∧ Between plat
      ∧ plat.store.active = some ⟨7, [.rekeyEngine], .rekey none⟩ ∧ plat.store.waits = [⟨[7], .eraseEntered⟩]
      ∧ plat.cmd.plat = some ⟨0x06, true, .answering .ok, [], true⟩ ∧ plat.cmd.sec = none :=
  ⟨rfl, rfl, rfl, rfl, rfl, rfl, rfl, rfl, rfl, rfl, rfl, rfl⟩

/-! ### The security channel and the credential test -/

theorem witness_CommandsTurnedAwayAtTheChannels :
    LinkTakes linked ∧ (requestCode (.eraseAll 1 0 good)).isSome = true
      ∧ LinkTakes (withSec ⟨.lockAll 1, false, .closing, [], [], false⟩ linked)
      ∧ (withSec ⟨.lockAll 1, false, .closing, [], [], false⟩ linked).cmd.sec.isSome = true
      ∧ linked.cmd.sec = none ∧ (requestCode (.secRequestBadKind 1 0x77)).isSome = true
      ∧ (∃ id kind, Instr.secRequestBadKind 1 0x77 = .secRequestBadKind id kind)
      ∧ (∀ id kind, Instr.eraseAll 1 0 good ≠ .secRequestBadKind id kind)
      ∧ channelPasses (.eraseAll 1 0 good) (withWatch ⟨.erased, 0⟩ linked).copies.watch.state = false :=
  ⟨linkTakes_linked, by decide, ⟨rfl, rfl, rfl, rfl⟩, rfl, rfl, by decide, ⟨1, 0x77, rfl⟩, nofun, by decide⟩

theorem witness_StatusFetchAndMaskAnswered :
    ChannelTakes busy ∧ linked.watch.supervision ≠ .armed
      ∧ { linked.watch with supervision := .armed }.supervision = .armed
      ∧ (0x3FF : BitVec 16).toNat < 1024 ∧ 1024 ≤ (0x400 : BitVec 16).toNat :=
  ⟨⟨⟨rfl, rfl, rfl, rfl⟩, rfl⟩, by decide +kernel, rfl, by decide, by decide⟩

/-- Range 0 with a READ admitted in it. -/
def occupied : State := withEntry 3 (.admitted reading) linked

theorem noClose_of {s : State} (h : s.cmd.sec = none) (g : s.cmd.plat = none) : NoCloseAwaited s :=
  ⟨of_none h, of_none g⟩

theorem witness_LockAndLockAllClose :
    ChannelTakes linked ∧ alive linked.copies.watch.state = true ∧ 16 ≤ (16 : Byte).toNat
      ∧ rangeDefined linked.copies (rangeIx 15) = false
      ∧ (0 : Byte).toNat < 16 ∧ rangeDefined linked.copies (rangeIx 0) = true ∧ awaited .security linked = false
      ∧ NoCloseAwaited linked
      ∧ (withRun 0 .locked linked).ranges[(0 : Fin 16)].run = .locked
      ∧ (withRun 0 .erased linked).ranges[(0 : Fin 16)].run = .erased
      ∧ linked.ranges[(0 : Fin 16)].run = .opened ⟨.readWrite, factoryRangeKey, 0, none⟩
      ∧ rekeyOn 0 linked.copies = false ∧ linked.rekey.seen = none ∧ linked.adm.hold = []
      ∧ drained 0 linked = true
      ∧ ChannelTakes occupied ∧ NoCloseAwaited occupied ∧ awaited .security occupied = false
      ∧ occupied.ranges[(0 : Fin 16)].run = .opened ⟨.readWrite, factoryRangeKey, 0, none⟩
      ∧ drained 0 occupied = false := by
  refine ⟨channelTakes_linked, by decide +kernel, by decide, by decide +kernel, by decide, by decide +kernel,
    by decide +kernel, noClose_linked, by decide +kernel, by decide +kernel, by decide +kernel, by decide +kernel,
    rfl, rfl, by decide +kernel, ⟨⟨rfl, rfl, rfl, rfl⟩, rfl⟩, noClose_of rfl rfl, by decide +kernel, by decide +kernel,
    by decide +kernel⟩

/-- Range 0 is under rekey with its window intended, and tag 31 is held in it. -/
def fenced (st : RekeyState) : State :=
  withRekey ⟨0, 0, 0, st, 1⟩ { intending with adm := ⟨intending.adm.table.set 31 (.held .read ⟨0, 1⟩), [31]⟩ }

theorem witness_LockAndLockAllClose_rekey :
    ChannelTakes (fenced .running) ∧ NoCloseAwaited (fenced .running) ∧ HoldListOk (fenced .running)
      ∧ alive (fenced .running).copies.watch.state = true ∧ awaited .security (fenced .running) = false
      ∧ (fenced .running).ranges[(0 : Fin 16)].run = .opened ⟨.readWrite, factoryRangeKey, 0, none⟩
      ∧ (fenced .running).adm.table[(31 : Fin 32)] = .held .read ⟨0, 1⟩
      ∧ touches (fenced .running) 0 ⟨0, 1⟩ = true ∧ touches (fenced .running) 15 ⟨0, 1⟩ = false
      ∧ drained 0 (fenced .running) = true ∧ drained 0 (withEntry 3 (.admitted reading) (fenced .running)) = false
      ∧ (fenced .running).rekey.intended = some ⟨0, 256⟩ ∧ (fenced .running).rekey.seen = none
      ∧ (fenced .paused).copies.rekey = some ⟨0, 0, 0, .paused, 1⟩
      ∧ ChannelTakes (withRun 0 (.closing ⟨.readWrite, factoryRangeKey, 0, none⟩ 1 [.sleep]) occupied)
      ∧ awaited .security (withRun 0 (.closing ⟨.readWrite, factoryRangeKey, 0, none⟩ 1 [.sleep]) occupied) = false := by
  refine ⟨⟨⟨rfl, rfl, rfl, rfl⟩, rfl⟩, noClose_of rfl rfl, holdListOk_of _ rfl (by decide +kernel), by decide +kernel,
    by decide +kernel, by decide +kernel, by decide +kernel, by decide +kernel, by decide +kernel, by decide +kernel,
    by decide +kernel, rfl, rfl, rfl, ⟨⟨rfl, rfl, rfl, rfl⟩, rfl⟩, by decide +kernel⟩

theorem witness_LockAndLockAllClose_all :
    ChannelTakes linked ∧ alive linked.copies.watch.state = true ∧ rangeDefined linked.copies 0 = true
      ∧ (∀ r : Fin 16, (withRun 0 .locked linked).ranges[r].run = .locked
        ∨ (withRun 0 .locked linked).ranges[r].run = .erased)
      ∧ ChannelTakes (withRun 0 .locked linked) ∧ NoCloseAwaited (withRun 0 .locked linked) :=
  ⟨channelTakes_linked, by decide +kernel, by decide +kernel, by decide +kernel, ⟨⟨rfl, rfl, rfl, rfl⟩, rfl⟩,
    noClose_of rfl rfl⟩

theorem witness_CredentialRequestsChargedOrRefused :
    ChannelTakes owned ∧ credentials (.eraseAll 1 0 good) = some (0, good)
      ∧ channelPasses (.eraseAll 1 0 good) owned.copies.watch.state = true
      ∧ formCheck owned.copies.factory.capacity (.eraseAll 1 0 good) = none
      ∧ gatingCheck (.eraseAll 1 0 good) 0 owned = none :=
  ⟨⟨⟨rfl, rfl, rfl, rfl⟩, rfl⟩, by decide +kernel⟩

theorem witness_CredentialRequestsChargedOrRefused_refused :
    ChannelTakes owned ∧ credentials (.unlock 1 0 good [16]) = some (0, good)
      ∧ channelPasses (.unlock 1 0 good [16]) owned.copies.watch.state = true
      ∧ formCheck owned.copies.factory.capacity (.unlock 1 0 good [16]) = some (.badValue, .empty)
      ∧ formCheck owned.copies.factory.capacity (.unlock 1 0 good [15]) = none
      ∧ unlockWatch (.unlock 1 0 good [15]) (withWatch ⟨.erased, 0⟩ owned).copies.watch.state = some (.erased, .empty)
      ∧ unlockWatch (.unlock 1 0 good [15]) owned.copies.watch.state = none
      ∧ { owned with cred := { owned.cred with holdoff := some 1 } }.cred.holdoff = some 1
      ∧ owned.cred.holdoff = none
      ∧ linked.copies.creds[(0 : Fin 8)].state = .empty
      ∧ (withCred 1 ⟨.disabled, none, 8⟩ linked).copies.creds[(1 : Fin 8)].state = .disabled
      ∧ (withCred 6 ⟨.active, none, 0⟩ (withWatch ⟨.alarmed, 160⟩ linked)).copies.creds[(6 : Fin 8)].state = .active
      ∧ (withCred 6 ⟨.active, none, 0⟩ (withWatch ⟨.alarmed, 160⟩ linked)).copies.watch.state = .alarmed
      ∧ roleOf 6 = .user ∧ roleSuits (.eraseAll 1 7 good) (roleOf 7) = false :=
  ⟨⟨⟨rfl, rfl, rfl, rfl⟩, rfl⟩, by decide +kernel⟩

theorem witness_FormChecksRefuse_grant :
    ((7 : Byte).toNat < 8 ∧ (7 : Byte) ≠ 0) ∧ ¬(8 ≤ ([] : Secret).length ∧ ([] : Secret).length ≤ 64)
      ∧ ¬(8 ≤ (good.drop 1).length ∧ (good.drop 1).length ≤ 64) ∧ ¬((8 : Byte).toNat < 8 ∧ (8 : Byte) ≠ 0) := by decide

/-- R93: a GRANT to slot 1 with no second secret. -/
theorem test_grant_missing : formCheck (2 ^ 15) (.grant 1 0 good 1 0 0 []) = some (.badValue, .empty) := by decide +kernel

/-- R93: a GRANT to slot 1 with a second secret of 65 bytes. -/
theorem test_grant_long :
    formCheck (2 ^ 15) (.grant 1 0 good 1 0 0 (List.replicate 65 0)) = some (.badValue, .empty) := by decide +kernel

/-- For each clause an operand at the boundary of its range. -/
theorem witness_FormChecksRefuse :
    ChannelTakes owned ∧ credentialBearing 1 8 good (.eraseAll 1 8 good) ∧ 8 ≤ (8 : Byte).toNat ∧ (7 : Byte).toNat < 8
      ∧ channelPasses (.eraseAll 1 8 good) owned.copies.watch.state = true
      ∧ (8 ≤ good.length ∧ good.length ≤ 64) ∧ ¬(8 ≤ (good.drop 1).length) ∧ ¬((List.replicate 65 (0 : Byte)).length ≤ 64)
      ∧ (∃ b ∈ [(16 : Byte)], 16 ≤ b.toNat) ∧ ¬[(1 : Byte), 1].Nodup
      ∧ (0 : Byte).toNat = 0 ∧ 7 < (8 : Byte).toNat ∧ 8 < (9 : Byte).toNat ∧ 15 < (16 : Byte).toNat ∧ 1 < (2 : Byte).toNat
      ∧ (4 : Nat) % 8 ≠ 0 ∧ (0 : Nat) < 8 ∧ owned.copies.factory.capacity < (2 ^ 15 - 8) + 16
      ∧ (readPolicy (List.replicate 42 0)).t1 = 0
      ∧ 1 ≤ (readPolicy [0, 0, 0, 0, 0, 0, 0, 0, 0, 2, 1, 1]).t1
      ∧ (readPolicy [0, 0, 0, 0, 0, 0, 0, 0, 0, 2, 1, 1]).t2 < (readPolicy [0, 0, 0, 0, 0, 0, 0, 0, 0, 2, 1, 1]).t1
      ∧ (readPolicy [0, 0, 0, 0, 0, 0, 0, 0, 0, 2, 2, 1]).t3 < (readPolicy [0, 0, 0, 0, 0, 0, 0, 0, 0, 2, 2, 1]).t2
      ∧ Ordered (readPolicy (List.replicate 31 1 ++ [10]))
      ∧ (readPolicy (List.replicate 31 1 ++ [10])).gMax ≤ (readPolicy (List.replicate 31 1 ++ [10])).gMin
      ∧ 23 < (24 : Byte).toNat := by
  refine ⟨⟨⟨rfl, rfl, rfl, rfl⟩, rfl⟩, ⟨rfl, rfl, rfl⟩, ?_⟩
  unfold Ordered
  decide +kernel

theorem witness_TakeOwnershipDerivesTheOwner :
    ChannelTakes linked ∧ alive linked.copies.watch.state = true
      ∧ (List.replicate 7 (0 : Byte)).length < 8 ∧ 64 < (List.replicate 65 (0 : Byte)).length
      ∧ 8 ≤ good.length ∧ good.length ≤ 64
      ∧ ChannelTakes owned ∧ owned.copies.creds[(0 : Fin 8)].state ≠ .empty
      ∧ linked.copies.creds[(0 : Fin 8)].state = .empty :=
  ⟨channelTakes_linked, by decide +kernel, by decide, by decide, by decide, by decide, ⟨⟨rfl, rfl, rfl, rfl⟩, rfl⟩,
    by decide +kernel, by decide +kernel⟩

/-- The test of `req` by slot `c` is at its end, with `good` derived under salt 9, and `v` the slot's verifier. -/
def testing (req : Instr) (c : Fin 8) (v : CredKey) (s : State) : State :=
  { withSec ⟨req, false, .testing, [], [], false⟩ (withCred c ⟨.active, some ⟨v, ⟨9⟩, 8⟩, 1⟩ s) with
    derive := ⟨some ⟨.security, good, ⟨9⟩, 8⟩, []⟩ }

theorem testing_of (req : Instr) (c : Fin 8) (v : CredKey) (s : State) (hb : Between s)
    (hc : (credentials req).map Prod.fst = some c) : Testing req c goodKey (testing req c v s) :=
  ⟨hb, ⟨_, rfl, rfl, rfl⟩, ⟨false, rfl⟩, hc⟩

theorem succeeds_of (req : Instr) (s : State) (hb : Between s) (hc : (credentials req).map Prod.fst = some 0) :
    Succeeds req 0 goodKey (testing req 0 goodKey s) :=
  ⟨testing_of req 0 goodKey s hb hc, by simp [testing, withSec, withCred, verifies]⟩

theorem atRest_of (req : Instr) (s : State) (h : AtRest s) : AtRest (testing req 0 goodKey s) := h

theorem atRest_linked : AtRest linked := ⟨rfl, by decide, by decide, by decide⟩

/-- Slot 6, a USER whose own count has reached the limit of 8, fails its test. -/
theorem witness_FailedTestHoldsOff :
    Testing (.unlock 1 6 good []) 6 goodKey (testing (.unlock 1 6 good []) 6 ⟨[], ⟨9⟩, 8⟩ linked)
      ∧ verifies (testing (.unlock 1 6 good []) 6 ⟨[], ⟨9⟩, 8⟩ linked).copies.creds[(6 : Fin 8)].verifier goodKey = false
      ∧ alive (testing (.unlock 1 6 good []) 6 ⟨[], ⟨9⟩, 8⟩ linked).copies.watch.state = true :=
  ⟨testing_of _ _ _ _ rfl (by decide), by decide +kernel, by decide +kernel⟩

theorem witness_SucceedingTestResetsTheCounts :
    Succeeds (.unlock 1 0 good []) 0 goodKey (testing (.unlock 1 0 good []) 0 goodKey linked)
      ∧ Succeeds (.unlock 1 0 good []) 0 goodKey (testing (.unlock 1 0 good []) 0 goodKey (withWatch ⟨.erased, 9⟩ linked))
      ∧ Succeeds (.unbind 1 0 good) 0 goodKey (testing (.unbind 1 0 good) 0 goodKey (withWatch ⟨.erasing, 9⟩ linked))
      ∧ alive .erased = false ∧ alive .erasing = false
      ∧ Testing (.unlock 1 6 good []) 6 goodKey
        (testing (.unlock 1 6 good []) 6 goodKey (withWatch ⟨.alarmed, 200⟩ linked))
      ∧ verifies (testing (.unlock 1 6 good []) 6 goodKey (withWatch ⟨.alarmed, 200⟩ linked)).copies.creds[(6 : Fin 8)].verifier
        goodKey = true
      ∧ roleOf 6 = .user ∧ alive .alarmed = true ∧ roleOf 0 ≠ .user
      ∧ Succeeds (.reprovision 1 0 good) 0 goodKey (testing (.reprovision 1 0 good) 0 goodKey linked)
      ∧ Succeeds (.rekeyResume 1 0 good) 0 goodKey
        (testing (.rekeyResume 1 0 good) 0 goodKey (withWatch ⟨.alarmed, 200⟩ linked))
      ∧ Succeeds (.setPolicy 1 0 good []) 0 goodKey
        (testing (.setPolicy 1 0 good []) 0 goodKey (withWatch ⟨.wary, 100⟩ linked)) :=
  ⟨succeeds_of _ _ rfl (by decide), succeeds_of _ _ rfl (by decide), succeeds_of _ _ rfl (by decide), by decide, by decide,
    testing_of _ _ _ _ rfl (by decide), by decide +kernel, by decide, by decide, by decide,
    succeeds_of _ _ rfl (by decide), succeeds_of _ _ rfl (by decide), succeeds_of _ _ rfl (by decide)⟩

/-- The score falls by the relief of 32 and the watch leaves WARY; an OWNER in ALARMED settles it; and an UNLOCK takes
evidence only with the binding MISMATCHED or ABSENT. -/
theorem witness_SucceedingTestResetsTheCounts_watch :
    let wary := testing (.unbind 1 0 good) 0 goodKey (withWatch ⟨.wary, 70⟩ linked)
    let alarmed := testing (.unbind 1 0 good) 0 goodKey (withWatch ⟨.alarmed, 200⟩ linked)
    Succeeds (.unbind 1 0 good) 0 goodKey wary ∧ calm wary.copies.watch.state = true
      ∧ (after .derivationComplete wary).copies.watch = ⟨.settled, 38⟩
      ∧ Succeeds (.unbind 1 0 good) 0 goodKey alarmed ∧ alarmed.copies.watch.state = .alarmed ∧ roleOf 0 ≠ .user
      ∧ (after .derivationComplete alarmed).copies.watch = ⟨.settled, 0⟩
      ∧ (testing (.unlock 1 0 good []) 0 goodKey linked).watch.binding ≠ .mismatched
      ∧ (testing (.unlock 1 0 good []) 0 goodKey linked).watch.binding ≠ .absent
      ∧ (∀ id cb l, Instr.unbind 1 0 good ≠ .eraseAll id cb l) ∧ (∀ id cb l, Instr.unbind 1 0 good ≠ .clearIncidents id cb l) :=
  ⟨succeeds_of _ _ rfl (by decide), by decide +kernel, by decide +kernel, succeeds_of _ _ rfl (by decide), rfl, by decide,
    by decide +kernel, by decide +kernel, by decide +kernel, nofun, nofun⟩

/-- An answer waits for the write 7, and for the writes `l`. -/
def ready (lost : Bool) (l : List Nat) : State :=
  let s := withSec ⟨.unbind 1 0 good, lost, .answering .denied .empty, [], l, false⟩ owned
  { s with store := { s.store with active := some ⟨7, [.credentialUnit], .charged 1⟩ } }

theorem witness_StoreWriteCompletesAndTheTestFollows_answers :
    Between (ready false [7]) ∧ (ready false [7]).store.waits = [] ∧ (ready false [7]).cmd.plat = none
      ∧ (ready false [7]).store.active = some ⟨7, [.credentialUnit], .charged 1⟩
      ∧ (ready true [7]).cmd.sec = some ⟨.unbind 1 0 good, true, .answering .denied .empty, [], [7], false⟩
      ∧ (∃ i ∈ [7, 8], i ≠ 7)
      ∧ (ready false [7, 8]).cmd.sec = some ⟨.unbind 1 0 good, false, .answering .denied .empty, [], [7, 8], false⟩
      ∧ (ready false [7]).drive.up = true ∧ { ready false [7] with drive := State.reset.drive }.drive.up = false :=
  ⟨rfl, rfl, rfl, rfl, rfl, ⟨8, by decide, by decide⟩, rfl, rfl, rfl⟩

theorem witness_StoreWriteCompletesAndTheTestFollows :
    Between linked ∧ linked.store.waits = [] ∧ linked.cmd.plat = none ∧ linked.store.active = none
      ∧ Between busy ∧ busy.store.active = some ⟨1, [.credentialUnit], .charged 65535⟩ ∧ busy.cmd.sec = none
      ∧ Between charging ∧ charging.store.waits = [] ∧ charging.cmd.plat = none
      ∧ charging.store.active = some ⟨7, [.credentialUnit], .charged 1⟩
      ∧ charging.cmd.sec = some ⟨.eraseAll 1 0 good, false, .charging, [], [7], false⟩
      ∧ credentials (.eraseAll 1 0 good) = some (0, good)
      ∧ charging.copies.creds[(0 : Fin 8)].verifier = some ⟨goodKey, ⟨9⟩, 8⟩ :=
  ⟨rfl, rfl, rfl, rfl, rfl, rfl, rfl, rfl, rfl, rfl, rfl, rfl, by decide, by decide +kernel⟩

/-! ### The requests' effects -/

/-- Range 15 is LOCKED over [80, 880), and the OWNER holds a FULL entry for it. -/
def granted : State := withWrap 63 ⟨.slot 0, 15, .full, ⟨5⟩, ⟨⟨7⟩, .cred goodKey⟩⟩ (withRange 15 (sample 80 800) linked)

theorem granted_fresh (req : Instr) (i : Fin 64) (x : WrapEntry)
    (h : (testing req 0 goodKey granted).copies.wraps[i] = some x) :
    isStale (testing req 0 goodKey granted).copies x = false := by
  have f : ∀ i : Fin 64, granted.copies.wraps[i] = none
      ∨ granted.copies.wraps[i] = some ⟨.device, 0, .full, factorySalt, ⟨factoryRangeKey, .device factoryDeviceKey⟩⟩
      ∨ granted.copies.wraps[i] = some ⟨.slot 0, 15, .full, ⟨5⟩, ⟨⟨7⟩, .cred goodKey⟩⟩ := by decide +kernel
  have h' : granted.copies.wraps[i] = some x := h
  have k : isStale (testing req 0 goodKey granted).copies x = isStale granted.copies x := rfl
  rw [k]
  rcases f i with e | e | e <;> rw [e] at h' <;> cases h' <;> decide +kernel

def opening : State := testing (.unlock 1 0 good [15]) 0 goodKey granted

theorem witness_UnlockOpensAGrantedRange :
    Succeeds (.unlock 1 0 good [15]) 0 goodKey opening ∧ AtRest opening ∧ (15 : Byte).toNat < 16
      ∧ (∀ i x, opening.copies.wraps[(i : Fin 64)] = some x → isStale opening.copies x = false)
      ∧ freshEntry (.slot 0) (rangeIx 15) opening.copies
        = some ⟨.slot 0, 15, .full, ⟨5⟩, ⟨⟨7⟩, .cred goodKey⟩⟩
      ∧ rangeDefined opening.copies (rangeIx 15) = true
      ∧ opening.ranges[(15 : Fin 16)].run = .locked
      ∧ opening.copies.ranges[(15 : Fin 16)].current = some ⟨⟨6⟩, ⟨7⟩⟩
      ∧ rekeyOn 15 opening.copies = false ∧ opening.copies.ranges[(15 : Fin 16)].attributes.bindingRequired = false
      ∧ (emptySlots opening).head? = some 1 := by
  refine ⟨succeeds_of _ _ rfl (by decide), atRest_of _ granted atRest_linked, by decide, granted_fresh _, ?_⟩
  decide +kernel

/-- One slot is EMPTY. -/
def slotsTaken : State := { linked with slots := (Vector.replicate 18 (.live 0 factoryMediaKey 1)).set 17 .empty }

/-- Slot 0 holds FULL entries for ranges 0 and 15; range 15, over [80, 880), needs the binding where `bound` says so. -/
def several (bound : Bool) (b : Binding) (run : RangeRun) (under : CredKey) : State :=
  let rec15 : RangeRec := { sample 80 800 with attributes := ⟨false, bound, false⟩ }
  let s := withRun 15 run (withWrap 62 ⟨.slot 0, 0, .full, factorySalt, ⟨factoryRangeKey, .cred goodKey⟩⟩
    (withWrap 63 ⟨.slot 0, 15, .full, ⟨5⟩, ⟨⟨7⟩, .cred under⟩⟩ (withRange 15 rec15 linked)))
  testing (.unlock 1 0 good [15, 0, 3]) 0 goodKey { s with watch := { s.watch with binding := b } }

/-- The results of the UNLOCK of `several`. -/
def results (s : State) : Option (List (Fin 16 × Code)) :=
  match (after .derivationComplete s).cmd.sec.map SecJob.phase with
  | some (.answering .ok (.rangeResults l)) => some l
  | _ => none

theorem fresh_of (s : State) (h : ∀ i : Fin 64, (s.copies.wraps[i].all fun x => !isStale s.copies x) = true)
    (i : Fin 64) (x : WrapEntry) (e : s.copies.wraps[i] = some x) : isStale s.copies x = false := by
  have k := h i
  rw [e] at k
  simpa using k

theorem witness_UnlockOpensAGrantedRange_results :
    Succeeds (.unlock 1 0 good [15, 0, 3]) 0 goodKey (several true .absent .locked goodKey)
      ∧ AtRest (several true .absent .locked goodKey)
      ∧ (∀ i x, (several true .absent .locked goodKey).copies.wraps[(i : Fin 64)] = some x →
        isStale (several true .absent .locked goodKey).copies x = false)
      ∧ results (several true .absent .locked goodKey) = some [(0, .alreadyOpen), (3, .notGranted), (15, .boundElsewhere)]
      ∧ results (several true .unknown .locked goodKey) = some [(0, .alreadyOpen), (3, .notGranted), (15, .bindingPending)]
      ∧ results (several true .matched .locked goodKey) = some [(0, .alreadyOpen), (3, .notGranted), (15, .opened)]
      ∧ results (several false .absent .locked ⟨[], ⟨9⟩, 8⟩) = some [(0, .alreadyOpen), (3, .notGranted), (15, .denied)]
      ∧ results (several false .absent .erased goodKey) = some [(0, .alreadyOpen), (3, .notGranted), (15, .erased)]
      ∧ results (several false .absent (.closing ⟨.readWrite, ⟨7⟩, 1, none⟩ 2 []) goodKey)
        = some [(0, .alreadyOpen), (3, .notGranted), (15, .busyClosing)]
      ∧ results (several false .absent (.opened ⟨.readOnly, ⟨7⟩, 1, none⟩) goodKey)
        = some [(0, .alreadyOpen), (3, .notGranted), (15, .alreadyOpen)]
      ∧ results { several false .absent .locked goodKey with slots := Vector.replicate 18 (.live 0 factoryMediaKey 0) }
        = some [(0, .alreadyOpen), (3, .notGranted), (15, .noSlot)] :=
  ⟨succeeds_of _ _ rfl (by decide), atRest_of _ _ ⟨rfl, by decide, by decide, by decide⟩,
    fresh_of _ (by decide +kernel), by decide +kernel⟩

/-- Ranges 14 and 15 are LOCKED; range 14 needs the binding, which is ABSENT, and its evidence weighs `n`. -/
def elsewhere (n : Nat) : State :=
  let s := withWrap 61 ⟨.slot 0, 14, .full, ⟨5⟩, ⟨⟨7⟩, .cred goodKey⟩⟩
    (withRange 14 { sample 880 8 with attributes := ⟨false, true, false⟩ } granted)
  testing (.unlock 1 0 good [14, 15]) 0 goodKey { s with
    watch := { s.watch with binding := .absent }
    copies := { s.copies with policy := { Policy.default with
      eraseByScore := true, weights := #v[12, n, 48, 16, 40, 0, 0, 40, 0, 8, 24, 64, 128, 64] } } }

/-- R80: range 14 is BOUND_ELSEWHERE, and range 15 opens all the same; where the evidence starts an erase it is ERASED. -/
theorem witness_UnlockOpensAGrantedRange_elsewhere :
    Succeeds (.unlock 1 0 good [14, 15]) 0 goodKey (elsewhere 96) ∧ AtRest (elsewhere 96)
      ∧ (∀ i x, (elsewhere 96).copies.wraps[(i : Fin 64)] = some x → isStale (elsewhere 96).copies x = false)
      ∧ results (elsewhere 96) = some [(14, .boundElsewhere), (15, .opened)]
      ∧ (after .derivationComplete (elsewhere 96)).copies.watch = ⟨.wary, 96⟩
      ∧ results (elsewhere 160) = some [(14, .boundElsewhere), (15, .opened)]
      ∧ (after .derivationComplete (elsewhere 160)).copies.watch.state = .alarmed
      ∧ results (elsewhere 255) = some [(14, .boundElsewhere), (15, .erased)] :=
  ⟨succeeds_of _ _ rfl (by decide), atRest_of _ _ ⟨rfl, by decide, by decide, by decide⟩, fresh_of _ (by decide +kernel),
    by decide +kernel⟩

/-- Range 15 of `granted` is under rekey, up to `f`. -/
def regranted (st : RekeyState) (f : Nat) : State :=
  withRekey ⟨15, f, 0, st, 1⟩ (withRange 15 { sample 80 800 with next := some ⟨⟨8⟩, ⟨7⟩⟩ } granted)

theorem regranted_fresh (i : Fin 64) (x : WrapEntry)
    (h : (testing (.unlock 1 0 good [15]) 0 goodKey (regranted .paused 336)).copies.wraps[i] = some x) :
    isStale (testing (.unlock 1 0 good [15]) 0 goodKey (regranted .paused 336)).copies x = false :=
  fresh_of _ (by decide +kernel) i x h

theorem witness_UnlockOpensAGrantedRange_rekey :
    let s := testing (.unlock 1 0 good [15]) 0 goodKey (regranted .paused 336)
    Succeeds (.unlock 1 0 good [15]) 0 goodKey s ∧ AtRest s
      ∧ (∀ i x, s.copies.wraps[(i : Fin 64)] = some x → isStale s.copies x = false)
      ∧ freshEntry (.slot 0) (rangeIx 15) s.copies = some ⟨.slot 0, 15, .full, ⟨5⟩, ⟨⟨7⟩, .cred goodKey⟩⟩
      ∧ rangeDefined s.copies (rangeIx 15) = true ∧ s.ranges[(15 : Fin 16)].run = .locked
      ∧ s.copies.ranges[(15 : Fin 16)].current = some ⟨⟨6⟩, ⟨7⟩⟩
      ∧ s.copies.ranges[(15 : Fin 16)].next = some ⟨⟨8⟩, ⟨7⟩⟩ ∧ s.copies.rekey = some ⟨15, 336, 0, .paused, 1⟩
      ∧ s.copies.ranges[(15 : Fin 16)].attributes.bindingRequired = false
      ∧ (emptySlots s).take 2 = [1, 2] ∧ (emptySlots slotsTaken).length < 2 ∧ s.drive.up = true ∧ s.rekey.order = none
      ∧ s.rekey.intended = none ∧ s.rekey.completing = false ∧ (∀ w ∈ s.store.waits, w.job ≠ .rekeyWindow)
      ∧ (∀ (g : Fin 32) (x : Xfer), s.adm.table[g] = .admitted x → x.cls = .write →
        extentsOverlap x.extent ⟨336, 256⟩ = false) := by
  refine ⟨succeeds_of _ _ rfl (by decide), atRest_of _ (regranted .paused 336) atRest_linked, regranted_fresh,
    by decide +kernel, by decide +kernel, by decide +kernel, by decide +kernel, by decide +kernel, rfl, by decide +kernel,
    by decide +kernel, by decide +kernel, rfl, rfl, rfl, rfl, nofun, fun g x h => ?_⟩
  have f : ∀ g : Fin 32, (testing (.unlock 1 0 good [15]) 0 goodKey (regranted .paused 336)).adm.table[g] = .free := by
    decide +kernel
  rw [f g] at h
  cases h

theorem witness_CredentialsEnabledAndRemoved :
    AtRest (testing (.enableCredential 1 0 good 7) 0 goodKey linked)
      ∧ Succeeds (.enableCredential 1 0 good 7) 0 goodKey (testing (.enableCredential 1 0 good 7) 0 goodKey linked)
      ∧ (testing (.enableCredential 1 0 good 7) 0 goodKey linked).copies.creds[credIx 7].state = .empty
      ∧ (testing (.enableCredential 1 0 good 7) 0 goodKey
        (withCred 7 ⟨.disabled, none, 8⟩ linked)).copies.creds[credIx 7].state ≠ .empty
      ∧ Succeeds (.removeCredential 1 0 good 7) 0 goodKey
        (testing (.removeCredential 1 0 good 7) 0 goodKey (withCred 7 ⟨.active, none, 0⟩ linked))
      ∧ (testing (.removeCredential 1 0 good 7) 0 goodKey
        (withCred 7 ⟨.active, none, 0⟩ linked)).copies.creds[credIx 7].state ≠ .empty :=
  ⟨atRest_of _ linked atRest_linked, succeeds_of _ _ rfl (by decide), by decide +kernel, by decide +kernel,
    succeeds_of _ _ rfl (by decide), by decide +kernel⟩

/-- A GRANT of range 0 to the OWNER's own slot, at the end of its test. -/
def granting (range : Byte) : State := testing (.grant 1 0 good 0 range 1 []) 0 goodKey linked

theorem witness_EntriesTokenAndIncidentsAdministered :
    AtRest (granting 0) ∧ Succeeds (.grant 1 0 good 0 0 1 []) 0 goodKey (granting 0)
      ∧ holderOf 0 = .slot 0 ∧ holderOf 8 = .device ∧ (granting 0).copies.creds[(0 : Fin 8)].state ≠ .empty
      ∧ findWrap (holderOf 0) (rangeIx 0) (granting 0).copies = none
      ∧ (granting 0).ranges[rangeIx 0].run = .opened ⟨.readWrite, factoryRangeKey, 0, none⟩
      ∧ rangeDefined (granting 0).copies (rangeIx 0) = true ∧ wrapCount (granting 0).copies < 64
      ∧ freeWrap (granting 0).copies = some 1
      ∧ Succeeds (.grant 1 0 good 0 15 1 []) 0 goodKey (granting 15)
      ∧ findWrap (holderOf 0) (rangeIx 15) (granting 15).copies = none
      ∧ isOpen (granting 15).ranges[rangeIx 15].run = false
      ∧ (∀ i x, (granting 0).copies.wraps[(i : Fin 64)] = some x → isStale (granting 0).copies x = false)
      ∧ Succeeds (.revoke 1 0 good 8 0) 0 goodKey (testing (.revoke 1 0 good 8 0) 0 goodKey linked)
      ∧ Succeeds (.setRemoteToken 1 0 good []) 0 goodKey (testing (.setRemoteToken 1 0 good []) 0 goodKey linked)
      ∧ Succeeds (.readIncidents 1 0 good 23) 0 goodKey (testing (.readIncidents 1 0 good 23) 0 goodKey linked)
      ∧ Succeeds (.clearIncidents 1 0 good) 0 goodKey (testing (.clearIncidents 1 0 good) 0 goodKey linked) := by
  refine ⟨atRest_of _ linked atRest_linked, succeeds_of _ _ rfl (by decide), by decide, by decide, by decide +kernel,
    by decide +kernel, by decide +kernel, by decide +kernel, by decide +kernel, by decide +kernel,
    succeeds_of _ _ rfl (by decide), by decide +kernel, by decide +kernel, fresh_of _ (by decide +kernel),
    succeeds_of _ _ rfl (by decide), succeeds_of _ _ rfl (by decide), succeeds_of _ _ rfl (by decide),
    succeeds_of _ _ rfl (by decide)⟩

/-- A GRANT of READ access to range 0 to `target`, at the end of its test; its 64 records are in use where `full` says so.
-/
def grantingTo (target : Byte) (full : Bool) : State :=
  let e : WrapEntry := ⟨.slot 2, 0, .full, factorySalt, ⟨factoryRangeKey, .cred goodKey⟩⟩
  let s := if full = true then { linked with copies := { linked.copies with wraps := Vector.replicate 64 (some e) } } else linked
  testing (.grant 1 0 good target 0 1 good) 0 goodKey s

theorem witness_EntriesTokenAndIncidentsAdministered_refused :
    Succeeds (.grant 1 0 good 1 0 1 good) 0 goodKey (grantingTo 1 false) ∧ AtRest (grantingTo 1 false)
      ∧ (∀ i x, (grantingTo 1 false).copies.wraps[(i : Fin 64)] = some x → isStale (grantingTo 1 false).copies x = false)
      ∧ holderOf 1 = .slot 1 ∧ (grantingTo 1 false).copies.creds[(1 : Fin 8)].state = .empty
      ∧ Succeeds (.grant 1 0 good 0 0 1 good) 0 goodKey (grantingTo 0 true) ∧ AtRest (grantingTo 0 true)
      ∧ (∀ i x, (grantingTo 0 true).copies.wraps[(i : Fin 64)] = some x → isStale (grantingTo 0 true).copies x = false)
      ∧ findWrap (holderOf 0) 0 (grantingTo 0 true).copies = none ∧ 64 ≤ wrapCount (grantingTo 0 true).copies
      ∧ Succeeds (.grant 1 0 good 8 0 1 good) 0 goodKey (grantingTo 8 false)
      ∧ findWrap (holderOf 8) 0 (grantingTo 8 false).copies = some 0
      ∧ (grantingTo 8 false).copies.wraps[(0 : Fin 64)]
        = some ⟨.device, 0, .full, factorySalt, ⟨factoryRangeKey, .device factoryDeviceKey⟩⟩ :=
  ⟨succeeds_of _ _ rfl (by decide), atRest_of _ linked atRest_linked, fresh_of _ (by decide +kernel), by decide,
    by decide +kernel, succeeds_of _ _ rfl (by decide), atRest_of _ _ ⟨rfl, by decide, by decide, by decide⟩,
    fresh_of _ (by decide +kernel), by decide +kernel, by decide +kernel, succeeds_of _ _ rfl (by decide), by decide +kernel,
    by decide +kernel⟩

/-- A BIND's word has been kept, and its digest is stored. -/
def bound (w : BindingWord) : State :=
  { linked with
    watch := { linked.watch with lastWord := some w, binding := .matched }
    copies := { linked.copies with digest := some ⟨w⟩ } }

theorem witness_BindingStoredAndRemoved :
    AtRest (testing (.bindToPlatform 1 0 good) 0 goodKey linked)
      ∧ (testing (.bindToPlatform 1 0 good) 0 goodKey linked).cred.pendingSet = []
      ∧ Succeeds (.bindToPlatform 1 0 good) 0 goodKey (testing (.bindToPlatform 1 0 good) 0 goodKey linked)
      ∧ (testing (.bindToPlatform 1 0 good) 0 goodKey linked).watch.lastWord = none
      ∧ AtRest (testing (.bindToPlatform 1 0 good) 0 goodKey (bound 1))
      ∧ Succeeds (.bindToPlatform 1 0 good) 0 goodKey (testing (.bindToPlatform 1 0 good) 0 goodKey (bound 1))
      ∧ (testing (.bindToPlatform 1 0 good) 0 goodKey (bound 1)).watch.lastWord = some 1
      ∧ Succeeds (.unbind 1 0 good) 0 goodKey (testing (.unbind 1 0 good) 0 goodKey (bound 1))
      ∧ (testing (.unbind 1 0 good) 0 goodKey (bound 1)).copies.digest.isSome = true :=
  ⟨atRest_of _ linked atRest_linked, rfl, succeeds_of _ _ rfl (by decide), rfl, atRest_of _ (bound 1) atRest_linked,
    succeeds_of _ _ rfl (by decide), rfl, succeeds_of _ _ rfl (by decide), rfl⟩

/-- A DEFINE_RANGE of range 1, at the end of its test from `s`. -/
def defining (s : State) : State := testing (.defineRange 1 0 good 1 888 8 7) 0 goodKey s

/-- The wrap table with 63 entries of range 0. -/
def crowded : State :=
  { linked with copies := { linked.copies with
    wraps := (Vector.replicate 64 (some ⟨.device, 0, .full, factorySalt, ⟨factoryRangeKey, .device factoryDeviceKey⟩⟩)).set
      0 none } }

theorem witness_DefineRangeRenewsTheRange :
    Succeeds (.defineRange 1 0 good 1 888 8 7) 0 goodKey (defining touching) ∧ AtRest (defining touching)
      ∧ (rekeyOn 0 (defining (migrating 0)).copies || rekeyOn (rangeIx 1) (defining (migrating 0)).copies) = true
      ∧ (rekeyOn 0 (defining touching).copies || rekeyOn (rangeIx 1) (defining touching).copies) = false
      ∧ overlapsOther (rangeIx 1) ⟨880, 16⟩ (defining touching).copies = true
      ∧ overlapsOther (rangeIx 1) ⟨888, 8⟩ (defining touching).copies = false
      ∧ roomFor (rangeIx 1) (attributesOf 7).autoOpen (defining touching).copies = true
      ∧ Succeeds (.defineRange 1 0 good 1 888 8 7) 0 goodKey (defining crowded) ∧ AtRest (defining crowded)
      ∧ roomFor (rangeIx 1) (attributesOf 7).autoOpen (defining crowded).copies = false
      ∧ overlapsOther (rangeIx 1) ⟨888, 8⟩ (defining crowded).copies = false
      ∧ (defining touching).ranges[rangeIx 1].run = .locked ∧ (emptySlots (defining touching)).head? = some 1
      ∧ (∀ (g : Fin 32) x, (defining touching).adm.table[g] ≠ .admitted x)
      ∧ emptySlots (defining { touching with slots := Vector.replicate 18 (.live 0 factoryMediaKey 0) }) = [] := by
  refine ⟨succeeds_of _ _ rfl (by decide), atRest_of _ touching atRest_linked, by decide +kernel, by decide +kernel,
    by decide +kernel, by decide +kernel, by decide +kernel, succeeds_of _ _ rfl (by decide),
    atRest_of _ crowded atRest_linked, by decide +kernel, by decide +kernel, by decide +kernel, by decide +kernel,
    fun g x h => ?_, by decide +kernel⟩
  have f : (defining touching).adm.table[g] = .free := linked_table g
  rw [f] at h
  cases h

/-- `req`, whose second secret is derived under salt 10. -/
def second (req : Instr) : State :=
  { withSec ⟨req, false, .second, [goodKey], [], false⟩ granted with derive := ⟨some ⟨.security, good, ⟨10⟩, 8⟩, []⟩ }

theorem granted_wraps : ∀ i : Fin 64, granted.copies.wraps[i] = if i = 0 then
      some ⟨.device, 0, .full, factorySalt, ⟨factoryRangeKey, .device factoryDeviceKey⟩⟩
    else if i = 63 then some ⟨.slot 0, 15, .full, ⟨5⟩, ⟨⟨7⟩, .cred goodKey⟩⟩ else none := by decide +kernel

theorem granted_single (i k : Fin 64) (x y : WrapEntry) (hx : granted.copies.wraps[i] = some x)
    (hy : granted.copies.wraps[k] = some y) (h : x.holder = y.holder) (_ : x.range = y.range) : i = k := by
  rw [granted_wraps] at hx hy
  split at hx <;> split at hy <;> (try split at hx) <;> (try split at hy) <;> simp_all
  all_goals subst hx hy; simp at h

/-- TAKE_OWNERSHIP of `linked`, its derivation at the end. -/
def owning (w : WatchState) : State :=
  { withSec ⟨.takeOwnership 1 good, false, .second, [], [], false⟩ (withWatch ⟨w, 0⟩ linked) with
    derive := ⟨some ⟨.security, good, ⟨10⟩, 8⟩, []⟩ }

theorem witness_TakeOwnershipDerivesTheOwner_end :
    Between (owning .settled) ∧ (owning .settled).derive.job = some ⟨.security, good, ⟨10⟩, 8⟩
      ∧ (owning .settled).cmd.sec = some ⟨.takeOwnership 1 good, false, .second, [], [], false⟩
      ∧ alive (owning .settled).copies.watch.state = true ∧ alive (owning .erased).copies.watch.state = false
      ∧ (∀ r : Fin 16, findWrap (.slot 0) r (owning .settled).copies = none)
      ∧ (owning .settled).ranges[(0 : Fin 16)].run = .opened ⟨.readWrite, factoryRangeKey, 0, none⟩ :=
  ⟨rfl, rfl, rfl, by decide +kernel, by decide +kernel, by decide +kernel, by decide +kernel⟩

/-- GRANT of range 0 to slot 1, whose verifier was made from `v`, at the end of its second derivation. -/
def grantingSlot (v : CredKey) : State := withCred 1 ⟨.active, some ⟨v, ⟨10⟩, 8⟩, 0⟩ (second (.grant 1 0 good 1 0 1 good))

theorem witness_SecretsAreReplaced_grant :
    Between (grantingSlot ⟨good, ⟨10⟩, 8⟩) ∧ (grantingSlot ⟨good, ⟨10⟩, 8⟩).derive.job = some ⟨.security, good, ⟨10⟩, 8⟩
      ∧ (grantingSlot ⟨good, ⟨10⟩, 8⟩).cmd.sec
        = some ⟨.grant 1 0 good 1 0 1 good, false, .second, [goodKey], [], false⟩
      ∧ verifies (grantingSlot ⟨good, ⟨10⟩, 8⟩).copies.creds[credIx 1].verifier ⟨good, ⟨10⟩, 8⟩ = true
      ∧ verifies (grantingSlot ⟨[], ⟨10⟩, 8⟩).copies.creds[credIx 1].verifier ⟨good, ⟨10⟩, 8⟩ = false
      ∧ (grantingSlot ⟨good, ⟨10⟩, 8⟩).ranges[rangeIx 0].run = .opened ⟨.readWrite, factoryRangeKey, 0, none⟩
      ∧ findWrap (.slot (credIx 1)) (rangeIx 0) (grantingSlot ⟨good, ⟨10⟩, 8⟩).copies = none
      ∧ freeWrap (grantingSlot ⟨good, ⟨10⟩, 8⟩).copies = some 1 :=
  ⟨rfl, rfl, rfl, by decide +kernel, by decide +kernel, by decide +kernel, by decide +kernel, by decide +kernel⟩

/-- A GRANT of range 0 to slot 1 at the end of its test, and the same GRANT with its second derivation done where the
range has closed, where the table is full, and where slot 1 has an entry already. -/
theorem witness_SecretsAreReplaced_derived :
    let ask := testing (.grant 1 0 good 1 0 1 good) 0 goodKey (withCred 1 ⟨.active, some ⟨goodKey, ⟨10⟩, 8⟩, 0⟩ linked)
    let full : State := { grantingSlot ⟨good, ⟨10⟩, 8⟩ with copies := { crowded.copies with
      wraps := crowded.copies.wraps.set 0 crowded.copies.wraps[(1 : Fin 64)] } }
    let held := withWrap 9 ⟨.slot 1, 0, .full, factorySalt, ⟨factoryRangeKey, .cred goodKey⟩⟩ (grantingSlot ⟨good, ⟨10⟩, 8⟩)
    Succeeds (.grant 1 0 good 1 0 1 good) 0 goodKey ask ∧ AtRest ask ∧ ask.derive.waiting = []
      ∧ holderOf 1 = .slot 1 ∧ (1 : Fin 8) ≠ 0 ∧ ask.copies.creds[(1 : Fin 8)].state ≠ .empty
      ∧ ask.copies.creds[(1 : Fin 8)].verifier = some ⟨goodKey, ⟨10⟩, 8⟩
      ∧ (∀ i x, ask.copies.wraps[(i : Fin 64)] = some x → isStale ask.copies x = false)
      ∧ rangeDefined ask.copies 0 = true ∧ isOpen ask.ranges[(0 : Fin 16)].run = true ∧ wrapCount ask.copies < 64
      ∧ Succeeds (.setRemoteToken 1 0 good good) 0 goodKey (testing (.setRemoteToken 1 0 good good) 0 goodKey granted)
      ∧ isOpen (withRun 0 .locked (grantingSlot ⟨good, ⟨10⟩, 8⟩)).ranges[(0 : Fin 16)].run = false
      ∧ freeWrap full.copies = none ∧ findWrap (.slot 1) 0 full.copies = none
      ∧ (∀ i x, full.copies.wraps[(i : Fin 64)] = some x → isStale full.copies x = false)
      ∧ findWrap (.slot 1) 0 held.copies = some 9
      ∧ (∀ i x, held.copies.wraps[(i : Fin 64)] = some x → isStale held.copies x = false) :=
  ⟨succeeds_of _ _ rfl (by decide), atRest_of _ _ ⟨rfl, by decide, by decide, by decide⟩, rfl, by decide, by decide,
    by decide +kernel, by decide +kernel, fresh_of _ (by decide +kernel), by decide +kernel, by decide +kernel,
    by decide +kernel, succeeds_of _ _ rfl (by decide), by decide +kernel, by decide +kernel, by decide +kernel,
    fresh_of _ (by decide +kernel), by decide +kernel, fresh_of _ (by decide +kernel)⟩

theorem witness_SecretsAreReplaced :
    AtRest (testing (.changeSecret 1 0 good good) 0 goodKey granted)
      ∧ (testing (.changeSecret 1 0 good good) 0 goodKey granted).derive.waiting = []
      ∧ Succeeds (.changeSecret 1 0 good good) 0 goodKey (testing (.changeSecret 1 0 good good) 0 goodKey granted)
      ∧ Succeeds (.setSecret 1 0 good 7 good) 0 goodKey (testing (.setSecret 1 0 good 7 good) 0 goodKey granted)
      ∧ Between (second (.changeSecret 1 0 good good))
      ∧ (second (.changeSecret 1 0 good good)).derive.job = some ⟨.security, good, ⟨10⟩, 8⟩
      ∧ (second (.changeSecret 1 0 good good)).cmd.sec
        = some ⟨.changeSecret 1 0 good good, false, .second, [goodKey], [], false⟩
      ∧ (∀ i x, (second (.changeSecret 1 0 good good)).copies.wraps[(i : Fin 64)] = some x →
        isStale (second (.changeSecret 1 0 good good)).copies x = false)
      ∧ (∀ i k x y, (second (.changeSecret 1 0 good good)).copies.wraps[(i : Fin 64)] = some x →
        (second (.changeSecret 1 0 good good)).copies.wraps[(k : Fin 64)] = some y → x.holder = y.holder →
        x.range = y.range → i = k)
      ∧ (second (.setSecret 1 0 good 7 good)).cmd.sec
        = some ⟨.setSecret 1 0 good 7 good, false, .second, [goodKey], [], false⟩
      ∧ (second (.setRemoteToken 1 0 good good)).cmd.sec
        = some ⟨.setRemoteToken 1 0 good good, false, .second, [goodKey], [], false⟩ :=
  ⟨atRest_of _ granted atRest_linked, rfl, succeeds_of _ _ rfl (by decide), succeeds_of _ _ rfl (by decide), rfl, rfl, rfl,
    granted_fresh .sleep, granted_single, rfl, rfl⟩

theorem witness_RangesDeletedErasedAndRelabelled :
    AtRest (testing (.deleteRange 1 0 good 15) 0 goodKey granted)
      ∧ Succeeds (.deleteRange 1 0 good 15) 0 goodKey (testing (.deleteRange 1 0 good 15) 0 goodKey granted)
      ∧ rekeyBars (rangeIx 15) granted.copies = false ∧ rangeDefined granted.copies (rangeIx 15) = true
      ∧ rangeDefined granted.copies (rangeIx 1) = false ∧ rekeyBars (rangeIx 1) (migrating 0).copies = true
      ∧ Succeeds (.eraseRange 1 0 good 15) 0 goodKey (testing (.eraseRange 1 0 good 15) 0 goodKey granted)
      ∧ roomFor (rangeIx 15) granted.copies.ranges[rangeIx 15].attributes.autoOpen granted.copies = true
      ∧ roomFor (rangeIx 1) true crowded.copies = false
      ∧ Succeeds (.setRangeAttributes 1 0 good 15 6) 0 goodKey (testing (.setRangeAttributes 1 0 good 15 6) 0 goodKey granted)
      ∧ (∀ i x, (testing (.setRangeAttributes 1 0 good 15 6) 0 goodKey granted).copies.wraps[(i : Fin 64)] = some x →
        isStale (testing (.setRangeAttributes 1 0 good 15 6) 0 goodKey granted).copies x = false)
      ∧ (attributesOf 6).autoOpen = granted.copies.ranges[rangeIx 15].attributes.autoOpen :=
  ⟨atRest_of _ granted atRest_linked, succeeds_of _ _ rfl (by decide), by decide +kernel, by decide +kernel,
    by decide +kernel, by decide +kernel, succeeds_of _ _ rfl (by decide), by decide +kernel, by decide +kernel,
    succeeds_of _ _ rfl (by decide), granted_fresh _, by decide +kernel⟩

theorem witness_RangesDeletedErasedAndRelabelled_cuts :
    let s := testing (.eraseRange 1 0 good 0) 0 goodKey occupied
    Succeeds (.eraseRange 1 0 good 0) 0 goodKey s ∧ AtRest s ∧ rangeDefined s.copies (rangeIx 0) = true
      ∧ roomFor (rangeIx 0) true s.copies = true ∧ s.copies.ranges[rangeIx 0].attributes.autoOpen = true
      ∧ s.adm.table[(3 : Fin 32)] = .admitted reading ∧ admittedIn 0 (.admitted reading) = true
      ∧ s.ranges[(0 : Fin 16)].run = .opened ⟨.readWrite, factoryRangeKey, 0, none⟩
      ∧ s.slots[(0 : Fin 18)] = .live 0 factoryMediaKey 0
      ∧ heldBy granted.ranges[(15 : Fin 16)].run = none ∧ drained 15 granted = true ∧ rekeyOn 15 granted.copies = false
      ∧ (emptySlots granted).head? = some 1
      ∧ emptySlots { granted with slots := Vector.replicate 18 (.live 0 factoryMediaKey 0) } = []
      ∧ heldBy (withRun 15 (.opened ⟨.readWrite, ⟨7⟩, 1, none⟩) granted).ranges[(15 : Fin 16)].run
        = some ⟨.readWrite, ⟨7⟩, 1, none⟩ :=
  ⟨succeeds_of _ _ rfl (by decide), atRest_of _ occupied atRest_linked, by decide +kernel⟩

/-- ERASE_RANGE of range 1 with AUTO_OPEN when the wrap table holds 63 entries of others. -/
def crowdedErase : State :=
  testing (.eraseRange 1 0 good 1) 0 goodKey (withRange 1 { sample 80 800 with attributes := ⟨true, false, false⟩ } crowded)

theorem witness_RangesDeletedErasedAndRelabelled_full :
    Succeeds (.eraseRange 1 0 good 1) 0 goodKey crowdedErase ∧ AtRest crowdedErase
      ∧ rangeDefined crowdedErase.copies (rangeIx 1) = true
      ∧ roomFor (rangeIx 1) crowdedErase.copies.ranges[rangeIx 1].attributes.autoOpen crowdedErase.copies = false :=
  ⟨succeeds_of _ _ rfl (by decide), atRest_of _ (withRange 1 _ crowded) atRest_linked, by decide +kernel,
    by decide +kernel⟩

/-- SET_RANGE_ATTRIBUTES of range `b` to `attrs`, at the end of its test from `s`. -/
def relabelling (b attrs : Byte) (s : State) : State := testing (.setRangeAttributes 1 0 good b attrs) 0 goodKey s

theorem relabelling_fresh (b attrs : Byte) (i : Fin 64) (x : WrapEntry)
    (h : (relabelling b attrs linked).copies.wraps[i] = some x) : isStale (relabelling b attrs linked).copies x = false := by
  have f : ∀ i : Fin 64, linked.copies.wraps[i] = none
      ∨ linked.copies.wraps[i] = some ⟨.device, 0, .full, factorySalt, ⟨factoryRangeKey, .device factoryDeviceKey⟩⟩ := by
    decide +kernel
  have h' : linked.copies.wraps[i] = some x := h
  have k : isStale (relabelling b attrs linked).copies x = isStale linked.copies x := rfl
  rw [k]
  rcases f i with e | e <;> rw [e] at h' <;> cases h'
  decide +kernel

/-- Range 0 OPEN without AUTO_OPEN and without a DEVICE entry, or with a full table. -/
def unmarked (full : Bool) : State :=
  { linked with copies := { linked.copies with
    ranges := linked.copies.ranges.set 0 { linked.copies.ranges[(0 : Fin 16)] with attributes := ⟨false, false, false⟩ }
    wraps := Vector.replicate 64 (if full then some ⟨.slot 1, 0, .full, factorySalt, ⟨⟨1⟩, .cred goodKey⟩⟩ else none) } }

theorem witness_RangesDeletedErasedAndRelabelled_autoOpen :
    Succeeds (.setRangeAttributes 1 0 good 0 6) 0 goodKey (relabelling 0 6 linked) ∧ AtRest (relabelling 0 6 linked)
      ∧ (∀ i x, (relabelling 0 6 linked).copies.wraps[(i : Fin 64)] = some x →
        isStale (relabelling 0 6 linked).copies x = false)
      ∧ rangeDefined linked.copies (rangeIx 0) = true ∧ linked.copies.ranges[rangeIx 0].attributes.autoOpen = true
      ∧ (attributesOf 6).autoOpen = false ∧ (attributesOf 7).autoOpen = true
      ∧ Succeeds (.setRangeAttributes 1 0 good 0 7) 0 goodKey (relabelling 0 7 (unmarked false))
      ∧ (unmarked false).copies.ranges[rangeIx 0].attributes.autoOpen = false
      ∧ findWrap .device (rangeIx 0) (unmarked false).copies = none ∧ freeWrap (unmarked false).copies = some 0
      ∧ wrapCount (unmarked false).copies < 64 ∧ 64 ≤ wrapCount (unmarked true).copies
      ∧ findWrap .device (rangeIx 0) (unmarked true).copies = none
      ∧ (unmarked false).ranges[rangeIx 0].run = .opened ⟨.readWrite, factoryRangeKey, 0, none⟩
      ∧ isOpen (withRun 0 .locked (unmarked false)).ranges[rangeIx 0].run = false
      ∧ (findWrap .device (rangeIx 0)
        (withWrap 63 ⟨.device, 0, .read, factorySalt, ⟨⟨1⟩, .cred goodKey⟩⟩ (unmarked false)).copies).isSome = true :=
  ⟨succeeds_of _ _ rfl (by decide), atRest_of _ linked atRest_linked, relabelling_fresh 0 6, by decide +kernel,
    by decide +kernel, by decide, by decide, succeeds_of _ _ rfl (by decide), by decide +kernel, by decide +kernel,
    by decide +kernel, by decide +kernel, by decide +kernel, by decide +kernel, by decide +kernel, by decide +kernel,
    by decide +kernel⟩

def rekeying (s : State) : State := testing (.rekeyStart 1 0 good 0) 0 goodKey s

/-- Every key slot is taken. -/
def slotless : State := { linked with slots := Vector.replicate 18 (.live 0 factoryMediaKey 0) }

theorem witness_RekeyStartsAndResumes :
    AtRest (rekeying linked) ∧ Succeeds (.rekeyStart 1 0 good 0) 0 goodKey (rekeying linked)
      ∧ (∀ h, (rekeying (withRun 0 .locked linked)).ranges[rangeIx 0].run = .opened h → h.level = .readOnly)
      ∧ (rekeying linked).ranges[rangeIx 0].run = .opened ⟨.readWrite, factoryRangeKey, 0, none⟩
      ∧ (rekeying linked).copies.rekey = none ∧ (rekeying linked).rekey.completing = false
      ∧ (emptySlots (rekeying linked)).head? = some 1
      ∧ startFrontier (rekeying linked).copies (rangeIx 0) ≠ rangeEnd (rekeying linked).copies (rangeIx 0)
      ∧ emptySlots (rekeying slotless) = []
      ∧ Succeeds (.rekeyStart 1 0 good 0) 0 goodKey (rekeying (migrating 0)) ∧ AtRest (rekeying (migrating 0))
      ∧ (rekeying (migrating 0)).copies.rekey.isSome = true
      ∧ Succeeds (.rekeyResume 1 0 good) 0 goodKey (testing (.rekeyResume 1 0 good) 0 goodKey linked)
      ∧ (∀ k, (testing (.rekeyResume 1 0 good) 0 goodKey linked).copies.rekey = some k → k.state ≠ .faulted)
      ∧ (withRekey ⟨0, 0, 2, .faulted, 1⟩ linked).copies.rekey = some ⟨0, 0, 2, .faulted, 1⟩ := by
  refine ⟨atRest_of _ linked atRest_linked, succeeds_of _ _ rfl (by decide), ?_, by decide +kernel, rfl, rfl,
    by decide +kernel, by decide +kernel, by decide +kernel, succeeds_of _ _ rfl (by decide),
    atRest_of _ (migrating 0) atRest_linked, rfl, succeeds_of _ _ rfl (by decide), of_none rfl, rfl⟩
  intro h e
  have f : (rekeying (withRun 0 .locked linked)).ranges[rangeIx 0].run = .locked := by decide +kernel
  rw [f] at e
  cases e

/-- A SET_POLICY whose record is being written. -/
def policyWriting : State :=
  let s := withSec ⟨.setPolicy 1 0 good [], false, .policyWrite Policy.default, [], [7], false⟩ linked
  { s with store := { s.store with active := some ⟨7, [.credentialUnit], .policy Policy.default⟩ } }

/-- A new policy whose g_max and P have gone by: a check-in is missed and a decay step is due. -/
theorem witness_PolicyTakesEffectWhenWritten_due :
    let s : State := { policyWriting with watch := { linked.watch with
      supervision := .armed, checkin := 900, decay := some 600 } }
    Between s ∧ s.store.waits = [] ∧ s.cmd.plat = none
      ∧ s.store.active = some ⟨7, [.credentialUnit], .policy Policy.default⟩
      ∧ s.cmd.sec = some ⟨.setPolicy 1 0 good [], false, .policyWrite Policy.default, [], [7], false⟩
      ∧ s.watch.supervision = .armed ∧ Policy.default.gMax ≤ s.watch.checkin ∧ calm s.copies.watch.state = true
      ∧ s.watch.decay = some 600 ∧ 60 * Policy.default.decayPeriod ≤ 600
      ∧ (after .storeWriteComplete s).copies.watch = ⟨.settled, 40 - Policy.default.decayStep⟩ :=
  ⟨rfl, rfl, rfl, rfl, rfl, rfl, by decide, rfl, rfl, by decide, by decide +kernel⟩

theorem witness_PolicyTakesEffectWhenWritten :
    Succeeds (.setPolicy 1 0 good (List.replicate 42 1)) 0 goodKey
        (testing (.setPolicy 1 0 good (List.replicate 42 1)) 0 goodKey linked)
      ∧ AtRest (testing (.setPolicy 1 0 good (List.replicate 42 1)) 0 goodKey linked)
      ∧ Between policyWriting ∧ policyWriting.store.waits = [] ∧ policyWriting.cmd.plat = none
      ∧ policyWriting.store.active = some ⟨7, [.credentialUnit], .policy Policy.default⟩
      ∧ policyWriting.cmd.sec = some ⟨.setPolicy 1 0 good [], false, .policyWrite Policy.default, [], [7], false⟩
      ∧ policyWriting.drive.up = true ∧ { policyWriting with drive := { linked.drive with up := false } }.drive.up = false
      ∧ (after .storeWriteComplete policyWriting).cmd.sec = none :=
  ⟨succeeds_of _ _ rfl (by decide), atRest_of _ linked atRest_linked, rfl, rfl, rfl, rfl, rfl, rfl, rfl,
    by decide +kernel⟩

theorem witness_EraseAllStartsTheErase :
    Succeeds (.eraseAll 1 0 good) 0 goodKey (testing (.eraseAll 1 0 good) 0 goodKey linked)
      ∧ AtRest (testing (.eraseAll 1 0 good) 0 goodKey linked) :=
  ⟨succeeds_of _ _ rfl (by decide), atRest_of _ linked atRest_linked⟩

/-- ERASED after an erase of `touching`. -/
def wiped : State := withWatch ⟨.erased, 255⟩ touching

/-- No slot is held, and no range is OPEN. -/
def emptied (s : State) : State :=
  { s with slots := Vector.replicate 18 .empty, ranges := Vector.replicate 16 ⟨.erased, false⟩ }

/-- A REPROVISION of ranges 0 and 15 waits for its last write. -/
def reprovisioning : State :=
  let s := withSec ⟨.reprovision 1 0 good, false, .reprovisioning [0, 15], [], [7], false⟩ (emptied wiped)
  { s with store := { s.store with active := some ⟨7, [.eraseEngine], .journal none⟩ } }

/-- R170: while it waits a WRITE is refused ERASING; then the watch is SETTLED and the answer waits for its record. -/
theorem test_reprovision_settles :
    (after (.xferOpen 3 .write 0 1 0) reprovisioning).drive.outbox = [.xferRefuse 3 .erasing none]
      ∧ (after .storeWriteComplete reprovisioning).copies.watch = ⟨.settled, 0⟩
      ∧ ((after .storeWriteComplete reprovisioning).cmd.sec.map SecJob.phase)
        = some (.answering .ok (.rangeList [0, 15])) := by decide +kernel

theorem witness_ErasingEndsInErasedAndOpensNothing_reprovision :
    ReprovisionOk (withPending [.storeWriteComplete] reprovisioning)
      ∧ (∀ w ∈ (withPending [.storeWriteComplete] reprovisioning).store.waits, w.job ≠ .eraseEntered)
      ∧ step (withPending [.storeWriteComplete] reprovisioning) = .next (after .storeWriteComplete reprovisioning) :=
  ⟨fun _ _ _ _ => rfl, nofun, exec_after .storeWriteComplete reprovisioning (by decide +kernel)⟩

theorem witness_ReprovisionRenewsTheDrive :
    Succeeds (.reprovision 1 0 good) 0 goodKey (testing (.reprovision 1 0 good) 0 goodKey wiped)
      ∧ (testing (.reprovision 1 0 good) 0 goodKey wiped).copies.watch.state = .erased
      ∧ rangeDefined wiped.copies 15 = true ∧ rangeDefined wiped.copies 2 = false
      ∧ LinkTakes (testing (.reprovision 1 0 good) 0 goodKey wiped) ∧ XferClass.write ≠ .read
      ∧ (∀ k : Fin 18, (emptied wiped).slots[k] = .empty)
      ∧ (∀ r : Fin 16, heldBy (emptied wiped).ranges[r].run = none)
      ∧ Between reprovisioning ∧ reprovisioning.store.active = some ⟨7, [.eraseEngine], .journal none⟩
      ∧ reprovisioning.store.waits = [] ∧ reprovisioning.cmd.plat = none ∧ reprovisioning.copies.watch.state = .erased
      ∧ reprovisioning.cmd.sec = some ⟨.reprovision 1 0 good, false, .reprovisioning [0, 15], [], [7], false⟩ :=
  ⟨succeeds_of _ _ rfl (by decide), rfl, by decide +kernel, by decide +kernel, ⟨rfl, rfl, rfl, rfl⟩, by decide,
    by decide +kernel, by decide +kernel, rfl, rfl, rfl, rfl, rfl, rfl⟩

/-- From an empty wrap table, with AUTO_OPEN on ranges 0 and 15: a DEVICE entry follows the owner entry of each. -/
theorem witness_ReprovisionRenewsTheDrive_entries :
    let blank := withRange 15 { sample 880 8 with attributes := ⟨true, false, false⟩ } wiped
    let s := testing (.reprovision 1 0 good) 0 goodKey
      { blank with copies := { blank.copies with wraps := Vector.replicate 64 none } }
    Succeeds (.reprovision 1 0 good) 0 goodKey s ∧ s.copies.watch.state = .erased
      ∧ (∀ i : Fin 64, s.copies.wraps[i] = none) ∧ rangeDefined s.copies 15 = true
      ∧ s.copies.ranges[(15 : Fin 16)].attributes.autoOpen = true
      ∧ (((after .derivationComplete s).copies.wraps.toList.reduceOption.map fun e => (e.holder, e.range, e.access))
        = [(.slot 0, 0, .full), (.device, 0, .full), (.slot 0, 1, .full), (.slot 0, 15, .full), (.device, 15, .full)]) :=
  ⟨succeeds_of _ _ rfl (by decide), rfl, by decide +kernel, by decide +kernel, by decide +kernel, by decide +kernel⟩

/-! ### Closes, timers and watch lines -/

/-- Range 0 CLOSING at its deadline, with nothing admitted, or with `reading` admitted in it. -/
def closing (s : State) : State := withRun 0 (.closing ⟨.readWrite, factoryRangeKey, 0, none⟩ 0 []) s

theorem witness_ClosesCompleteAndExpire :
    Between (closing linked)
      ∧ (∀ h d ws, linked.ranges[(0 : Fin 16)].run ≠ .closing h d ws)
      ∧ (closing linked).ranges[(0 : Fin 16)].run = .closing ⟨.readWrite, factoryRangeKey, 0, none⟩ 0 []
      ∧ drained 0 (closing linked) = true ∧ rekeyOn 0 (closing linked).copies = false
      ∧ (closing linked).rekey.seen = none ∧ NoCloseAwaited (closing linked)
      ∧ Between (closing occupied) ∧ drained 0 (closing occupied) = false
      ∧ { linked with slots := linked.slots.set 17 (.draining 0 ⟨1⟩ 0) }.slots[(17 : Fin 18)] = .draining 0 ⟨1⟩ 0
      ∧ (∀ o m, linked.slots[(0 : Fin 18)] ≠ .draining o m 0)
      ∧ (withRun 0 (.closing ⟨.readWrite, factoryRangeKey, 0, none⟩ 1 []) occupied).ranges[(0 : Fin 16)].run
        = .closing ⟨.readWrite, factoryRangeKey, 0, none⟩ 1 [] := by
  refine ⟨rfl, fun h d ws => ?_, by decide +kernel, by decide +kernel, by decide +kernel, rfl, noClose_of rfl rfl, rfl,
    by decide +kernel, by decide +kernel, fun o m => ?_, by decide +kernel⟩
  · have f : linked.ranges[(0 : Fin 16)].run = .opened ⟨.readWrite, factoryRangeKey, 0, none⟩ := by decide +kernel
    rw [f]
    exact nofun
  · have f : linked.slots[(0 : Fin 18)] = .live 0 factoryMediaKey 0 := by decide +kernel
    rw [f]
    exact nofun

/-- Range 0 CLOSING and drained, a LOCK waiting, with a rekey record on it. -/
def lockEnding (st : RekeyState) : State :=
  withSec ⟨.lock 1 0, false, .closing, [], [], false⟩
    (withRekey ⟨0, 0, 0, st, 1⟩ (withRun 0 (.closing ⟨.readWrite, factoryRangeKey, 0, some 17⟩ 0 [.security]) linked))

theorem witness_ClosesCompleteAndExpire_rekey :
    Between (lockEnding .running) ∧ drained 0 (lockEnding .running) = true
      ∧ (lockEnding .running).ranges[(0 : Fin 16)].run
        = .closing ⟨.readWrite, factoryRangeKey, 0, some 17⟩ 0 [.security]
      ∧ (lockEnding .running).copies.rekey = some ⟨0, 0, 0, .running, 1⟩
      ∧ (lockEnding .paused).copies.rekey = some ⟨0, 0, 0, .paused, 1⟩
      ∧ (lockEnding .running).cmd.sec = some ⟨.lock 1 0, false, .closing, [], [], false⟩
      ∧ (∀ q : Fin 16, q ≠ 0 → .security ∉ waitersOf (lockEnding .running).ranges[q].run)
      ∧ (lockEnding .running).rekey.intended = none ∧ (lockEnding .running).drive.up = true :=
  ⟨rfl, by decide +kernel, by decide +kernel, rfl, rfl, rfl, by decide +kernel, rfl, rfl⟩

/-- Free attempts 3 after a count of 3; the steps of 16 and 17 past them; a base of 1 and a cap of 86400. -/
theorem witness_HoldoffLengthFollowsTheCount :
    3 ≤ Policy.default.freeAttempts ∧ Policy.default.freeAttempts < 4 ∧ 20 - Policy.default.freeAttempts - 1 < 17
      ∧ 17 ≤ 21 - Policy.default.freeAttempts - 1 ∧ Policy.default.freeAttempts < 21
      ∧ 1 ≤ { Policy.default with holdBase := 1, holdCap := 86400 }.holdBase
      ∧ { Policy.default with holdBase := 1, holdCap := 86400 }.holdCap ≤ 86400 := by decide

/-- The hold-off and the binding deadline at 0, a part still UNKNOWN, supervision WAITING, decay `n` seconds on. -/
def expiring (n : Nat) : State :=
  { linked with
    cred := { linked.cred with holdoff := some 0 }
    watch := { linked.watch with binding := .unknown, deadline := some 0, supervision := .waiting, decay := some n } }

/-- Supervision ARMED, `n` seconds after the last check-in. -/
def checkedIn (n : Nat) : State := { linked with watch := { linked.watch with supervision := .armed, checkin := n } }

theorem witness_TimersExpire :
    Between linked ∧ linked.cred.holdoff ≠ some 0 ∧ Between (expiring 0) ∧ (expiring 0).cred.holdoff = some 0
      ∧ { linked with cred := { linked.cred with holdoff := some 1 } }.cred.holdoff ≠ some 0
      ∧ { linked with watch := { linked.watch with deadline := some 1 } }.watch.deadline ≠ some 0
      ∧ (expiring 0).watch.deadline = some 0 ∧ (expiring 0).watch.binding = .unknown
      ∧ linked.watch.binding ≠ .unknown ∧ linked.watch.supervision ≠ .armed
      ∧ (checkedIn 899).watch.checkin < (checkedIn 899).copies.policy.gMax
      ∧ (checkedIn 900).watch.supervision = .armed ∧ (checkedIn 900).copies.policy.gMax ≤ (checkedIn 900).watch.checkin
      ∧ (expiring 599).watch.decay = some 599 ∧ 599 < 60 * (expiring 599).copies.policy.decayPeriod
      ∧ (expiring 600).watch.decay = some 600 ∧ 60 * (expiring 600).copies.policy.decayPeriod ≤ 600
      ∧ calm (expiring 600).copies.watch.state = true :=
  ⟨rfl, by decide, rfl, rfl, by decide, by decide, rfl, rfl, by decide +kernel, by decide +kernel, by decide +kernel, rfl,
    by decide +kernel, rfl, by decide +kernel, rfl, by decide +kernel, by decide +kernel⟩

theorem witness_WatchLineEdgesAreJudged :
    Between switch ∧ switch.phase = .running
      ∧ switch.watch.levels[(2 : Fin 4)] = false ∧ switch.copies.policy.lineModes[(2 : Fin 4)] = .rise
      ∧ switch.watch.holdDowns[(2 : Fin 4)] = none
      ∧ switch.watch.levels[(3 : Fin 4)] ≠ true ∧ switch.copies.policy.lineModes[(3 : Fin 4)] = .ignore
      ∧ { switch with watch := { switch.watch with
        holdDowns := switch.watch.holdDowns.set 2 (some 0) } }.watch.holdDowns[(2 : Fin 4)].isSome = true
      ∧ { switch with watch := { switch.watch with
        holdDowns := switch.watch.holdDowns.set 2 (some 0) } }.watch.holdDowns[(2 : Fin 4)] = some 0
      ∧ { switch with watch := { switch.watch with
        holdDowns := switch.watch.holdDowns.set 2 (some 1) } }.watch.holdDowns[(2 : Fin 4)] ≠ some 0 :=
  ⟨rfl, rfl, by decide +kernel⟩

/-! ### The platform channel and power -/

theorem witness_CommandsTurnedAwayAtTheChannels_messages :
    messageCode (.remoteErase (List.replicate 7 0)) = some 0x06 ∧ Between linked
      ∧ { linked with platform := { linked.platform with up := false } }.platform.up = false
      ∧ linked.platform.up = true
      ∧ (withPlat ⟨0x03, false, .closing, [], false⟩ linked).cmd.plat.isSome = true
      ∧ MessageTaken linked ∧ messageCode (.platformMalformedMessage 0x0A) = some 0x0A
      ∧ secretFits (List.replicate 7 0) = false ∧ secretFits (List.replicate 65 0) = false
      ∧ 1024 ≤ (1024 : BitVec 16).toNat :=
  ⟨rfl, rfl, rfl, rfl, rfl, messageTaken_linked, rfl, by decide, by decide, by decide⟩

theorem witness_BindJudgesTheWord :
    MessageTaken linked ∧ linked.copies.digest = none ∧ MessageTaken (bound 1)
      ∧ (bound 1).copies.digest = some ⟨1⟩ ∧ (bound 1).cred.pendingSet = [] ∧ (⟨1⟩ : BindingDigest) ≠ ⟨2⟩
      ∧ (bound 1).watch.binding = .matched
      ∧ (withRange 0 { sample 0 0 with attributes := ⟨false, true, false⟩ }
        (bound 1)).copies.ranges[(0 : Fin 16)].attributes.bindingRequired = true :=
  ⟨messageTaken_linked, rfl, ⟨rfl, rfl, rfl⟩, rfl, rfl, by decide, rfl, by decide +kernel⟩

/-- Supervision stands at `v`, `n` seconds after the last check-in, with `bound 1`'s digest. -/
def supervised (v : Supervision) (n : Nat) : State :=
  { bound 1 with watch := { (bound 1).watch with supervision := v, checkin := n } }

theorem witness_CheckinJudgedBySupervision :
    MessageTaken (supervised .off 0) ∧ (supervised .off 0).watch.supervision = .off
      ∧ MessageTaken (supervised .waiting 0) ∧ (supervised .waiting 0).watch.supervision = .waiting
      ∧ (supervised .waiting 0).copies.digest = some ⟨1⟩
      ∧ ¬((supervised .waiting 0).watch.binding = .unbound ∨ (supervised .waiting 0).copies.digest = some ⟨2⟩)
      ∧ MessageTaken (supervised .armed 59)
      ∧ (supervised .armed 59).watch.checkin < (supervised .armed 59).copies.policy.gMin
      ∧ MessageTaken (supervised .armed 60)
      ∧ (supervised .armed 60).copies.policy.gMin ≤ (supervised .armed 60).watch.checkin :=
  ⟨⟨rfl, rfl, rfl⟩, rfl, ⟨rfl, rfl, rfl⟩, rfl, rfl, by decide +kernel, ⟨rfl, rfl, rfl⟩, by decide +kernel,
    ⟨rfl, rfl, rfl⟩, by decide +kernel⟩

def sleeping : State := { linked with watch := { linked.watch with sleep := .asleep, supervision := .suspended } }

theorem witness_SleepAndWakeSuspendSupervision :
    MessageTaken linked ∧ linked.copies.watch.state ≠ .erasing ∧ linked.watch.sleep = .awake
      ∧ (∀ r : Fin 16, linked.copies.ranges[r].attributes.lockOnSleep = false) ∧ awaited .sleep linked = false
      ∧ NoCloseAwaited linked
      ∧ (withWatch ⟨.erasing, 0⟩ linked).copies.watch.state = .erasing ∧ MessageTaken (withWatch ⟨.erasing, 0⟩ linked)
      ∧ MessageTaken sleeping ∧ sleeping.watch.sleep = .asleep
      ∧ (∀ r : Fin 16, sleeping.ranges[r].sleepMark = false)
      ∧ (withRange 0 { sample 0 0 with attributes := ⟨true, false, true⟩ }
        occupied).copies.ranges[(0 : Fin 16)].attributes.lockOnSleep = true
      ∧ MessageTaken occupied ∧ occupied.watch.sleep = .awake
      ∧ occupied.ranges[(0 : Fin 16)].run = .opened ⟨.readWrite, factoryRangeKey, 0, none⟩
      ∧ drained 0 occupied = false :=
  ⟨messageTaken_linked, by decide +kernel, rfl, by decide +kernel, by decide +kernel, noClose_linked, rfl,
    ⟨rfl, rfl, rfl⟩, ⟨rfl, rfl, rfl⟩, rfl, by decide +kernel, by decide +kernel, ⟨rfl, rfl, rfl⟩, rfl, by decide +kernel,
    by decide +kernel⟩

theorem witness_AlertGivesEvidence :
    MessageTaken linked ∧ 3 < (4 : Byte).toNat ∧ (3 : Byte).toNat = (3 : Fin 4) := ⟨messageTaken_linked, by decide, rfl⟩

/-- A token is set, and `v` is what its verifier was made from. -/
def tokened (v : CredKey) : State := { linked with copies := { linked.copies with token := some ⟨v, ⟨9⟩, 8⟩ } }

/-- The test of a token of `good`, at its end. -/
def tokenTest (v : CredKey) : State :=
  { withPlat ⟨0x06, false, .token ⟨v, ⟨9⟩, 8⟩, [], false⟩ (tokened v) with
    derive := ⟨some ⟨.platform, good, ⟨9⟩, 8⟩, []⟩ }

theorem witness_RemoteEraseTestsItsToken :
    MessageTaken linked ∧ 8 ≤ good.length ∧ good.length ≤ 64 ∧ linked.copies.token = none
      ∧ MessageTaken (tokened goodKey) ∧ (tokened goodKey).copies.token = some ⟨goodKey, ⟨9⟩, 8⟩
      ∧ alive (tokened goodKey).copies.watch.state = true
      ∧ alive (withWatch ⟨.erased, 0⟩ (tokened goodKey)).copies.watch.state = false
      ∧ Between (tokenTest goodKey) ∧ (tokenTest goodKey).derive.job = some ⟨.platform, good, ⟨9⟩, 8⟩
      ∧ (tokenTest goodKey).cmd.plat = some ⟨0x06, false, .token ⟨goodKey, ⟨9⟩, 8⟩, [], false⟩
      ∧ alive (tokenTest goodKey).copies.watch.state = true ∧ goodKey = derived ⟨.platform, good, ⟨9⟩, 8⟩
      ∧ (⟨[], ⟨9⟩, 8⟩ : CredKey) ≠ derived ⟨.platform, good, ⟨9⟩, 8⟩ :=
  ⟨messageTaken_linked, by decide, by decide, rfl, ⟨rfl, rfl, rfl⟩, rfl, by decide +kernel, by decide +kernel, rfl, rfl,
    rfl, by decide +kernel, rfl, by decide⟩

def buffered (b : PlatAnswer) : State := { linked with platform := { linked.platform with buffer := some b } }

theorem witness_PlatformFetchMaskAndRead :
    MessageTaken linked ∧ (0x3FF : BitVec 16).toNat < 1024
      ∧ { linked with platform := { linked.platform with up := false } }.platform.up = false
      ∧ linked.platform.up = true ∧ Between (buffered .fetch) ∧ (buffered .fetch).platform.buffer = some .fetch
      ∧ (buffered (.answer 4 .ok .empty)).platform.buffer = some (.answer 4 .ok .empty)
      ∧ linked.platform.buffer = none ∧ linked.cmd.plat = none
      ∧ (withPlat ⟨3, false, .closing, [], false⟩ linked).cmd.plat = some ⟨3, false, .closing, [], false⟩ :=
  ⟨messageTaken_linked, by decide, rfl, rfl, rfl, rfl, rfl, rfl, rfl, rfl⟩

theorem witness_PlatformLinkResetDropsTheAnswer :
    Between (withPlat ⟨3, false, .closing, [], false⟩ linked)
      ∧ (withPlat ⟨3, true, .closing, [], false⟩ linked).cmd.plat.isSome = true
      ∧ (withPlat ⟨3, true, .closing, [], false⟩ linked).platform.up = true ∧ messageCode .wake = some 0x04 :=
  ⟨rfl, rfl, rfl, rfl⟩

/-- Range 15 is LOCKED with AUTO_OPEN and a DEVICE entry: asleep with its mark set, and alone in the pending set. -/
def waking (bindingRequired : Bool) : State :=
  let s := withWrap 63 ⟨.device, 15, .read, ⟨5⟩, ⟨⟨7⟩, .device linked.deviceKey⟩⟩
    (withRange 15 { sample 80 800 with attributes := ⟨true, bindingRequired, true⟩ } linked)
  { s with
    ranges := s.ranges.set 15 ⟨.locked, true⟩
    cred := { s.cred with pendingSet := [15] }
    watch := { s.watch with sleep := .asleep, binding := .unknown }
    copies := { s.copies with digest := some ⟨1⟩ } }

theorem witness_AutoOpenAndPending :
    rangeDefined (waking true).copies 15 = true ∧ (waking true).copies.ranges[(15 : Fin 16)].attributes.autoOpen = true
      ∧ (waking true).ranges[(15 : Fin 16)].run = .locked
      ∧ freshEntry .device 15 (waking true).copies = some ⟨.device, 15, .read, ⟨5⟩, ⟨⟨7⟩, .device linked.deviceKey⟩⟩
      ∧ (waking true).copies.ranges[(15 : Fin 16)].current = some ⟨⟨6⟩, ⟨7⟩⟩ ∧ rekeyOn 15 (waking true).copies = false
      ∧ MessageTaken (waking true) ∧ (waking true).watch.sleep = .asleep
      ∧ (∀ q : Fin 16, (waking true).ranges[q].sleepMark = decide (q = 15))
      ∧ calm (waking true).copies.watch.state = true ∧ calm (withWatch ⟨.alarmed, 160⟩ (waking true)).copies.watch.state = false
      ∧ (emptySlots (waking true)).head? = some 1
      ∧ emptySlots { waking true with slots := Vector.replicate 18 (.live 0 factoryMediaKey 0) } = []
      ∧ (waking true).copies.ranges[(15 : Fin 16)].attributes.bindingRequired = true
      ∧ (waking false).copies.ranges[(15 : Fin 16)].attributes.bindingRequired = false
      ∧ (waking true).watch.binding ≠ .matched ∧ (waking true).watch.binding ≠ .unbound
      ∧ (waking true).cred.pendingSet = [15] ∧ (waking true).copies.digest = some ⟨1⟩
      ∧ Succeeds (.unbind 1 0 good) 0 goodKey (testing (.unbind 1 0 good) 0 goodKey (waking true))
      ∧ AtRest (testing (.unbind 1 0 good) 0 goodKey (waking true)) :=
  ⟨by decide +kernel, by decide +kernel, by decide +kernel, by decide +kernel, by decide +kernel, by decide +kernel,
    ⟨rfl, rfl, rfl⟩, rfl, by decide +kernel, by decide +kernel, by decide +kernel, by decide +kernel, by decide +kernel,
    by decide +kernel, by decide +kernel, by decide, by decide, rfl, rfl, succeeds_of _ _ rfl (by decide),
    atRest_of _ (waking true) atRest_linked⟩

/-- A part off, whose store holds an erase at step `k` with its frontier at `f`. -/
def interrupted (k f : Nat) : State :=
  { State.reset with store := { State.reset.store with nv := { State.reset.store.nv with
    watch := ⟨.erasing, 240⟩, journal := some ⟨.owner, k, f, [], none⟩ } } }

theorem witness_ColdStartLoadsTheRecords :
    factoryLost [] = false ∧ factoryLost [.range 15 ⟨true, some ⟨880, 8⟩, ⟨true, false, false⟩, 65535, ⟨5⟩⟩] = false
      ∧ factoryLost [.eraseJournal, .wrapEntry 63, .credential 7] = false
      ∧ alive (after (.coldStart [] 0 none) State.reset).copies.watch.state = true
      ∧ calm (after (.coldStart [] 0 none) State.reset).copies.watch.state = true
      ∧ (interrupted 3 0).store.nv.journal = some ⟨.owner, 3, 0, [], none⟩
      ∧ (interrupted 4 2048).store.nv.journal = some ⟨.owner, 4, 2048, [], none⟩
      ∧ 2048 < (interrupted 4 2048).store.nv.factory.capacity
      ∧ (interrupted 4 (2 ^ 15)).store.nv.factory.capacity ≤ 2 ^ 15
      ∧ (interrupted 5 (2 ^ 15)).store.nv.journal = some ⟨.owner, 5, 2 ^ 15, [], none⟩ :=
  ⟨by decide, by decide, by decide, by decide +kernel, by decide +kernel, rfl, rfl, by decide +kernel, by decide +kernel,
    rfl⟩

theorem witness_ColdStartStartsThePart :
    factoryLost [.policy, .factoryCopy true] = false ∧ factoryLost [.factoryCopy false, .factoryCopy true] = true := by
  decide

end Sys2Proof.Tests
end

