-- ==== Sys2Proof/Proofs/Frame.lean ====
section
/-! PROOF. What an operation leaves unchanged, said once for every operation: `Frame L s t` says that between `s` and
`t` nothing but the fields of `L` has changed. Frames compose, so each operation's frame is that of the operations it
is made of. -/

-- As in the tests: each theorem that waits for the kernel in parallel would keep a thread.
set_option Elab.async false

namespace Sys2Proof.Machine

/-! ## Fields -/

/-- A part of the state that an operation can change by itself. `marks` are the attention lines and the number of the
next notice, `sensors` all of the Theft Watch's volatile state but the decay timer, `scrubMarks` the retry counts and
done marks of a scrub, `requests` the writes asked for and not completed; those that begin with `c` are working copies. -/
inductive Field where
  | phase | up | units | inbound | outbox | lastSent | platUp | buffer | lastRead | table | hold | ranges | slots
  | holdoff | pendingSet | derive | order | fence | intended | counter | seen | completing
  | orders | scrubMarks | starting | stopping | decay | sensors
  | sec | plat | secQueue | platQueue | masks | marks | uptime
  | cFactory | cRanges | cCreds | cWraps | cCharged | cPolicy | cDigest | cToken | cWatch | cRekey | cJournal
  | cIncidents | cBoot | nv | requests | waits | draws
  deriving DecidableEq

/-- The state that has the fields of `L` from `t` and all others from `s`. -/
def overlay (L : List Field) (s t : State) : State :=
  { phase := if .phase ∈ L then t.phase else s.phase
    drive :=
      { up := if .up ∈ L then t.drive.up else s.drive.up
        units := if .units ∈ L then t.drive.units else s.drive.units
        inbound := if .inbound ∈ L then t.drive.inbound else s.drive.inbound
        outbox := if .outbox ∈ L then t.drive.outbox else s.drive.outbox
        lastSent := if .lastSent ∈ L then t.drive.lastSent else s.drive.lastSent }
    platform :=
      { up := if .platUp ∈ L then t.platform.up else s.platform.up
        buffer := if .buffer ∈ L then t.platform.buffer else s.platform.buffer
        lastRead := if .lastRead ∈ L then t.platform.lastRead else s.platform.lastRead }
    adm :=
      { table := if .table ∈ L then t.adm.table else s.adm.table
        hold := if .hold ∈ L then t.adm.hold else s.adm.hold }
    ranges := if .ranges ∈ L then t.ranges else s.ranges
    slots := if .slots ∈ L then t.slots else s.slots
    cred :=
      { holdoff := if .holdoff ∈ L then t.cred.holdoff else s.cred.holdoff
        pendingSet := if .pendingSet ∈ L then t.cred.pendingSet else s.cred.pendingSet }
    derive := if .derive ∈ L then t.derive else s.derive
    rekey :=
      { order := if .order ∈ L then t.rekey.order else s.rekey.order
        fence := if .fence ∈ L then t.rekey.fence else s.rekey.fence
        intended := if .intended ∈ L then t.rekey.intended else s.rekey.intended
        counter := if .counter ∈ L then t.rekey.counter else s.rekey.counter
        seen := if .seen ∈ L then t.rekey.seen else s.rekey.seen
        completing := if .completing ∈ L then t.rekey.completing else s.rekey.completing }
    erase :=
      { orders := if .orders ∈ L then t.erase.orders else s.erase.orders
        retries := if .scrubMarks ∈ L then t.erase.retries else s.erase.retries
        done := if .scrubMarks ∈ L then t.erase.done else s.erase.done
        starting := if .starting ∈ L then t.erase.starting else s.erase.starting
        stopping := if .stopping ∈ L then t.erase.stopping else s.erase.stopping }
    watch :=
      { binding := if .sensors ∈ L then t.watch.binding else s.watch.binding
        lastWord := if .sensors ∈ L then t.watch.lastWord else s.watch.lastWord
        deadline := if .sensors ∈ L then t.watch.deadline else s.watch.deadline
        supervision := if .sensors ∈ L then t.watch.supervision else s.watch.supervision
        checkin := if .sensors ∈ L then t.watch.checkin else s.watch.checkin
        sleep := if .sensors ∈ L then t.watch.sleep else s.watch.sleep
        decay := if .decay ∈ L then t.watch.decay else s.watch.decay
        levels := if .sensors ∈ L then t.watch.levels else s.watch.levels
        holdDowns := if .sensors ∈ L then t.watch.holdDowns else s.watch.holdDowns }
    cmd :=
      { sec := if .sec ∈ L then t.cmd.sec else s.cmd.sec
        plat := if .plat ∈ L then t.cmd.plat else s.cmd.plat
        secQueue := if .secQueue ∈ L then t.cmd.secQueue else s.cmd.secQueue
        platQueue := if .platQueue ∈ L then t.cmd.platQueue else s.cmd.platQueue
        secMask := if .masks ∈ L then t.cmd.secMask else s.cmd.secMask
        platMask := if .masks ∈ L then t.cmd.platMask else s.cmd.platMask
        secAttn := if .marks ∈ L then t.cmd.secAttn else s.cmd.secAttn
        platAttn := if .marks ∈ L then t.cmd.platAttn else s.cmd.platAttn
        seq := if .marks ∈ L then t.cmd.seq else s.cmd.seq }
    uptime := if .uptime ∈ L then t.uptime else s.uptime
    copies :=
      { factory := if .cFactory ∈ L then t.copies.factory else s.copies.factory
        ranges := if .cRanges ∈ L then t.copies.ranges else s.copies.ranges
        creds := if .cCreds ∈ L then t.copies.creds else s.copies.creds
        wraps := if .cWraps ∈ L then t.copies.wraps else s.copies.wraps
        charged := if .cCharged ∈ L then t.copies.charged else s.copies.charged
        policy := if .cPolicy ∈ L then t.copies.policy else s.copies.policy
        digest := if .cDigest ∈ L then t.copies.digest else s.copies.digest
        token := if .cToken ∈ L then t.copies.token else s.copies.token
        watch := if .cWatch ∈ L then t.copies.watch else s.copies.watch
        rekey := if .cRekey ∈ L then t.copies.rekey else s.copies.rekey
        journal := if .cJournal ∈ L then t.copies.journal else s.copies.journal
        incidents := if .cIncidents ∈ L then t.copies.incidents else s.copies.incidents
        boot := if .cBoot ∈ L then t.copies.boot else s.copies.boot }
    store :=
      { nv := if .nv ∈ L then t.store.nv else s.store.nv
        active := if .requests ∈ L then t.store.active else s.store.active
        queue := if .requests ∈ L then t.store.queue else s.store.queue
        nextId := if .requests ∈ L then t.store.nextId else s.store.nextId
        touched := if .requests ∈ L then t.store.touched else s.store.touched
        waits := if .waits ∈ L then t.store.waits else s.store.waits }
    draws := if .draws ∈ L then t.draws else s.draws
    deviceKey := s.deviceKey
    pending := s.pending }

/-- Between `s` and `t` nothing but the fields of `L` has changed. The queue of commands, the device key and the stored
factory record are no fields, and never change; the count of draws never falls (R6, R7, R186). -/
structure Frame (L : List Field) (s t : State) : Prop where
  eq : overlay L s t = t
  factory : t.store.nv.factory = s.store.nv.factory
  draws_le : s.draws ≤ t.draws

/-- Choosing twice by one test is choosing once. -/
theorem overlay_overlay (L : List Field) (s t u : State) : overlay L (overlay L s t) u = overlay L s u := by
  have once : ∀ {α : Type} (p : Prop) [Decidable p] (a b c : α),
      (if p then a else if p then b else c) = if p then a else c := by
    intro α p _ a b c
    split <;> rfl
  simp only [overlay, once]

/-- A longer list chooses no less. -/
theorem overlay_mono {L M : List Field} (h : L ⊆ M) (s t : State) : overlay M s (overlay L s t) = overlay L s t := by
  have wider : ∀ {α : Type} (f : Field) (a b : α),
      (if f ∈ M then (if f ∈ L then a else b) else b) = if f ∈ L then a else b := by
    intro α f a b
    by_cases hf : f ∈ L
    · simp [hf, h hf]
    · simp [hf]
  simp only [overlay, wider]

namespace Frame

variable {L M N : List Field} {s t u : State}

theorem refl (L : List Field) (s : State) : Frame L s s :=
  ⟨by simp [overlay], rfl, le_rfl⟩

theorem trans (h : Frame L s t) (k : Frame L t u) : Frame L s u :=
  ⟨(overlay_overlay L s t u).symm.trans (by rw [h.eq, k.eq]), k.factory.trans h.factory, h.draws_le.trans k.draws_le⟩

theorem mono (h : Frame L s t) (hm : L ⊆ M) : Frame M s t :=
  ⟨by rw [← h.eq, overlay_mono hm], h.factory, h.draws_le⟩

/-- One operation after another. -/
theorem andThen (h : Frame L s t) (k : Frame M t u) (hl : L ⊆ N := by decide +kernel) (hm : M ⊆ N := by decide +kernel) :
    Frame N s u :=
  (h.mono hl).trans (k.mono hm)

/-- One operation before another. -/
theorem after (k : Frame M t u) (h : Frame L s t) (hl : L ⊆ N := by decide +kernel) (hm : M ⊆ N := by decide +kernel) : Frame N s u :=
  h.andThen k hl hm

/-- An operation that changes some of the fields. -/
theorem within (h : Frame L s t) (hm : L ⊆ M := by decide +kernel) : Frame M s t := h.mono hm

theorem ite {p : Prop} [Decidable p] (h : Frame L s t) (k : Frame L s u) : Frame L s (if p then t else u) := by
  split
  · exact h
  · exact k

/-- A pass over a list. -/
theorem foldl {α : Type} {f : State → α → State} (h : ∀ s a, Frame L s (f s a)) (l : List α) (s : State) :
    Frame L s (l.foldl f s) := by
  induction l generalizing s with
  | nil => exact refl L s
  | cons a l ih => exact (h s a).trans (ih _)

end Frame

/-! ## The shared operations -/

/-- The working copy that a write is for. -/
def writeField : RecWrite → Field
  | .range _ _ => .cRanges
  | .cred _ _ => .cCreds
  | .wrap _ _ => .cWraps
  | .charged _ => .cCharged
  | .policy _ => .cPolicy
  | .digest _ => .cDigest
  | .token _ => .cToken
  | .watch _ => .cWatch
  | .rekey _ => .cRekey
  | .journal _ => .cJournal
  | .incidents _ => .cIncidents
  | .boot _ => .cBoot

/-- A request for a write changes neither what the store holds nor the work that waits. -/
theorem requestWrite_eq (b : Block) (w : RecWrite) (st : Store) :
    requestWrite b w st = { requestWrite b w st with nv := st.nv, waits := st.waits } := by
  conv_rhs => rw [← requestWrite_nv b w st, ← requestWrite_waits b w st]

theorem frame_putBy (b : Block) (w : RecWrite) (s : State) (f : Field) (hf : writeField w = f := by rfl) :
    Frame [f, .requests] s (putBy b w s) := by
  subst hf
  rw [putBy, requestWrite_eq]
  cases w <;> exact ⟨rfl, rfl, le_rfl⟩

theorem frame_put (w : RecWrite) (s : State) (f : Field) (hf : writeField w = f := by rfl) :
    Frame [f, .requests] s (put w s) :=
  frame_putBy (writeOwner w) w s f hf

theorem frame_askWrite (w : RecWrite) (s : State) : Frame [.requests] s (askWrite w s) := by
  rw [askWrite, requestWrite_eq]
  exact ⟨rfl, rfl, le_rfl⟩

theorem frame_clearTouched (s : State) : Frame [.requests] s (clearTouched s) := ⟨rfl, rfl, le_rfl⟩

/-- Noting writes apart from those before is a matter of the requests alone. -/
theorem frame_withTouched {L : List Field} {f : State → State} (h : ∀ s, Frame L s (f s)) (s : State)
    (hL : [.requests] ⊆ L := by decide +kernel) : Frame L s (withTouched f s).2 :=
  ((Frame.within ⟨rfl, rfl, le_rfl⟩ hL : Frame L s { s with store := { s.store with touched := [] } }).trans (h _)).trans
    (Frame.within ⟨rfl, rfl, le_rfl⟩ hL)

theorem frame_addWait (ids : List Nat) (job : Cont) (s : State) : Frame [.waits] s (addWait ids job s) :=
  ⟨rfl, rfl, le_rfl⟩

theorem frame_completeWrite (s : State) : Frame [.nv, .requests, .waits, .sec, .plat] s (completeWrite s) := by
  unfold completeWrite
  split
  · exact .refl _ s
  · exact ⟨rfl, applyWrite_factory _ _, le_rfl⟩

theorem frame_drawKey (s : State) : Frame [.draws] s (drawKey s).2 := ⟨rfl, rfl, Nat.le_succ _⟩
theorem frame_drawSalt (s : State) : Frame [.draws] s (drawSalt s).2 := ⟨rfl, rfl, Nat.le_succ _⟩

theorem frame_addIncident (k : IncidentKind) (s : State) : Frame [.cIncidents, .requests] s (addIncident k s) :=
  frame_put _ s .cIncidents

theorem frame_setSecQueue (q : List NoticeEntry) (s : State) : Frame [.secQueue, .marks] s (setSecQueue q s) :=
  ⟨rfl, rfl, le_rfl⟩
theorem frame_setPlatQueue (q : List NoticeEntry) (s : State) : Frame [.platQueue, .marks] s (setPlatQueue q s) :=
  ⟨rfl, rfl, le_rfl⟩
theorem frame_setSecMask (m : BitVec 16) (s : State) : Frame [.masks, .marks] s (setSecMask m s) := ⟨rfl, rfl, le_rfl⟩
theorem frame_setPlatMask (m : BitVec 16) (s : State) : Frame [.masks, .marks] s (setPlatMask m s) := ⟨rfl, rfl, le_rfl⟩
theorem frame_noticeSec (n : Notice) (s : State) : Frame [.secQueue, .marks] s (noticeSec n s) := ⟨rfl, rfl, le_rfl⟩
theorem frame_noticePlat (n : Notice) (s : State) : Frame [.platQueue, .marks] s (noticePlat n s) := ⟨rfl, rfl, le_rfl⟩
theorem frame_noticeBoth (n : Notice) (s : State) : Frame [.secQueue, .platQueue, .marks] s (noticeBoth n s) :=
  (frame_noticeSec n s).andThen (frame_noticePlat n _)

theorem frame_pushFrame (f : OutFrame) (s : State) : Frame [.outbox] s (pushFrame f s) := by
  rw [pushFrame_frame]
  exact ⟨rfl, rfl, le_rfl⟩

theorem frame_modSec (f : SecJob → SecJob) (s : State) : Frame [.sec] s (modSec f s) := ⟨rfl, rfl, le_rfl⟩
theorem frame_awaitWrites (ids : List Nat) (s : State) : Frame [.sec] s (awaitWrites ids s) := ⟨rfl, rfl, le_rfl⟩
theorem frame_modPlat (f : PlatJob → PlatJob) (s : State) : Frame [.plat] s (modPlat f s) := ⟨rfl, rfl, le_rfl⟩

/-- What a security answer changes: the channel, and the frames or the notices. -/
abbrev replyFields : List Field := [.sec, .outbox, .secQueue, .marks]

theorem frame_secReply (c : Code) (b : AnswerBody) (s : State) : Frame replyFields s (secReply c b s) := by
  unfold secReply
  split
  · exact .refl _ s
  · have idle : Frame [.sec] s { s with cmd := { s.cmd with sec := none } } := ⟨rfl, rfl, le_rfl⟩
    exact .ite (idle.andThen (frame_noticeSec _ _)) (idle.andThen (frame_pushFrame _ _))

theorem frame_secAnswerDue (s : State) : Frame replyFields s (secAnswerDue s) := by
  unfold secAnswerDue
  split
  · split
    · exact .ite (frame_secReply _ _ s) (.refl _ s)
    · exact .refl _ s
  · exact .refl _ s

theorem frame_secFinish (c : Code) (b : AnswerBody) (s : State) : Frame replyFields s (secFinish c b s) :=
  (frame_modSec _ s).andThen (frame_secAnswerDue _)

theorem frame_platReply (c : Code) (b : AnswerBody) (s : State) : Frame [.plat, .buffer] s (platReply c b s) := by
  unfold platReply
  split
  · exact .refl _ s
  · exact ⟨rfl, rfl, le_rfl⟩

theorem frame_platAnswerDue (s : State) : Frame [.plat, .buffer] s (platAnswerDue s) := by
  unfold platAnswerDue
  split
  · split
    · exact .ite (frame_platReply _ _ s) (.refl _ s)
    · exact .refl _ s
  · exact .refl _ s

theorem frame_platFinish (c : Code) (ids : List Nat) (s : State) : Frame [.plat, .buffer] s (platFinish c ids s) :=
  (frame_modPlat _ s).andThen (frame_platAnswerDue _)

/-- The first half of `settleWaiters`: a LOCK or LOCK_ALL whose last close has completed (R21, R108). -/
def settleSec (s : State) : State :=
  match s.cmd.sec with
  | some j =>
    if j.phase = SecPhase.closing ∧ awaited .security s = false then
      secAnswerDue (modSec (fun j => { j with phase := .answering .ok .empty }) s)
    else s
  | none => s

/-- The second half of `settleWaiters`: a SLEEP whose last close has completed (R135). -/
def settlePlat (s : State) : State :=
  match s.cmd.plat with
  | some j => if j.phase = PlatPhase.closing ∧ awaited .sleep s = false then platReply .ok .empty s else s
  | none => s

theorem settleWaiters_eq (s : State) : settleWaiters s = settlePlat (settleSec s) := rfl

theorem frame_settleSec (s : State) : Frame replyFields s (settleSec s) := by
  unfold settleSec
  split
  · exact .ite ((frame_modSec _ s).andThen (frame_secAnswerDue _)) (.refl _ s)
  · exact .refl _ s

theorem frame_settlePlat (s : State) : Frame [.plat, .buffer] s (settlePlat s) := by
  unfold settlePlat
  split
  · exact .ite (frame_platReply _ _ s) (.refl _ s)
  · exact .refl _ s

/-- What the answers to a LOCK, LOCK_ALL or SLEEP change. -/
abbrev settleFields : List Field := .plat :: .buffer :: replyFields

theorem frame_settleWaiters (s : State) : Frame settleFields s (settleWaiters s) :=
  (frame_settleSec s).andThen (frame_settlePlat _)

/-! ### Slots, ranges and entries -/

theorem frame_setSlot (k : Fin 18) (v : Slot) (s : State) : Frame [.slots] s (setSlot k v s) := ⟨rfl, rfl, le_rfl⟩
theorem frame_setRun (r : Fin 16) (v : RangeRun) (s : State) : Frame [.ranges] s (setRun r v s) := ⟨rfl, rfl, le_rfl⟩
theorem frame_setMark (r : Fin 16) (b : Bool) (s : State) : Frame [.ranges] s (setMark r b s) := ⟨rfl, rfl, le_rfl⟩
theorem frame_setEntry (t : Fin 32) (e : Entry) (s : State) : Frame [.table] s (setEntry t e s) := ⟨rfl, rfl, le_rfl⟩

theorem frame_retireHeld (h : Held) (s : State) : Frame [.slots] s (retireHeld h s) := by
  rw [(retireHeld_slots h s).1]
  exact ⟨rfl, rfl, le_rfl⟩

theorem frame_allocOne {r : Fin 16} {m : Key} {s t : State} {k : Fin 18} (h : allocOne r m s = some (k, t)) :
    Frame [.slots] s t := by
  unfold allocOne at h
  split at h
  · cases h
    exact frame_setSlot _ _ s
  · cases h

theorem frame_allocTwo {r : Fin 16} {m n : Key} {s t : State} {k l : Fin 18} (h : allocTwo r m n s = some (k, l, t)) :
    Frame [.slots] s t := by
  unfold allocTwo at h
  split at h
  · cases h
    exact (frame_setSlot _ _ s).andThen (frame_setSlot _ _ _)
  · cases h

theorem frame_takeSlots {r : Fin 16} {s t : State} {k : Fin 18} {l : Option (Fin 18)}
    (h : takeSlots r s = some (k, l, t)) : Frame [.slots] s t := by
  unfold takeSlots at h
  split at h
  · split at h
    · rename_i ha
      cases h
      exact frame_allocTwo ha
    · cases h
  · split at h
    · rename_i ha
      cases h
      exact frame_allocOne ha
    · cases h
  · cases h

/-! ## Closes and admission -/

theorem frame_takeOrderNumber (s : State) : Frame [.counter] s (takeOrderNumber s).2 := ⟨rfl, rfl, le_rfl⟩

theorem frame_sendMigrateOrder (s : State) : Frame [.order, .intended, .counter, .outbox] s (sendMigrateOrder s) := by
  unfold sendMigrateOrder
  split
  · exact .refl _ s
  · split
    · exact .refl _ s
    · exact Frame.after (L := [.order, .intended, .counter]) (frame_pushFrame _ _) ⟨rfl, rfl, le_rfl⟩

/-- What the choice of a window changes. -/
abbrev windowFields : List Field := [.fence, .order, .intended, .counter, .outbox]

theorem frame_chooseWindow (s : State) : Frame windowFields s (chooseWindow s) := by
  unfold chooseWindow
  split
  · split
    · exact Frame.after (L := [.fence, .intended]) (frame_sendMigrateOrder _) ⟨rfl, rfl, le_rfl⟩
    · exact .refl _ s
  · exact .refl _ s

theorem frame_withdrawWindow (s : State) : Frame [.fence, .intended] s (withdrawWindow s) := by
  unfold withdrawWindow
  exact .ite ⟨rfl, rfl, le_rfl⟩ (.refl _ s)

/-- What the pausing of a rekey changes. -/
abbrev pauseFields : List Field := [.fence, .intended, .seen, .cRekey, .requests]

theorem frame_pauseRekey (r : Fin 16) (s : State) : Frame pauseFields s (pauseRekey r s) := by
  unfold pauseRekey
  split
  · refine .ite ?_ (.refl _ s)
    exact .ite (frame_withdrawWindow s).within ((frame_withdrawWindow s).andThen (frame_put _ _ .cRekey))
  · split
    · exact .ite ⟨rfl, rfl, le_rfl⟩ (.refl _ s)
    · exact .refl _ s

/-- What the completion of a close changes. -/
abbrev closeFields : List Field := .slots :: .ranges :: pauseFields ++ settleFields

theorem frame_closeFinish (r : Fin 16) (s : State) : Frame closeFields s (closeFinish r s) := by
  unfold closeFinish
  split
  · exact .refl _ s
  · rename_i h _
    have paused : Frame closeFields s (withTouched (pauseRekey r) (setRun r .locked (retireHeld h s))).2 :=
      ((frame_retireHeld h s).andThen (frame_setRun r .locked _) : Frame closeFields s _).trans
        (frame_withTouched (fun s => frame_pauseRekey r s) _).within
    exact (frame_settleWaiters _).after (.ite (paused.andThen (frame_awaitWrites _ _)) paused) (List.Subset.refl _)

theorem frame_closeIfDrained (r : Fin 16) (s : State) : Frame closeFields s (closeIfDrained r s) := by
  unfold closeIfDrained
  split
  · exact .ite (frame_closeFinish r s) (.refl _ s)
  · exact .refl _ s

/-- What an entry's departure from ADMITTED changes. -/
abbrev leaveFields : List Field := .order :: .counter :: closeFields

theorem frame_leaveAdmitted (x : Xfer) (s : State) : Frame leaveFields s (leaveAdmitted x s) := by
  have pins := Frame.foldl (f := fun s k => unpinSlot k s) (fun s k => frame_setSlot k _ s) (slotsNamed x.segs) s
  have closes := fun s => Frame.foldl (f := fun s r => closeIfDrained r s) (fun s r => frame_closeIfDrained r s)
    (rangesNamed x.segs) s
  have both : Frame leaveFields s _ := pins.andThen (closes _)
  exact .ite (both.andThen (frame_sendMigrateOrder _)) both

/-- What aborts change. -/
abbrev abortFields : List Field := .table :: leaveFields

theorem frame_abortTag (t : Fin 32) (s : State) : Frame abortFields s (abortTag t s) := by
  unfold abortTag
  split
  · exact (frame_setEntry t _ s).andThen (frame_leaveAdmitted _ _)
  · exact .refl _ s

theorem frame_abortWhere (p : Entry → Bool) (s : State) : Frame abortFields s (abortWhere p s) :=
  .foldl (fun s t => .ite (frame_abortTag t s) (.refl _ s)) _ s

theorem frame_refuseHeld (c : Code) (r : Option (Fin 16)) (t : Fin 32) (s : State) :
    Frame [.table, .hold, .outbox] s (refuseHeld c r t s) :=
  Frame.after (L := [.table, .hold]) (frame_pushFrame _ _) ⟨rfl, rfl, le_rfl⟩

theorem frame_refuseHeldWhere (p : Extent → Bool) (c : Code) (r : Option (Fin 16)) (s : State) :
    Frame [.table, .hold, .outbox] s (refuseHeldWhere p c r s) := by
  refine .foldl (fun s t => ?_) _ s
  split
  · exact .ite (frame_refuseHeld c r t s) (.refl _ s)
  · exact .refl _ s

/-- What an orderly close changes. -/
abbrev orderlyFields : List Field := .table :: .hold :: closeFields

theorem frame_orderlyClose (r : Fin 16) (w : Option Waiter) (s : State) : Frame orderlyFields s (orderlyClose r w s) := by
  unfold orderlyClose
  split
  · have refused := fun run => (frame_setRun r run s).andThen (N := orderlyFields)
      (frame_refuseHeldWhere (touches s r) .locked (some r) _)
    exact (frame_closeIfDrained r _).after (.ite ((refused _).andThen (frame_withdrawWindow _)) (refused _))
      (List.Subset.refl _)
  · exact (frame_setRun r _ s).within
  · exact .refl _ s

/-- What an immediate close changes. -/
abbrev atOnceFields : List Field := .hold :: abortFields

theorem frame_immediateClose (r : Fin 16) (s : State) : Frame atOnceFields s (immediateClose r s) := by
  unfold immediateClose
  split
  · exact .refl _ s
  · have aborted : Frame atOnceFields s (abortWhere (admittedIn r) s) := (frame_abortWhere _ s).within
    exact (frame_closeFinish r _).after (.ite (aborted.andThen (frame_refuseHeldWhere _ _ _ _)) aborted)
      (List.Subset.refl _)

theorem frame_closeAllAtOnce (s : State) : Frame atOnceFields s (closeAllAtOnce s) :=
  (frame_withdrawWindow s).andThen (.foldl (f := fun s r => immediateClose r s) (fun s r => frame_immediateClose r s) _ _)

/-- What an admission changes. -/
abbrev admitFields : List Field := [.table, .slots, .outbox]

theorem frame_admitEntry (t : Fin 32) (cls : XferClass) (e : Extent) (o : Option Nat) (segs : List Segment) (s : State) :
    Frame admitFields s (admitEntry t cls e o segs s) :=
  (frame_pushFrame _ _).after ((Frame.foldl (f := fun s k => pinSlot k s) (fun s k => frame_setSlot k _ s)
    (slotsNamed segs) _).after (N := [.table, .slots]) (frame_setEntry t _ s))

theorem frame_releaseOne (t : Fin 32) (s : State) : Frame (.hold :: admitFields) s (releaseOne t s) := by
  unfold releaseOne
  split
  · split
    · exact (frame_refuseHeld _ _ t s).within
    · exact Frame.after (L := [.hold]) (frame_admitEntry t _ _ _ _ _) ⟨rfl, rfl, le_rfl⟩
  · exact .refl _ s

theorem frame_releaseHold (s : State) : Frame (.hold :: admitFields) s (releaseHold s) :=
  .foldl (f := fun s t => releaseOne t s) (fun s t => frame_releaseOne t s) _ s

/-- What the discard of a rekey record changes. -/
abbrev discardFields : List Field := [.order, .fence, .intended, .seen, .completing, .waits, .cRekey, .requests]

theorem frame_discardRekey (s : State) : Frame discardFields s (discardRekey s) := by
  unfold discardRekey
  split
  · exact .refl _ s
  · exact Frame.after (L := [.order, .fence, .intended, .seen, .completing, .waits]) (frame_put _ _ .cRekey)
      ⟨rfl, rfl, le_rfl⟩

/-! ## Wrap entries, opening and renewal -/

/-- What changes where wrap entries come and go. -/
abbrev wrapFields : List Field := [.cWraps, .requests]

theorem frame_putWrap (k : Fin 64) (e : Option WrapEntry) (s : State) : Frame wrapFields s (putWrap k e s) :=
  frame_put _ s .cWraps

theorem frame_purgeStale (who : Holder) (r : Fin 16) (s : State) : Frame wrapFields s (purgeStale who r s) := by
  unfold purgeStale
  split
  · split
    · exact .ite (frame_putWrap _ _ s) (.refl _ s)
    · exact .refl _ s
  · exact .refl _ s

theorem frame_removeWraps (p : WrapEntry → Bool) (s : State) : Frame wrapFields s (removeWraps p s) := by
  refine .foldl (fun s k => ?_) _ s
  split
  · exact .ite (frame_putWrap _ _ s) (.refl _ s)
  · exact .refl _ s

theorem frame_removeHolderWraps (who : Holder) (s : State) : Frame wrapFields s (removeHolderWraps who s) :=
  .foldl (f := fun s _ => removeWraps _ s) (fun s _ => frame_removeWraps _ s) _ s

theorem frame_addWrap (who : Holder) (under : WrapUnder) (r : Fin 16) (a : Access) (key : Key) (s : State) :
    Frame wrapFields s (addWrap who under r a key s).2 := by
  have purged := frame_purgeStale who r s
  unfold addWrap
  dsimp only
  split
  · split
    · exact purged.trans (frame_putWrap _ _ _)
    · exact purged
  · split
    · exact purged.trans (frame_putWrap _ _ _)
    · exact purged

theorem frame_ownerEntries (c : Fin 8) (under : CredKey) (r : Fin 16) (key : Key) (s : State) :
    Frame wrapFields s (ownerEntries c under r key s) :=
  .ite ((frame_addWrap _ _ r _ key s).trans (frame_addWrap _ _ r _ key _)) (frame_addWrap _ _ r _ key s)

/-- What an open changes. -/
abbrev openFields : List Field := .ranges :: .slots :: .cRekey :: .requests :: windowFields

theorem frame_resumeRekey (r : Fin 16) (s : State) :
    Frame (.cRekey :: .requests :: windowFields) s (resumeRekey r s) := by
  unfold resumeRekey
  split
  · refine .ite ?_ (.refl _ s)
    exact Frame.andThen (L := [.cRekey, .requests]) (.ite (frame_put _ s .cRekey) (.refl _ s)) (frame_chooseWindow _)
  · exact .refl _ s

theorem frame_openRange (r : Fin 16) (key : Key) (a : Access) (s : State) :
    Frame openFields s (openRange r key a s).2 := by
  unfold openRange
  split
  · exact (frame_setRun r _ s).andThen (frame_setMark r _ _)
  · exact .refl _ s
  · exact .refl _ s
  · split
    · exact .refl _ s
    · split
      · exact .refl _ s
      · rename_i h
        exact (((frame_takeSlots h).andThen (frame_setRun r _ _) : Frame openFields s _).andThen
          (frame_setMark r _ _)).trans (frame_resumeRekey r _).within

/-- What an auto-open changes. -/
abbrev autoOpenFields : List Field := .cWraps :: .secQueue :: .marks :: openFields

theorem frame_autoOpen (r : Fin 16) (s : State) : Frame autoOpenFields s (autoOpen r s) := by
  have purged := frame_purgeStale .device r s
  unfold autoOpen
  dsimp only
  split
  · split
    · split
      · rename_i e _ _ key _
        have opened := purged.andThen (N := autoOpenFields) (frame_openRange r key e.access _)
        split
        · rename_i h
          rw [h] at opened
          exact opened.andThen (frame_noticeSec _ _)
        · rename_i h
          rw [h] at opened
          exact opened
      · exact purged.within
    · exact purged.within
  · exact purged.within

theorem frame_setPending (l : List (Fin 16)) (s : State) : Frame [.pendingSet] s (setPending l s) := ⟨rfl, rfl, le_rfl⟩

theorem frame_leavePending (r : Fin 16) (s : State) : Frame [.pendingSet] s (leavePending r s) := ⟨rfl, rfl, le_rfl⟩

theorem frame_applyPending (s : State) : Frame (.pendingSet :: autoOpenFields) s (applyPending s) := by
  unfold applyPending
  exact .ite (.foldl (fun s r => (frame_leavePending r s).andThen (frame_autoOpen r _)) _ s)
    (frame_setPending _ s).within

theorem frame_autoOpenOrPend (bound : Binding → Bool) (r : Fin 16) (s : State) :
    Frame (.pendingSet :: autoOpenFields) s (autoOpenOrPend bound r s) := by
  have purged : Frame (.pendingSet :: autoOpenFields) s (purgeStale .device r s) := (frame_purgeStale _ r s).within
  exact .ite (.ite (purged.andThen (frame_setPending _ _)) (purged.andThen (frame_autoOpen r _))) purged

theorem frame_dropRuntime (r : Fin 16) (s : State) : Frame [.ranges, .slots] s (dropRuntime r s) := by
  unfold dropRuntime
  split
  · exact (frame_retireHeld _ s).andThen (frame_setRun r _ _)
  · exact (frame_setRun r _ s).within

/-- What a renewal changes. -/
abbrev renewFields : List Field :=
  .table :: .hold :: .ranges :: .slots :: .draws :: .cRanges :: .cWraps :: discardFields ++ settleFields

/-- R25, first half: the range lets go of what it held, and a rekey of it is discarded. -/
def letGo (r : Fin 16) (s : State) : State :=
  if rekeyOn r (dropRuntime r s).copies then discardRekey (dropRuntime r s) else pauseRekey r (dropRuntime r s)

/-- R25: what a renewal makes of a range record, with the draws from `n` on: range key, media key and salt. -/
def renewedRec (upd : RangeRec → RangeRec) (n : Nat) (old : RangeRec) : RangeRec :=
  { upd old with
    defined := true, generation := nextGeneration (upd old).generation, salt := ⟨n + 1 + 1⟩, current := some ⟨⟨n + 1⟩, ⟨n⟩⟩,
    next := none, erased := false }

/-- R25, second half: the record takes its fresh keys and salt, and its wrap entries and its sleep mark go. -/
def freshKeys (r : Fin 16) (upd : RangeRec → RangeRec) (s : State) : State :=
  setMark r false (removeRangeWraps r
    (putRange r (renewedRec upd s.draws s.copies.ranges[r]) { s with draws := s.draws + 1 + 1 + 1 }))

/-- R25, last: the renewed range opens where a slot is EMPTY. `n` names its range key, and the next draw its media key. -/
def reopen (r : Fin 16) (n : Nat) (s : State) : Bool × State :=
  match allocOne r ⟨n + 1⟩ s with
  | some (k, t) => (true, setRun r (.opened ⟨.readWrite, ⟨n⟩, k, none⟩) t)
  | none => (false, s)

theorem renewRange_eq (r : Fin 16) (upd : RangeRec → RangeRec) (s : State) :
    renewRange r upd s =
      (⟨(letGo r s).draws⟩, (reopen r (letGo r s).draws (freshKeys r upd (letGo r s))).1,
        if rekeyOn r (dropRuntime r s).copies then
          releaseHold (settleWaiters (reopen r (letGo r s).draws (freshKeys r upd (letGo r s))).2)
        else settleWaiters (reopen r (letGo r s).draws (freshKeys r upd (letGo r s))).2) := by
  unfold renewRange
  dsimp only
  rw [← letGo]
  generalize letGo r s = m
  dsimp only [reopen, drawKey, drawSalt, freshKeys, renewedRec] <;> generalize setMark r false _ = f <;>
    cases allocOne r ⟨m.draws + 1⟩ f <;> rfl

theorem frame_letGo (r : Fin 16) (s : State) : Frame (.ranges :: .slots :: discardFields) s (letGo r s) :=
  .ite ((frame_dropRuntime r s).andThen (frame_discardRekey _)) ((frame_dropRuntime r s).andThen (frame_pauseRekey r _))

theorem frame_freshKeys (r : Fin 16) (upd : RangeRec → RangeRec) (s : State) :
    Frame [.draws, .ranges, .cRanges, .cWraps, .requests] s (freshKeys r upd s) := by
  have drawn : Frame [.draws] s { s with draws := s.draws + 3 } := ⟨rfl, rfl, Nat.le_add_right _ _⟩
  exact (frame_setMark r _ _).after ((frame_removeWraps _ _).after (N := [.draws, .cRanges, .cWraps, .requests])
    ((frame_put _ _ .cRanges).after (N := [.draws, .cRanges, .requests]) drawn))

theorem frame_reopen (r : Fin 16) (n : Nat) (s : State) : Frame [.ranges, .slots] s (reopen r n s).2 := by
  unfold reopen
  split
  · rename_i h
    exact (frame_allocOne h).andThen (frame_setRun r _ _)
  · exact .refl _ s

theorem frame_renewRange (r : Fin 16) (upd : RangeRec → RangeRec) (s : State) :
    Frame renewFields s (renewRange r upd s).2.2 := by
  rw [renewRange_eq]
  have settled : Frame renewFields s _ := (frame_settleWaiters _).after (N := renewFields)
    ((frame_reopen r (letGo r s).draws _).after (N := renewFields)
      ((frame_letGo r s).andThen (N := renewFields) (frame_freshKeys r upd _)))
  exact .ite ((frame_releaseHold _).after settled) settled

theorem frame_destroyRange (r : Fin 16) (s : State) :
    Frame [.ranges, .draws, .cRanges, .requests] s (destroyRange r s) :=
  (frame_setRun r _ _).after ((frame_put _ _ .cRanges).after (N := [.draws, .cRanges, .requests]) (frame_drawSalt s))

/-- What a deletion changes. -/
abbrev deleteFields : List Field := .ranges :: .slots :: .cRanges :: .cWraps :: .requests :: settleFields

theorem frame_deleteRange (r : Fin 16) (s : State) : Frame deleteFields s (deleteRange r s) :=
by
  unfold deleteRange
  exact (frame_settleWaiters _).after ((frame_setMark r _ _).after (N := deleteFields)
    ((frame_removeWraps _ _).after (N := deleteFields)
      ((frame_put _ _ .cRanges).after (N := deleteFields) (frame_dropRuntime r s))))

/-! ## The Theft Watch -/

theorem frame_setScore (n : Nat) (s : State) : Frame [.cWatch] s (setScore n s) := ⟨rfl, rfl, le_rfl⟩
theorem frame_setDecay (d : Option Nat) (s : State) : Frame [.decay] s (setDecay d s) := ⟨rfl, rfl, le_rfl⟩

theorem frame_entryEffects (old new : WatchState) (s : State) :
    Frame (.decay :: .pendingSet :: atOnceFields) s (entryEffects old new s) := by
  cases new
  case settled => exact .ite (frame_setDecay _ s).within (.refl _ s)
  case wary => exact .refl _ s
  case alarmed =>
    exact (frame_setDecay _ _).after ((frame_setPending _ _).after (N := .pendingSet :: atOnceFields)
      (frame_closeAllAtOnce s))
  case erasing => exact (frame_setPending _ s).andThen (frame_setDecay _ _)
  case erased => exact (frame_setDecay _ s).within

/-- What a change of watch state changes. -/
abbrev enterFields : List Field :=
  .cWatch :: .cIncidents :: .platQueue :: .marks :: .decay :: .pendingSet :: atOnceFields

theorem frame_enterWatch (w : WatchRec) (s : State) : Frame enterFields s (enterWatch w s) :=
  (frame_noticeBoth _ _).after ((frame_entryEffects _ _ _).after (N := enterFields)
    ((frame_addIncident _ _).after (N := enterFields) (frame_put (.watch w) s .cWatch)))

/-- What the start of an erase changes. -/
abbrev startFields : List Field :=
  [.cJournal, .requests, .waits, .cWatch, .orders, .scrubMarks, .starting, .stopping, .pendingSet, .decay]

theorem frame_startErase (cause : EraseCause) (s : State) : Frame startFields s (startErase cause s) := by
  unfold startErase
  refine .ite ?_ (.refl _ s)
  have journal := frame_withTouched (fun s => frame_put (.journal (some ⟨cause, 0, 0, [], none⟩)) s .cJournal) s
  have entered : ∀ (m : State) (e : EraseEngine), Frame startFields m
      { m with copies := { m.copies with watch := { m.copies.watch with state := .erasing } }, erase := e } :=
    fun _ _ => ⟨rfl, rfl, le_rfl⟩
  exact (frame_setDecay _ _).after ((frame_setPending _ _).after (N := startFields)
    ((frame_addWait _ _ _).after (N := startFields) (journal.andThen (N := startFields) (entered _ _))))

/-- What evidence and evaluation change. -/
abbrev evidenceFields : List Field := startFields ++ enterFields

theorem frame_evaluate (changed : Bool) (s : State) : Frame evidenceFields s (evaluate changed s) :=
  .ite (frame_startErase _ s).within <| .ite (frame_enterWatch _ s).within <| .ite (frame_enterWatch _ s).within <|
    .ite (frame_enterWatch _ s).within <| .ite (frame_put _ s .cWatch).within (.refl _ s)

theorem frame_takeEvidence (e : Evidence) (s : State) : Frame evidenceFields s (takeEvidence e s) :=
  .ite ((frame_evaluate _ _).after ((frame_addIncident _ _).after (N := evidenceFields) (frame_setScore _ s)))
    (frame_addIncident _ s).within

theorem frame_lowerScore (n : Nat) (s : State) : Frame evidenceFields s (lowerScore n s) :=
  (frame_evaluate _ _).after (frame_setScore _ s)

theorem frame_reportSuccess (role : Role) (s : State) : Frame evidenceFields s (reportSuccess role s) := by
  unfold reportSuccess
  split
  · exact .ite (.refl _ s) (frame_enterWatch _ s).within
  · exact frame_lowerScore _ s
  · exact frame_lowerScore _ s
  · exact .refl _ s
  · exact .refl _ s

theorem frame_decayExpires (s : State) : Frame evidenceFields s (decayExpires s) :=
  .ite ((frame_lowerScore _ _).after (frame_setDecay _ s)) (.refl _ s)

theorem frame_checkinExpires (s : State) : Frame (.sensors :: evidenceFields) s (checkinExpires s) :=
  .ite (Frame.after (L := [.sensors]) (frame_takeEvidence _ _) ⟨rfl, rfl, le_rfl⟩) (.refl _ s)

theorem frame_takeEdge (n : Fin 4) (level : Bool) (s : State) :
    Frame (.sensors :: evidenceFields) s (takeEdge n level s) := by
  unfold takeEdge
  refine .ite (.refl _ s) (.ite (Frame.after (L := [.sensors]) (frame_takeEvidence _ _) ?_) ?_) <;>
    exact ⟨rfl, rfl, le_rfl⟩

/-! ## The Erase Engine -/

/-- What the reaching of an erase step changes. -/
abbrev reachFields : List Field := [.cJournal, .cIncidents, .requests, .secQueue, .platQueue, .marks]

theorem frame_reachStep (k : Nat) (s : State) : Frame reachFields s (reachStep k s) := by
  unfold reachStep
  split
  · exact (frame_noticeBoth _ _).after ((frame_addIncident _ _).after (N := reachFields) (frame_put _ s .cJournal))
  · exact .refl _ s

/-- What HALT changes. -/
abbrev haltFields : List Field := .cRanges :: discardFields ++ atOnceFields

theorem frame_haltWork (s : State) : Frame haltFields s (haltWork s) := by
  have discarded : Frame haltFields s
      (discardRekey (abortWhere (fun _ => true) (refuseHeldWhere (fun _ => true) .erasing none s))) :=
    (frame_discardRekey _).after ((frame_abortWhere _ _).after (N := haltFields) (frame_refuseHeldWhere _ _ _ s))
  have cleared : ∀ m : State,
      Frame haltFields m { m with rekey := { m.rekey with order := none, fence := none, intended := none } } :=
    fun _ => ⟨rfl, rfl, le_rfl⟩
  unfold haltWork
  dsimp only
  split
  · exact (frame_put _ _ .cRanges).after (discarded.trans (cleared _)) (List.Subset.refl _)
  · exact discarded.trans (cleared _)

theorem frame_zeroizeWork (s : State) : Frame atOnceFields s (zeroizeWork s) :=
  have emptied : ∀ m : State, Frame [.slots] m { m with slots := Vector.replicate 18 .empty } :=
    fun _ => ⟨rfl, rfl, le_rfl⟩
  (frame_closeAllAtOnce s).andThen (emptied _)

/-- What DESTROY changes. -/
abbrev destroyFields : List Field := [.ranges, .draws, .cRanges, .cWraps, .requests]

theorem frame_destroyWork (s : State) : Frame destroyFields s (destroyWork s) :=
  (Frame.foldl (L := destroyFields) (fun s r => .ite (frame_destroyRange r s).within (.refl _ s)) _ _).after
    (frame_removeWraps _ s)

/-- What the completion of the journal's step 0 changes. -/
abbrev enteredFields : List Field := .starting :: .sec :: .plat :: .buffer :: .waits :: enterFields

/-- An answer that waits for step 0 then waits for the writes `ids`, a platform answer for nothing more (R139, R158). -/
def eraseTold (ids : List Nat) (s : State) : State :=
  modPlat (fun j => { j with awaitsErase := false })
    (modSec (fun j => if j.awaitsErase then { j with awaitsErase := false, writes := j.writes ++ ids } else j) s)

theorem frame_eraseTold (ids : List Nat) (s : State) : Frame [.sec, .plat] s (eraseTold ids s) := ⟨rfl, rfl, le_rfl⟩

theorem eraseEntered_eq (s : State) :
    eraseEntered s =
      let s1 := withTouched (enterWatch { s.copies.watch with state := .erasing })
        { s with erase := { s.erase with starting := none } }
      let s4 := withTouched (fun s => noticeBoth (.eraseStep 0) (addIncident (.eraseStep 0) s)) (eraseTold s1.1 s1.2)
      addWait (s1.1 ++ s4.1) (.eraseNext 1) (platAnswerDue s4.2) := rfl

theorem frame_eraseEntered (s : State) : Frame enteredFields s (eraseEntered s) := by
  rw [eraseEntered_eq]
  have started : Frame [.starting] s { s with erase := { s.erase with starting := none } } := ⟨rfl, rfl, le_rfl⟩
  have entered := started.andThen (N := enteredFields)
    (frame_withTouched (frame_enterWatch { s.copies.watch with state := .erasing }) _)
  have reached := frame_withTouched (L := [.cIncidents, .requests, .secQueue, .platQueue, .marks])
    fun s => (frame_addIncident (.eraseStep 0) s).andThen (frame_noticeBoth (.eraseStep 0) _)
  exact (frame_addWait _ _ _).after ((frame_platAnswerDue _).after (N := enteredFields)
    ((reached _).after (N := enteredFields) (entered.andThen (N := enteredFields) (frame_eraseTold _ _))))

/-! ### The scrub and the end of an erase -/

/-- What the end of an erase changes. -/
abbrev finishFields : List Field := .cJournal :: .orders :: .scrubMarks :: .stopping :: enterFields

theorem frame_finishErase (r : EraseResult) (s : State) : Frame finishFields s (finishErase r s) := by
  unfold finishErase
  split
  · have done := fun j => (frame_noticeBoth (.eraseStep 5) _).after (N := finishFields)
      ((frame_addIncident (.eraseStep 5) _).after (N := finishFields) (frame_put (.journal (some j)) s .cJournal))
    have cleared : ∀ m : State, Frame finishFields m
        { m with erase := { m.erase with orders := [], retries := [], done := [], stopping := false } } :=
      fun _ => ⟨rfl, rfl, le_rfl⟩
    exact (frame_noticeBoth _ _).after (((done _).andThen (N := finishFields) (frame_enterWatch _ _)).trans (cleared _))
      (List.Subset.refl _)
  · exact .refl _ s

/-- What the issue of scrub orders changes. -/
abbrev issueFields : List Field := [.orders, .counter, .outbox]

theorem frame_issueOne (s : State) : Frame issueFields s (issueOne s) := by
  unfold issueOne
  split
  · split
    · split
      · exact Frame.after (L := [.orders, .counter]) (frame_pushFrame _ _) ⟨rfl, rfl, le_rfl⟩
      · exact .refl _ s
    · exact .refl _ s
  · exact .refl _ s

theorem frame_issueScrubs (s : State) : Frame issueFields s (issueScrubs s) :=
  (((frame_issueOne s).trans (frame_issueOne _)).trans (frame_issueOne _)).trans (frame_issueOne _)

/-- What a chunk marked done changes. -/
abbrev markFields : List Field := [.scrubMarks, .cJournal, .requests, .waits]

theorem frame_markDone (c : Nat) (s : State) : Frame markFields s (markDone c s) := by
  unfold markDone
  split
  · rename_i j _
    have marked : ∀ l, Frame markFields s { s with erase := { s.erase with done := l } } := fun _ => ⟨rfl, rfl, le_rfl⟩
    refine .ite (marked _) ?_
    have written := fun l f => (frame_withTouched
      (fun s => frame_put (.journal (some { j with frontier := f })) s .cJournal) _).after (N := markFields) (marked l)
    have half := fun l f => Frame.ite (p := 2 * j.frontier < s.copies.factory.capacity ∧ s.copies.factory.capacity ≤ 2 * f)
      ((frame_addWait (withTouched (putJournal (some { j with frontier := f }))
        { s with erase := { s.erase with done := l } }).1 .scrubHalf _).after (N := markFields) (written l f)) (written l f)
    exact .ite ((frame_addWait _ _ _).after (half _ _)) (half _ _)
  · exact .refl _ s

/-- What the completion of a scrub order changes. -/
abbrev scrubFields : List Field := .counter :: .waits :: finishFields

theorem frame_abandonScrub (s : State) : Frame scrubFields s (abandonScrub s) := by
  have stopped : Frame scrubFields s { s with erase := { s.erase with orders := [], stopping := true } } :=
    ⟨rfl, rfl, le_rfl⟩
  unfold abandonScrub
  dsimp only
  split
  · exact stopped.trans (frame_finishErase _ _).within
  · exact stopped.trans (frame_addWait _ _ _).within

theorem frame_scrubFailed (c : Nat) (s : State) : Frame scrubFields s (scrubFailed c s) := by
  have retried : ∀ (m : State) l, Frame scrubFields m { m with erase := { m.erase with retries := l } } :=
    fun _ _ => ⟨rfl, rfl, le_rfl⟩
  unfold scrubFailed
  split
  · refine .ite (retried _ _) (.ite ?_ (frame_abandonScrub s))
    exact (frame_markDone _ _).after (((frame_put _ s .cJournal).within).trans (retried _ _)) (List.Subset.refl _)
  · exact .refl _ s

theorem frame_scrubCompletes (o : ScrubOrder) (ok : Bool) (s : State) : Frame scrubFields s (scrubCompletes o ok s) := by
  have taken : ∀ (m : State) l, Frame scrubFields m { m with erase := { m.erase with orders := l } } :=
    fun _ _ => ⟨rfl, rfl, le_rfl⟩
  have retried : ∀ (m : State) l, Frame scrubFields m { m with erase := { m.erase with retries := l } } :=
    fun _ _ => ⟨rfl, rfl, le_rfl⟩
  exact (frame_issueScrubs _).after (.ite ((frame_markDone _ _).after ((taken s _).trans (retried _ _))
    (List.Subset.refl _)) ((taken s _).trans (frame_scrubFailed _ _))) (List.Subset.refl _)

/-- What the start of a scrub changes. -/
abbrev startScrubFields : List Field := .waits :: issueFields ++ reachFields

theorem frame_startScrub (s : State) : Frame startScrubFields s (startScrub s) := by
  have reached := frame_withTouched (frame_reachStep 4) s
  unfold startScrub
  dsimp only
  split
  · exact .ite (reached.andThen (frame_addWait _ _ _)) (reached.andThen (frame_issueScrubs _))
  · exact reached.within

/-- What an erase's going on to its next step changes. -/
abbrev eraseFields : List Field := .draws :: .cWraps :: .seen :: .completing :: .cRanges :: scrubFields

theorem frame_eraseNext (k : Nat) (s : State) : Frame eraseFields s (eraseNext k s) := by
  have go : ∀ work : State → State, (∀ s, Frame eraseFields s (work s)) → Frame eraseFields s
      (addWait (withTouched (fun s => work (reachStep k s)) s).1 (.eraseNext (k + 1))
        (withTouched (fun s => work (reachStep k s)) s).2) := fun work h =>
    (frame_addWait _ _ _).after
      (frame_withTouched (fun s => (h _).after (frame_reachStep k s) (by decide +kernel) (List.Subset.refl _)) s)
      (List.Subset.refl _)
  unfold eraseNext
  dsimp only
  split
  · exact go haltWork fun s => (frame_haltWork s).within
  · split
    · exact go zeroizeWork fun s => (frame_zeroizeWork s).within
    · split
      · exact go destroyWork fun s => (frame_destroyWork s).within
      · exact .ite (frame_startScrub s).within (frame_finishErase _ s).within

/-! ## The Rekey Engine -/

/-- What the end or the going on of a rekey changes in the event of a completion. -/
abbrev completionFields : List Field :=
  [.cRanges, .cRekey, .requests, .waits, .order, .seen, .completing, .secQueue, .marks]

theorem frame_endRekey (k : RekeyRec) (seen : Nat) (s : State) : Frame completionFields s (endRekey k seen s) := by
  have both := frame_withTouched (L := [.cRanges, .cRekey, .requests]) (f := fun s =>
      putRekey none (putBy .rekeyEngine (.range k.range { s.copies.ranges[k.range] with
        current := s.copies.ranges[k.range].next, next := none, generation := k.nextGeneration }) s))
    (fun s => (frame_put _ _ .cRekey).after (frame_putBy _ _ s .cRanges)) s
  have marked : ∀ m : State,
      Frame completionFields m { m with rekey := { m.rekey with seen := some (k.range, seen), completing := true } } :=
    fun _ => ⟨rfl, rfl, le_rfl⟩
  unfold endRekey
  dsimp only
  exact (frame_addWait _ _ _).after (both.andThen (marked _) (hm := List.Subset.refl _)) (List.Subset.refl _)

theorem frame_rewriteRekey (k : RekeyRec) (s : State) :
    Frame [.cRekey, .requests, .waits, .completing] s (rewriteRekey k s) := by
  have written := frame_withTouched (fun s => frame_put (.rekey (some k)) s .cRekey) s
  have marked : ∀ m : State, Frame [.completing] m { m with rekey := { m.rekey with completing := true } } :=
    fun _ => ⟨rfl, rfl, le_rfl⟩
  exact (frame_addWait _ _ _).after (written.andThen (N := [.cRekey, .requests, .completing]) (marked _))

theorem frame_rekeyAdvances (k : RekeyRec) (w : Extent) (s : State) : Frame completionFields s (rekeyAdvances k w s) := by
  have half : ∀ p : Prop, [Decidable p] → Frame completionFields s (if p then noticeSec (.rekeyHalf k.range) s else s) :=
    fun _ _ => .ite (frame_noticeSec _ s).within (.refl _ s)
  have seen : ∀ m : State,
      Frame completionFields m { m with rekey := { m.rekey with seen := some (k.range, k.frontier) } } :=
    fun _ => ⟨rfl, rfl, le_rfl⟩
  exact .ite ((half _).trans (frame_endRekey k _ _)) ((half _).trans ((seen _).trans (frame_rewriteRekey _ _).within))

theorem frame_rekeyFails (k : RekeyRec) (s : State) : Frame completionFields s (rekeyFails k s) :=
  .ite (frame_rewriteRekey _ s).within ((frame_noticeSec _ _).after (frame_rewriteRekey _ s))

theorem frame_rekeyCompletes (o : MigOrder) (ok : Bool) (s : State) :
    Frame completionFields s (rekeyCompletes o ok s) := by
  have taken : Frame completionFields s { s with rekey := { s.rekey with order := none } } := ⟨rfl, rfl, le_rfl⟩
  unfold rekeyCompletes
  dsimp only
  split
  · exact taken.trans (.ite (frame_rekeyAdvances _ _ _) (frame_rekeyFails _ _))
  · exact taken

/-- What the closing steps of a rekey change. -/
abbrev closingFields : List Field := .seen :: .completing :: .hold :: .table :: .slots :: windowFields

theorem frame_closingSteps (s : State) : Frame closingFields s (closingSteps s) := by
  have cleared : Frame closingFields s
      { s with rekey := { s.rekey with fence := none, seen := none, completing := false } } := ⟨rfl, rfl, le_rfl⟩
  exact (frame_chooseWindow _).after ((frame_releaseHold _).after (N := closingFields) cleared)

theorem frame_handOver (r : Fin 16) (s : State) : Frame [.ranges, .slots] s (handOver r s) := by
  have handed : ∀ run k, Frame [.ranges, .slots] s (retireSlot k (setRun r run s)) := fun run k =>
    (frame_setRun r run s).andThen (frame_setSlot k _ _)
  unfold handOver
  split
  · split
    · exact handed _ _
    · exact .refl _ s
  · split
    · exact handed _ _
    · exact .refl _ s
  · exact .refl _ s

theorem frame_rekeyEnded (r : Fin 16) (s : State) :
    Frame (.ranges :: .secQueue :: .marks :: closingFields) s (rekeyEnded r s) :=
  (frame_closingSteps _).after ((frame_noticeSec _ _).after (N := [.ranges, .slots, .secQueue, .marks])
    (frame_handOver r s))

theorem frame_orderDone (num : Nat) (ok : Bool) (s : State) :
    Frame (completionFields ++ scrubFields) s (orderDone num ok s) := by
  have scrub : Frame (completionFields ++ scrubFields) s (match scrubOrder num s with
      | some p => scrubCompletes p ok s
      | none => s) := by
    split
    · exact (frame_scrubCompletes _ _ s).within
    · exact .refl _ s
  unfold orderDone
  split
  · exact .ite (frame_rekeyCompletes _ _ s).within scrub
  · exact scrub

theorem frame_startRekey (r : Fin 16) (s : State) :
    Frame (.draws :: .slots :: .ranges :: completionFields) s (startRekey r s) := by
  unfold startRekey
  split
  · dsimp only
    split
    · rename_i h _ _ m _ ha
      have taken := (frame_drawKey s).andThen (N := [.draws, .slots]) (frame_allocOne ha)
      have put := fun k rec run =>
        (frame_put (.rekey k) _ .cRekey).after (N := .draws :: .slots :: .ranges :: completionFields)
          ((frame_putBy .rekeyEngine (.range r rec) _ .cRanges).after (N := [.draws, .slots, .ranges, .cRanges, .requests])
            ((frame_setRun r run _).after (N := [.draws, .slots, .ranges]) taken))
      exact .ite ((put _ _ _).trans (frame_endRekey _ _ _).within) ((put _ _ _).trans (frame_addWait _ _ _).within)
    · exact (frame_drawKey s).within
  · exact .refl _ s

theorem frame_resumeFaulted (s : State) : Frame [.cRekey, .requests, .waits] s (resumeFaulted s) := by
  unfold resumeFaulted
  split
  · exact (frame_put _ s .cRekey).andThen (frame_addWait _ _ _)
  · exact .refl _ s

/-! ## Transfers -/

theorem frame_holdOrRefuse (t : Fin 32) (cls : XferClass) (e : Extent) (s : State) :
    Frame [.table, .hold, .outbox] s (holdOrRefuse t cls e s) :=
  .ite (Frame.after (L := [.table, .hold]) (frame_pushFrame _ _) ⟨rfl, rfl, le_rfl⟩) (frame_pushFrame _ s).within

theorem frame_takeDescriptor (t : Fin 32) (cls : XferClass) (e : Extent) (order : Nat) (s : State) :
    Frame (.hold :: admitFields) s (takeDescriptor t cls e order s) := by
  unfold takeDescriptor
  split
  · exact (frame_pushFrame _ s).within
  · split
    · exact (frame_pushFrame _ s).within
    · split
      · exact (frame_pushFrame _ s).within
      · exact .ite (frame_holdOrRefuse t cls e s).within (frame_admitEntry t _ _ _ _ s).within

theorem frame_freeTag (t : Fin 32) (s : State) : Frame [.table, .units] s (freeTag t s) := ⟨rfl, rfl, le_rfl⟩

/-- What the end of a transfer changes. -/
abbrev endFields : List Field := .units :: abortFields

theorem frame_endAdmitted (t : Fin 32) (x : Xfer) (st : EndStatus) (s : State) :
    Frame endFields s (endAdmitted t x st s) :=
  (frame_leaveAdmitted x _).after ((frame_pushFrame _ _).after (N := [.table, .units, .outbox]) (frame_freeTag t s))

theorem frame_endAborting (t : Fin 32) (x : Xfer) (st : EndStatus) (s : State) :
    Frame [.table, .units, .outbox] s (endAborting t x st s) :=
  (frame_pushFrame _ _).after (frame_freeTag t s)

theorem frame_stopTransfer (t : Fin 32) (s : State) : Frame (.hold :: endFields) s (stopTransfer t s) := by
  unfold stopTransfer
  split
  · exact (frame_endAdmitted t _ _ s).within
  · exact (frame_endAborting t _ _ s).within
  · exact (frame_refuseHeld _ _ t s).within
  · exact .refl _ s

theorem frame_unitArrives (t : Fin 32) (index : Nat) (payload : UnitData) (s : State) :
    Frame [.units] s (unitArrives t index payload s) := by
  unfold unitArrives
  dsimp only
  split <;> exact ⟨rfl, rfl, le_rfl⟩

theorem frame_abortedUnit (t : Fin 32) (index : Nat) (x : Xfer) (s : State) :
    Frame [.table, .units, .outbox] s (abortedUnit t index x s) := by
  have answered := (frame_pushFrame (.xferUnit t true index 0) _).after (N := [.table, .units, .outbox])
    (frame_setEntry t (.aborting { x with answered := x.answered + 1 }) s)
  exact .ite (answered.trans (frame_endAborting t _ _ _)) answered

theorem frame_takeUnit {s t : State} (h : takeUnit s = some t) : Frame endFields s t := by
  unfold takeUnit at h
  split at h
  · cases h
    exact .refl _ s
  · rename_i u rest _
    have taken : Frame endFields s { s with drive := { s.drive with units := rest } } := ⟨rfl, rfl, le_rfl⟩
    dsimp only at h
    split at h
    · split at h
      · split at h
        · cases h
          have answered := fun f e => taken.trans
            ((frame_pushFrame f _).after (N := endFields) (frame_setEntry u.tag e _))
          exact .ite ((answered _ _).trans (frame_endAdmitted _ _ _ _)) (answered _ _)
        · cases h
      · cases h
        exact taken.trans (frame_endAdmitted _ _ _ _)
    · cases h
      exact taken.trans (frame_abortedUnit _ _ _ _).within
    · cases h
      exact taken
    · cases h
      exact taken

theorem frame_closeExpires (r : Fin 16) (s : State) : Frame abortFields s (closeExpires r s) := by
  unfold closeExpires
  split
  · exact (frame_closeIfDrained r _).after (frame_abortWhere _ s)
  · exact .refl _ s

theorem frame_drainSlot (k : Fin 18) (s : State) : Frame [.slots] s (drainSlot k s) := by
  unfold drainSlot
  split
  · exact frame_setSlot _ _ s
  · exact .refl _ s

/-! ## Requests -/

theorem frame_requestDerivation (j : DerivJob) (s : State) : Frame [.derive] s (requestDerivation j s) := by
  unfold requestDerivation
  split <;> exact ⟨rfl, rfl, le_rfl⟩

theorem frame_secSecond (j : DerivJob) (s : State) : Frame [.derive, .sec] s (secSecond j s) :=
  (frame_requestDerivation j _).after (frame_modSec _ s)

theorem frame_secNewVerifier (secret : Secret) (s : State) :
    Frame [.draws, .derive, .sec] s (secNewVerifier secret s) :=
  (frame_secSecond _ _).after (frame_drawSalt s)

theorem frame_charge (c : Fin 8) (s : State) : Frame [.cCharged, .cCreds, .requests, .sec] s (charge c s) :=
  (frame_modSec _ _).after ((frame_put (.cred c _) _ .cCreds).after (N := [.cCharged, .cCreds, .requests])
    (frame_put (.charged _) s .cCharged))

/-- What the taking of a credential-bearing request changes. -/
abbrev testFields : List Field := .cCharged :: .cCreds :: .requests :: replyFields

theorem frame_beginTest (req : Instr) (s : State) : Frame testFields s (beginTest req s) := by
  unfold beginTest
  split
  · exact (frame_secReply _ _ s).within
  · split
    · exact .refl _ s
    · split
      · exact (frame_secReply _ _ s).within
      · exact (frame_charge _ s).within

theorem frame_chargeWritten (req : Instr) (s : State) : Frame [.derive, .sec] s (chargeWritten req s) := by
  unfold chargeWritten
  split
  · exact .refl _ s
  · exact (frame_requestDerivation _ _).after (frame_modSec _ s)

theorem frame_exhaust (s : State) : Frame startFields s (exhaust s) := by
  have noted : ∀ (m : State) l, Frame startFields m { m with store := { m.store with touched := l } } :=
    fun _ _ => ⟨rfl, rfl, le_rfl⟩
  exact .ite ((frame_startErase _ s).trans (noted _ _)) (.refl _ s)

theorem frame_disableAtLimit (c : Fin 8) (s : State) : Frame [.cCreds, .requests] s (disableAtLimit c s) :=
  .ite (frame_put (.cred c _) s .cCreds) (.refl _ s)

/-- What a verdict, with what evidence brings about, changes. -/
abbrev verdictFields : List Field := .holdoff :: .cCreds :: .cCharged :: evidenceFields

theorem frame_mismatchVerdict (c : Fin 8) (s : State) : Frame verdictFields s (mismatchVerdict c s) := by
  have stopped : ∀ (m : State) n, Frame verdictFields m { m with cred := { m.cred with holdoff := n } } :=
    fun _ _ => ⟨rfl, rfl, le_rfl⟩
  exact (frame_secFinish _ _ _).after ((frame_disableAtLimit c _).after (N := verdictFields)
    ((frame_exhaust _).after (((frame_takeEvidence _ s).within).trans (stopped _ _)) (List.Subset.refl _)))

theorem frame_successResets (c : Fin 8) (key : CredKey) (s : State) :
    Frame verdictFields s (successResets c key s) := by
  have stopped : ∀ (m : State) n, Frame verdictFields m { m with cred := { m.cred with holdoff := n } } :=
    fun _ _ => ⟨rfl, rfl, le_rfl⟩
  have reset := (frame_put (.cred c { s.copies.creds[c] with ownCount := 0 }) _ .cCreds).after (N := verdictFields)
    (frame_put (.charged 0) s .cCharged)
  exact (frame_reportSuccess _ _).after ((frame_modSec _ _).after (N := verdictFields) (reset.trans (stopped _ _)))

theorem frame_openMarked (c : Fin 8) (key : CredKey) (r : Fin 16) (s : State) :
    Frame openFields s (openMarked c key r s).2 := by
  unfold openMarked
  split
  · exact .refl _ s
  · split
    · exact .refl _ s
    · exact frame_openRange _ _ _ s

theorem frame_completePass (c : Fin 8) (key : CredKey) (held : Option Code) (l : List (Fin 16 × Option Code)) (s : State) :
    Frame openFields s (completePass c key held l s).2 := by
  induction l generalizing s with
  | nil => exact .refl _ s
  | cons m l ih =>
    obtain ⟨r, code | _⟩ := m
    · cases held with
      | some code => exact ih s
      | none => exact (frame_openMarked c key r s).trans (ih _)
    · exact ih s

/-- What UNLOCK's effect changes. -/
abbrev unlockFields : List Field := .cWraps :: .ranges :: evidenceFields

theorem frame_unlockEffect (c : Fin 8) (key : CredKey) (ranges : List Byte) (s : State) :
    Frame unlockFields s (unlockEffect c key ranges s) := by
  unfold unlockEffect
  have visited := fun l : List (Fin 16) =>
    (Frame.foldl (f := fun s r => purgeStale (.slot c) r s) (fun s r => frame_purgeStale _ r s) l s).within (M := unlockFields)
  exact (frame_secFinish _ _ _).after ((frame_completePass _ _ _ _ _).after (N := unlockFields)
    (.ite ((visited _).trans (frame_takeEvidence _ _).within) (visited _)))

theorem frame_rewrapFrom (c : Fin 8) (old new : CredKey) (l : List (Fin 16)) (s : State) :
    Frame wrapFields s (rewrapFrom c old new l s).2 := by
  induction l generalizing s with
  | nil => exact .refl _ s
  | cons r l ih =>
    have purged := frame_purgeStale (.slot c) r s
    unfold rewrapFrom
    dsimp only
    split
    · exact purged.trans (ih _)
    · split
      · exact purged.trans (ih _)
      · split
        · exact (purged.trans (frame_putWrap _ _ _)).trans (ih _)
        · exact purged.trans (ih _)

/-- What the requests that administer credentials and wrap entries change. -/
abbrev recordFields : List Field := .cCreds :: .cToken :: .draws :: .derive :: wrapFields ++ replyFields

theorem frame_secretChanged (c : Fin 8) (old new : CredKey) (s : State) :
    Frame recordFields s (secretChanged c old new s) :=
  (frame_secFinish _ _ _).after ((frame_put (.cred c _) _ .cCreds).after (N := recordFields)
    (frame_rewrapFrom c old new (List.finRange 16) s))

theorem frame_setSecretEffect (target : Fin 8) (secret : Secret) (s : State) :
    Frame recordFields s (setSecretEffect target secret s) :=
  (frame_secNewVerifier _ _).after (frame_removeHolderWraps _ s)

theorem frame_secretSet (target : Fin 8) (key : CredKey) (s : State) : Frame recordFields s (secretSet target key s) :=
  (frame_secFinish _ _ _).after (frame_put (.cred target _) s .cCreds)

theorem frame_enableEffect (target : Fin 8) (s : State) : Frame recordFields s (enableEffect target s) := by
  have put := fun r => frame_put (.cred target r) s .cCreds
  unfold enableEffect
  dsimp only
  split
  · exact (frame_secFinish _ _ s).within
  · exact (frame_secFinish _ _ _).after (put _)
  · exact (frame_secFinish _ _ _).after (.ite (.refl _ s) (put _))

theorem frame_removeEffect (target : Fin 8) (s : State) : Frame recordFields s (removeEffect target s) :=
  .ite (frame_secFinish _ _ s).within ((frame_secFinish _ _ _).after ((frame_put (.cred target _) _ .cCreds).after
    (N := recordFields) (frame_removeHolderWraps _ s)))

theorem frame_beginOwnership (secret : Secret) (s : State) :
    Frame (.draws :: .derive :: replyFields) s (beginOwnership secret s) :=
  .ite (frame_secReply _ _ s).within (.ite (frame_secReply _ _ s).within (frame_secNewVerifier _ s).within)

theorem frame_ownOpenRanges (key : CredKey) (l : List (Fin 16)) (s : State) :
    Frame wrapFields s (ownOpenRanges key l s).2 := by
  induction l generalizing s with
  | nil => exact .refl _ s
  | cons r l ih =>
    unfold ownOpenRanges
    split
    · exact (frame_addWrap _ _ r _ _ s).trans (ih _)
    · exact ih s

theorem frame_ownershipTaken (key : CredKey) (s : State) : Frame recordFields s (ownershipTaken key s) :=
  .ite (frame_secFinish _ _ s).within ((frame_secFinish _ _ _).after ((frame_ownOpenRanges key (List.finRange 16) _).after
    (N := recordFields) (frame_put (.cred 0 _) s .cCreds)))

theorem frame_addGrant (who : Holder) (under : WrapUnder) (r : Fin 16) (a : Access) (s : State) :
    Frame recordFields s (addGrant who under r a s) := by
  unfold addGrant
  split
  · rename_i h _
    have added := frame_addWrap who under r a h.key s
    split
    · rename_i e
      rw [e] at added
      exact (frame_secFinish _ _ _).after added
    · rename_i e
      rw [e] at added
      exact (frame_secFinish _ _ _).after added
  · exact (frame_secFinish _ _ s).within

theorem frame_grantEffect (c : Fin 8) (key : CredKey) (who : Holder) (r : Fin 16) (a : Access) (second : Secret)
    (s : State) : Frame recordFields s (grantEffect c key who r a second s) := by
  have purged : Frame recordFields s (purgeStale who r s) := (frame_purgeStale who r s).within
  have refused := fun k => (frame_secFinish k .empty _).after (N := recordFields) purged
  refine .ite (refused _) (.ite (refused _) (.ite (refused _) ?_))
  split
  · exact purged.trans (frame_addGrant _ _ r a _)
  · exact .ite (purged.trans (frame_addGrant _ _ r a _)) ((frame_secSecond _ _).after purged)

theorem frame_grantDerived (t : Fin 8) (r : Fin 16) (a : Access) (key : CredKey) (s : State) :
    Frame recordFields s (grantDerived t r a key s) :=
  .ite (frame_addGrant _ _ r a s) (frame_secFinish _ _ s).within

theorem frame_revokeEffect (who : Holder) (r : Fin 16) (s : State) : Frame recordFields s (revokeEffect who r s) :=
  (frame_secFinish _ _ _).after (frame_removeWraps _ s)

theorem frame_tokenEffect (token : Secret) (s : State) : Frame recordFields s (tokenEffect token s) :=
  .ite ((frame_secFinish _ _ _).after (frame_put _ s .cToken)) (frame_secNewVerifier _ s).within

theorem frame_tokenSet (key : CredKey) (s : State) : Frame recordFields s (tokenSet key s) :=
  (frame_secFinish _ _ _).after (frame_put _ s .cToken)

/-- What the requests that renew, delete or relabel ranges change. -/
abbrev rangeFields : List Field := .pendingSet :: .counter :: renewFields

theorem frame_renewAndOwn (c : Fin 8) (key : CredKey) (r : Fin 16) (upd : RangeRec → RangeRec) (s : State) :
    Frame rangeFields s (renewAndOwn c key r upd s) := by
  have renewed := frame_renewRange r upd s
  unfold renewAndOwn
  generalize renewRange r upd s = x at renewed ⊢
  exact (frame_secFinish _ _ _).after ((frame_ownerEntries _ _ _ _ _).after (N := rangeFields) renewed)

theorem frame_defineEffect (c : Fin 8) (key : CredKey) (r : Fin 16) (e : Extent) (a : Attributes) (s : State) :
    Frame rangeFields s (defineEffect c key r e a s) :=
  .ite (frame_secFinish _ _ s).within <| .ite (frame_secFinish _ _ s).within <| .ite (frame_secFinish _ _ s).within
    ((frame_renewAndOwn c key r _ _).after (frame_abortWhere _ s))

theorem frame_deleteEffect (r : Fin 16) (s : State) : Frame rangeFields s (deleteEffect r s) :=
  .ite (frame_secFinish _ _ s).within <| .ite (frame_secFinish _ _ s).within
    ((frame_secFinish _ _ _).after ((frame_leavePending r _).after (N := rangeFields)
      ((frame_deleteRange r _).after (N := rangeFields) (frame_abortWhere _ s))))

theorem frame_eraseRangeEffect (c : Fin 8) (key : CredKey) (r : Fin 16) (s : State) :
    Frame rangeFields s (eraseRangeEffect c key r s) :=
  .ite (frame_secFinish _ _ s).within <| .ite (frame_secFinish _ _ s).within
    ((frame_renewAndOwn c key r _ _).after (frame_abortWhere _ s))

/-- What SET_RANGE_ATTRIBUTES changes. -/
abbrev attributeFields : List Field := .cRanges :: .pendingSet :: wrapFields ++ replyFields

theorem frame_attributesEffect (r : Fin 16) (a : Attributes) (s : State) :
    Frame attributeFields s (attributesEffect r a s) := by
  have purged : Frame attributeFields s (purgeStale .device r s) := (frame_purgeStale .device r s).within
  have refused := fun k => (frame_secFinish k .empty _).after (N := attributeFields) purged
  have written := fun rec => (frame_put (.range r rec) _ .cRanges).after (N := attributeFields) purged
  have added : ∀ m, Frame attributeFields s m → Frame attributeFields s (match heldBy m.ranges[r].run with
      | some h => (addWrap .device (deviceWrap m) r .full h.key m).2
      | none => m) := by
    intro m hm
    split
    · exact hm.trans (frame_addWrap _ _ r _ _ m).within
    · exact hm
  have removed : ∀ m, Frame attributeFields s m → Frame attributeFields s (removeEntry .device r m) :=
    fun m hm => hm.trans (frame_removeWraps _ m).within
  have left : ∀ m, Frame attributeFields s m → Frame attributeFields s (leavePending r m) :=
    fun m hm => hm.trans (frame_leavePending r m).within
  unfold attributesEffect
  dsimp only
  split
  · exact refused _
  · split
    · exact refused _
    · split
      · exact refused _
      · refine (frame_secFinish _ _ _).after (.ite (left _ ?entries) ?entries) (List.Subset.refl _)
        refine .ite (removed _ ?device) ?device
        exact .ite (added _ (written _)) (written _)


theorem frame_setBinding (b : Binding) (s : State) : Frame [.sensors] s (setBinding b s) := ⟨rfl, rfl, le_rfl⟩

/-- What the storing or removal of a binding changes. -/
abbrev bindingFields : List Field := .cDigest :: .sensors :: .pendingSet :: .sec :: autoOpenFields

theorem frame_bindEffect (s : State) : Frame bindingFields s (bindEffect s) := by
  unfold bindEffect
  split
  · exact (frame_secFinish _ _ s).within
  · exact (frame_secFinish _ _ _).after ((frame_applyPending _).after (N := bindingFields)
      ((frame_setBinding _ _).after (N := bindingFields) (frame_put (.digest _) s .cDigest)))

theorem frame_unbindEffect (s : State) : Frame bindingFields s (unbindEffect s) :=
  .ite (frame_secFinish _ _ s).within ((frame_secFinish _ _ _).after ((frame_applyPending _).after (N := bindingFields)
      ((frame_setBinding _ _).after (N := bindingFields) (frame_put (.digest _) s .cDigest))))

/-- What the writing of a policy brings about. -/
abbrev policyFields : List Field := .cPolicy :: .sensors :: evidenceFields

theorem frame_policyEffect (p : Policy) (s : State) : Frame [.requests, .sec] s (policyEffect p s) :=
  (frame_modSec _ _).after (frame_askWrite _ s)

theorem frame_policyWritten (p : Policy) (s : State) : Frame policyFields s (policyWritten p s) := by
  have changed : Frame policyFields s { s with copies := { s.copies with policy := p } } := ⟨rfl, rfl, le_rfl⟩
  exact (frame_secFinish _ _ _).after ((frame_decayExpires _).after (N := policyFields)
    ((frame_checkinExpires _).after (N := policyFields) (changed.andThen (N := policyFields) (frame_evaluate _ _))))

theorem frame_readIncidentsEffect (n : Nat) (s : State) : Frame replyFields s (readIncidentsEffect n s) :=
  frame_secFinish _ _ s

theorem frame_clearIncidentsEffect (s : State) : Frame (.cIncidents :: .requests :: replyFields) s (clearIncidentsEffect s) :=
  (frame_secFinish _ _ _).after (frame_put _ s .cIncidents)

/-- What the start or the resumption of a rekey changes. -/
abbrev startRekeyFields : List Field := .draws :: .slots :: .ranges :: .sec :: .outbox :: completionFields

theorem frame_rekeyStartEffect (r : Fin 16) (s : State) : Frame startRekeyFields s (rekeyStartEffect r s) := by
  unfold rekeyStartEffect
  split
  · exact (frame_secFinish _ _ s).within
  · exact (frame_secFinish _ _ _).after (frame_startRekey r s)

theorem frame_rekeyResumeEffect (s : State) : Frame startRekeyFields s (rekeyResumeEffect s) := by
  unfold rekeyResumeEffect
  split
  · exact (frame_secFinish _ _ s).within
  · exact (frame_secFinish _ _ _).after (frame_resumeFaulted s)

theorem frame_eraseAllEffect (s : State) : Frame (startFields ++ replyFields) s (eraseAllEffect s) :=
  (frame_secFinish _ _ _).after (frame_startErase _ s)

theorem frame_renewAll (l : List (Fin 16)) (s : State) : Frame renewFields s (renewAll l s).2 := by
  induction l generalizing s with
  | nil => exact .refl _ s
  | cons r l ih =>
    have renewed := frame_renewRange r id s
    unfold renewAll
    generalize renewRange r id s = x at renewed ⊢
    split
    · exact renewed.trans (ih _)
    · exact ih s

theorem frame_clearOwnCounts (s : State) : Frame [.cCreds, .requests] s (clearOwnCounts s) :=
  .foldl (fun s c => .ite (.refl _ s) (frame_put (.cred c _) s .cCreds)) _ s

/-- What REPROVISION changes before its writes are done. -/
abbrev reprovisionFields : List Field := .cCreds :: .cJournal :: renewFields

theorem frame_reprovisionEffect (c : Fin 8) (key : CredKey) (s : State) :
    Frame reprovisionFields s (reprovisionEffect c key s) := by
  have renewed := frame_renewAll (List.finRange 16) s
  unfold reprovisionEffect
  generalize renewAll (List.finRange 16) s = x at renewed ⊢
  have owned := (Frame.foldl (f := fun s (x : Fin 16 × Key × Bool) => ownerEntries c key x.1 x.2.1 s)
    (fun s x => frame_ownerEntries c key x.1 x.2.1 s) x.1 _).after (N := reprovisionFields) renewed
  exact (frame_modSec _ _).after ((frame_put (.journal none) _ .cJournal).after (N := reprovisionFields)
    ((frame_clearOwnCounts _).after (N := reprovisionFields) owned))

theorem frame_reprovisioned (l : List (Fin 16)) (s : State) : Frame evidenceFields s (reprovisioned l s) :=
  (frame_secFinish _ _ _).after (frame_enterWatch _ s)

/-! ## The security channel -/

theorem frame_maskRequest (m : BitVec 16) (s : State) : Frame (.masks :: replyFields) s (maskRequest m s) :=
  .ite ((frame_secReply _ _ _).after (frame_setSecMask m s)) (frame_secReply _ _ s).within

theorem frame_awaitCloses (s : State) : Frame settleFields s (awaitCloses s) :=
  (frame_settleWaiters _).after (frame_modSec _ s)

/-- What LOCK and LOCK_ALL change. -/
abbrev lockFields : List Field := .pendingSet :: orderlyFields

theorem frame_lockRequest (b : Byte) (s : State) : Frame lockFields s (lockRequest b s) :=
  .ite ((frame_awaitCloses _).after ((frame_orderlyClose _ _ _).after (N := lockFields) (frame_leavePending _ s)))
    (frame_secReply _ _ s).within

theorem frame_lockAllRequest (s : State) : Frame lockFields s (lockAllRequest s) :=
  (frame_awaitCloses _).after ((Frame.foldl (L := orderlyFields)
    (fun s r => .ite (frame_orderlyClose r _ s) (.refl _ s)) _ _).after (N := lockFields) (frame_setPending _ s))

/-- What the taking of a request changes. -/
abbrev requestFields : List Field := .masks :: .cCreds :: .cCharged :: .draws :: .derive :: lockFields

theorem frame_beginRequest (req : Instr) (s : State) : Frame requestFields s (beginRequest req s) := by
  unfold beginRequest
  split
  · exact (frame_secReply _ _ s).within
  · exact (frame_secReply _ _ s).within
  · exact (frame_maskRequest _ s).within
  · exact (frame_lockRequest _ s).within
  · exact (frame_lockAllRequest s).within
  · exact (frame_beginOwnership _ s).within
  · exact (frame_beginTest _ s).within

theorem frame_answerAtOnce (req : Instr) (c : Code) (s : State) : Frame [.outbox] s (answerAtOnce req c s) :=
  frame_pushFrame _ s

theorem frame_takeRequest (req : Instr) (s : State) : Frame requestFields s (takeRequest req s) := by
  have taken : Frame requestFields s { s with cmd := { s.cmd with sec := some ⟨req, false, .taken, [], [], false⟩ } } :=
    ⟨rfl, rfl, le_rfl⟩
  exact .ite (frame_answerAtOnce _ _ s).within <| .ite (frame_answerAtOnce _ _ s).within
    (.ite (taken.trans (frame_beginRequest req _)) (taken.trans (frame_secReply _ _ _).within))

/-- What the end of a security derivation changes. -/
abbrev derivedFields : List Field :=
  .cToken :: .cDigest :: .cRanges :: .draws :: .derive :: .sensors :: .cWraps :: .seen :: .completing :: .ranges
    :: verdictFields

theorem frame_requestEffect (req : Instr) (c : Fin 8) (key : CredKey) (s : State) :
    Frame derivedFields s (requestEffect req c key s) := by
  unfold requestEffect
  split
  · exact (frame_unlockEffect _ _ _ s).within
  · exact (frame_secNewVerifier _ s).within
  · exact (frame_setSecretEffect _ _ s).within
  · exact (frame_enableEffect _ s).within
  · exact (frame_removeEffect _ s).within
  · exact (frame_grantEffect _ _ _ _ _ _ s).within
  · exact (frame_revokeEffect _ _ s).within
  · exact (frame_defineEffect _ _ _ _ _ s).within
  · exact (frame_deleteEffect _ s).within
  · exact (frame_attributesEffect _ _ s).within
  · exact (frame_eraseRangeEffect _ _ _ s).within
  · exact (frame_policyEffect _ s).within
  · exact (frame_bindEffect s).within
  · exact (frame_unbindEffect s).within
  · exact (frame_tokenEffect _ s).within
  · exact (frame_readIncidentsEffect _ s).within
  · exact (frame_clearIncidentsEffect s).within
  · exact (frame_rekeyStartEffect _ s).within
  · exact (frame_rekeyResumeEffect s).within
  · exact (frame_eraseAllEffect s).within
  · exact (frame_reprovisionEffect _ _ s).within
  · exact .refl _ s

theorem frame_successVerdict (req : Instr) (c : Fin 8) (key : CredKey) (s : State) :
    Frame derivedFields s (successVerdict req c key s) := by
  unfold successVerdict
  dsimp only
  split
  · exact (frame_secFinish _ _ _).after (frame_successResets c key s)
  · exact (frame_requestEffect req c key _).after (frame_successResets c key s)

theorem frame_verdict (req : Instr) (key : CredKey) (s : State) : Frame derivedFields s (verdict req key s) := by
  unfold verdict
  split
  · exact .refl _ s
  · exact .ite (frame_successVerdict _ _ _ s) (frame_mismatchVerdict _ s).within

theorem frame_secondDerived (req : Instr) (keys : List CredKey) (key : CredKey) (s : State) :
    Frame recordFields s (secondDerived req keys key s) := by
  unfold secondDerived
  split
  · exact frame_ownershipTaken key s
  · split
    · exact frame_secretChanged _ _ key s
    · exact .refl _ s
  · exact frame_secretSet _ key s
  · exact frame_grantDerived _ _ _ key s
  · exact frame_tokenSet key s
  · exact .refl _ s

theorem frame_secDerived (key : CredKey) (s : State) : Frame derivedFields s (secDerived key s) := by
  unfold secDerived
  split
  · exact .refl _ s
  · split
    · exact frame_verdict _ key s
    · exact (frame_secondDerived _ _ key _).after (frame_modSec _ s)
    · exact .refl _ s

/-! ## The platform -/

theorem frame_setBuffer (b : Option PlatAnswer) (s : State) : Frame [.buffer] s (setBuffer b s) := ⟨rfl, rfl, le_rfl⟩

theorem frame_writeTransaction {L : List Field} (m : Instr) (malformed : Bool) {f : State → State}
    (h : ∀ s, Frame L s (f s)) (s : State) (hL : [.buffer, .plat] ⊆ L := by decide +kernel) :
    Frame L s (writeTransaction m malformed f s) := by
  have taken : ∀ j, Frame [.buffer, .plat] s { setBuffer none s with cmd := { s.cmd with plat := some j } } :=
    fun _ => ⟨rfl, rfl, le_rfl⟩
  have placed := fun b => ((frame_setBuffer b s).within (M := [.buffer, .plat])).mono hL
  exact .ite (.refl _ s) (.ite (placed _) (.ite (placed _) (((taken _).mono hL).trans (h _))))

/-- What a platform message changes. -/
abbrev messageFields : List Field := .sensors :: .plat :: .buffer :: evidenceFields

theorem frame_closeBound (s : State) : Frame orderlyFields s (closeBound s) :=
  .foldl (fun s r => .ite (frame_orderlyClose r none s) (.refl _ s)) _ s

theorem frame_bindMessage (w : BindingWord) (s : State) :
    Frame (.cWraps :: messageFields) s (bindMessage w s) := by
  have heard : Frame (.cWraps :: messageFields) s { s with watch := { s.watch with lastWord := some w } } :=
    ⟨rfl, rfl, le_rfl⟩
  have bound := fun b => (frame_setBinding b _).after (N := .cWraps :: messageFields) heard
  refine .ite ((frame_platReply _ _ _).after heard) (.ite ?_ ?_)
  · exact (frame_platReply _ _ _).after (.ite (bound _) ((frame_applyPending _).after (bound _))) (List.Subset.refl _)
  · exact (frame_platReply _ _ _).after ((frame_takeEvidence _ _).after
      (.ite ((frame_closeBound _).after (bound _)) (bound _)) (List.Subset.refl _)) (List.Subset.refl _)

theorem frame_arm (s : State) : Frame [.sensors] s (arm s) := ⟨rfl, rfl, le_rfl⟩

theorem frame_checkinMessage (w : BindingWord) (s : State) : Frame messageFields s (checkinMessage w s) := by
  have answered := fun c => (frame_platReply c .empty s).within (M := messageFields)
  have told := fun c e => (frame_platReply c .empty _).after (N := messageFields) (frame_takeEvidence e s)
  have armed := fun c => (frame_platReply c .empty _).after (N := messageFields) (frame_arm s)
  unfold checkinMessage
  dsimp only
  split
  · exact answered _
  · exact answered _
  · exact .ite (armed _) (told _ _)
  · exact .ite (told _ _) (.ite (told _ _) (armed _))

theorem frame_sleepClose (r : Fin 16) (s : State) : Frame orderlyFields s (sleepClose r s) :=
  .ite ((frame_orderlyClose r _ _).after (.ite (frame_setMark r true s) (.refl _ s))) (.refl _ s)

/-- What SLEEP changes. -/
abbrev sleepFields : List Field := .sensors :: orderlyFields

theorem frame_sleepMessage (s : State) : Frame sleepFields s (sleepMessage s) := by
  refine .ite (frame_platReply _ _ s).within (.ite (frame_platReply _ _ s).within ?_)
  exact (frame_settleWaiters _).after ((frame_modPlat _ _).after (N := sleepFields)
    ((Frame.foldl (fun s r => frame_sleepClose r s) _ _).after (N := sleepFields) (L := [.sensors]) ⟨rfl, rfl, le_rfl⟩))

/-- What WAKE changes. -/
abbrev wakeFields : List Field := .sensors :: .plat :: .buffer :: .pendingSet :: autoOpenFields

theorem frame_wakeRange (r : Fin 16) (s : State) : Frame (.pendingSet :: autoOpenFields) s (wakeRange r s) := by
  have cleared := (frame_setMark r false s).within (M := .pendingSet :: autoOpenFields)
  exact .ite (.ite (cleared.trans (frame_autoOpenOrPend _ r _)) cleared) (.refl _ s)

theorem frame_wakeMessage (s : State) : Frame wakeFields s (wakeMessage s) := by
  have awake : Frame [.sensors] s { s with watch := { s.watch with sleep := .awake } } := ⟨rfl, rfl, le_rfl⟩
  exact .ite (frame_platReply _ _ s).within ((frame_platFinish _ _ _).after
    ((Frame.foldl (fun s r => frame_wakeRange r s) _ _).after (N := wakeFields)
      (.ite (awake.trans (frame_arm _)) awake)))

theorem frame_alertMessage (severity : Byte) (s : State) : Frame messageFields s (alertMessage severity s) :=
  .ite ((frame_platReply _ _ _).after (frame_takeEvidence _ s)) (frame_platReply _ _ s).within

theorem frame_remoteEraseMessage (token : Secret) (s : State) :
    Frame [.derive, .plat, .buffer] s (remoteEraseMessage token s) := by
  unfold remoteEraseMessage
  split
  · exact (frame_platReply _ _ s).within
  · split
    · exact (frame_platReply _ _ s).within
    · exact .ite (frame_platReply _ _ s).within ((frame_requestDerivation _ _).after (frame_modPlat _ s))

theorem frame_tokenDerived (key : CredKey) (s : State) : Frame messageFields s (tokenDerived key s) := by
  unfold tokenDerived
  split
  · exact .refl _ s
  · split
    · exact .ite ((frame_platFinish _ _ _).after (frame_startErase _ s))
        ((frame_platFinish _ _ _).after (frame_takeEvidence _ s))
    · exact .refl _ s

theorem frame_fetchMessage (s : State) : Frame [.plat, .buffer] s (fetchMessage s) := ⟨rfl, rfl, le_rfl⟩

theorem frame_platMaskMessage (m : BitVec 16) (s : State) :
    Frame [.plat, .buffer, .masks, .marks] s (platMaskMessage m s) :=
  (frame_platReply _ _ _).after (frame_setPlatMask m s)

/-- What a read transaction changes. -/
abbrev readFields : List Field := [.buffer, .lastRead, .platQueue, .marks]

theorem frame_setLastRead (a : Option ReadAnswer) (s : State) : Frame [.lastRead] s (setLastRead a s) :=
  ⟨rfl, rfl, le_rfl⟩

theorem frame_readTransaction (s : State) : Frame readFields s (readTransaction s) := by
  have read := fun a => (frame_setLastRead a _).after (N := readFields) (frame_setBuffer none s)
  unfold readTransaction
  dsimp only
  split
  · exact (frame_setLastRead _ s).within
  · split
    · exact read _
    · exact (frame_setPlatQueue _ _).after (read _)
    · split <;> exact (frame_setLastRead _ s).within

theorem frame_platformReset (s : State) : Frame [.plat, .buffer] s (platformReset s) :=
  (frame_setBuffer none _).after (frame_modPlat _ s)

theorem frame_bindingExpires (s : State) : Frame (.sensors :: evidenceFields) s (bindingExpires s) := by
  have expired : Frame (.sensors :: evidenceFields) s { s with watch := { s.watch with deadline := none } } :=
    ⟨rfl, rfl, le_rfl⟩
  unfold bindingExpires
  dsimp only
  refine .ite (.refl _ s) (.ite ((frame_arm _).after ?absent) ?absent)
  exact .ite ((frame_takeEvidence _ _).after ((frame_setBinding _ _).after (N := .sensors :: evidenceFields) expired))
    expired

theorem frame_holdoffExpires (s : State) : Frame [.holdoff, .secQueue, .marks] s (holdoffExpires s) :=
  .ite (.refl _ s) (Frame.after (L := [.holdoff]) (frame_noticeSec _ _) ⟨rfl, rfl, le_rfl⟩)

theorem frame_derivationEnds (s : State) : Frame derivedFields s (derivationEnds s) := by
  unfold derivationEnds
  split
  · exact .refl _ s
  · have next : Frame derivedFields s
        { s with derive := { job := s.derive.waiting.head?, waiting := s.derive.waiting.tail } } := ⟨rfl, rfl, le_rfl⟩
    dsimp only
    split
    · exact next.trans (frame_secDerived _ _)
    · exact next.trans (frame_tokenDerived _ _).within

/-! ## The drive link -/

theorem frame_dropFrame (s : State) (f : OutFrame) : Frame [.secQueue, .marks] s (dropFrame s f) := by
  unfold dropFrame
  split
  · exact frame_noticeSec _ s
  · exact .refl _ s

theorem frame_resetTag (s : State) (t : Fin 32) : Frame abortFields s (resetTag s t) := by
  unfold resetTag
  split
  · exact (frame_leaveAdmitted _ _).after (frame_setEntry t _ s)
  · exact (frame_setEntry t _ s).within
  · exact (frame_setEntry t _ s).within
  · exact .refl _ s

/-- What a drive-link reset changes. -/
abbrev resetFields : List Field := .up :: .units :: .outbox :: .orders :: atOnceFields

theorem frame_forgetScrubs (s : State) : Frame [.orders] s (forgetScrubs s) := ⟨rfl, rfl, le_rfl⟩
theorem frame_forgetRekey (s : State) : Frame [.order, .intended, .fence] s (forgetRekey s) := ⟨rfl, rfl, le_rfl⟩

/-- R173, first half: the link is DOWN, the answers dropped are told, and the engines forget their orders. -/
def resetOrders (s : State) : State :=
  forgetScrubs (forgetRekey (s.drive.outbox.foldl dropFrame (modSec (fun j => { j with lost := true })
    { s with drive := { s.drive with up := false, units := [], outbox := [] } })))

/-- R57: every entry leaves without a frame, and the hold list is empty. -/
def resetEntries (s : State) : State :=
  let t := (List.finRange 32).foldl resetTag s
  { t with adm := { t.adm with hold := [] } }

/-- R28: the slots and the CLOSING ranges that are drained now. -/
def resetCloses (s : State) : State :=
  (List.finRange 16).foldl (fun s r => closeIfDrained r s) ((List.finRange 18).foldl (fun s k => drainSlot k s) s)

theorem driveLinkReset_eq (s : State) : driveLinkReset s = resetCloses (resetEntries (resetOrders s)) := by
  unfold driveLinkReset resetCloses resetEntries resetOrders
  rfl

theorem frame_resetOrders (s : State) :
    Frame [.up, .units, .outbox, .sec, .secQueue, .marks, .order, .intended, .fence, .orders] s (resetOrders s) := by
  have down : Frame [.up, .units, .outbox] s { s with drive := { s.drive with up := false, units := [], outbox := [] } } :=
    ⟨rfl, rfl, le_rfl⟩
  exact (frame_forgetScrubs _).after ((frame_forgetRekey _).after (N := [.up, .units, .outbox, .sec, .secQueue, .marks,
    .order, .intended, .fence]) ((Frame.foldl frame_dropFrame s.drive.outbox _).after (N := [.up, .units, .outbox, .sec,
    .secQueue, .marks]) ((frame_modSec _ _).after (N := [.up, .units, .outbox, .sec]) down)))

theorem frame_resetEntries (s : State) : Frame atOnceFields s (resetEntries s) := by
  have emptied : ∀ m : State, Frame [.hold] m { m with adm := { m.adm with hold := [] } } := fun _ => ⟨rfl, rfl, le_rfl⟩
  exact (emptied _).after (Frame.foldl frame_resetTag (List.finRange 32) s)

theorem frame_resetCloses (s : State) : Frame closeFields s (resetCloses s) :=
  (Frame.foldl (f := fun s r => closeIfDrained r s) (fun s r => frame_closeIfDrained r s) (List.finRange 16) _).after
    (Frame.foldl (f := fun s k => drainSlot k s) (fun s k => frame_drainSlot k s) (List.finRange 18) s)

theorem frame_driveLinkReset (s : State) : Frame resetFields s (driveLinkReset s) := by
  rw [driveLinkReset_eq]
  exact (frame_resetCloses _).after ((frame_resetEntries _).after (N := resetFields) (frame_resetOrders s))

theorem frame_linkHello (s : State) : Frame resetFields s (linkHello s) := by
  have up : ∀ m : State, Frame [.up] m { m with drive := { m.drive with up := true } } := fun _ => ⟨rfl, rfl, le_rfl⟩
  have reset : Frame resetFields s (if s.drive.up then driveLinkReset s else s) :=
    .ite (frame_driveLinkReset s) (.refl _ s)
  exact (frame_issueScrubs _).after ((frame_chooseWindow _).after (N := resetFields)
    ((frame_pushFrame _ _).after (N := resetFields) ((up _).after (N := resetFields) reset)))

/-- What the taking of frames changes. -/
abbrev frameFields : List Field :=
  .inbound :: .cRanges :: requestFields ++ resetFields ++ completionFields ++ scrubFields

theorem frame_handFrame (c : Instr) (s : State) : Frame frameFields s (handFrame c s) := by
  unfold handFrame
  split
  · exact (frame_pushFrame _ s).within
  · exact (frame_takeDescriptor _ _ _ _ s).within
  · exact (frame_unitArrives _ _ _ s).within
  · exact (frame_stopTransfer _ s).within
  · exact (frame_orderDone _ _ s).within
  · exact .ite (frame_takeRequest _ s).within (.refl _ s)

theorem frame_takeFrame (c : Instr) (s : State) : Frame frameFields s (takeFrame c s) := by
  unfold takeFrame
  split
  · exact (frame_linkHello s).within
  · exact .ite (frame_handFrame _ s) (.refl _ s)

theorem frame_drainFrom (l : List Instr) (s : State) : Frame frameFields s (drainFrom l s) := by
  induction l generalizing s with
  | nil => exact .refl _ s
  | cons c l ih =>
    have waits : Frame frameFields s { s with drive := { s.drive with inbound := c :: l } } := ⟨rfl, rfl, le_rfl⟩
    exact .ite waits (((frame_clearTouched s).andThen (frame_takeFrame c _)).trans (ih _))

theorem frame_drainInbound (s : State) : Frame frameFields s (drainInbound s) := by
  have emptied : Frame frameFields s { s with drive := { s.drive with inbound := [] } } := ⟨rfl, rfl, le_rfl⟩
  exact emptied.trans (frame_drainFrom _ _)

theorem frame_arrive (c : Instr) (s : State) : Frame frameFields s (arrive c s) := by
  have waits : Frame frameFields s { s with drive := { s.drive with inbound := s.drive.inbound ++ [c] } } :=
    ⟨rfl, rfl, le_rfl⟩
  exact .ite (.refl _ s) (.ite (frame_drainFrom _ s) waits)

theorem frame_resetIndication (s : State) : Frame frameFields s (resetIndication s) :=
  .ite ((frame_drainInbound _).after (frame_driveLinkReset s)) (.refl _ s)

theorem frame_frameLeaves (s : State) : Frame [.outbox, .lastSent, .secQueue, .marks] s (frameLeaves s) := by
  unfold frameLeaves
  split
  · exact .refl _ s
  · rename_i f rest _
    have left : Frame [.outbox, .lastSent] s { s with drive := { s.drive with outbox := rest, lastSent := some f } } :=
      ⟨rfl, rfl, le_rfl⟩
    unfold deliver
    split
    · exact (frame_setSecQueue _ _).after left
    · exact left.within

/-! ## Store writes and time -/

/-- What the work that waited for a write changes. -/
abbrev contFields : List Field :=
  .ranges :: .hold :: .starting :: .sec :: .plat :: .buffer :: .secQueue :: eraseFields ++ closingFields ++ enteredFields

theorem frame_runCont (c : Cont) (s : State) : Frame contFields s (runCont c s) := by
  cases c with
  | eraseEntered => exact (frame_eraseEntered s).within
  | eraseNext k => exact (frame_eraseNext k s).within
  | scrubHalf => exact (frame_noticeSec _ s).within
  | scrubEnd r => exact (frame_finishErase r s).within
  | rekeyWindow => exact (frame_chooseWindow s).within
  | rekeyClosing => exact (frame_closingSteps s).within
  | rekeyEnded r => exact (frame_rekeyEnded r s).within

theorem frame_runReady (p : Cont → Bool) (n : Nat) (s : State) : Frame contFields s (runReady p n s) := by
  induction n generalizing s with
  | zero => exact .refl _ s
  | succ n ih =>
    unfold runReady
    split
    · rename_i c rest _
      have taken : Frame contFields s { s with store := { s.store with waits := rest } } := ⟨rfl, rfl, le_rfl⟩
      exact (taken.trans (frame_runCont c _)).trans (ih _)
    · exact .refl _ s

/-- What the request in progress changes where its writes are done. -/
abbrev dueFields : List Field := .derive :: policyFields

theorem frame_secDue (s : State) : Frame dueFields s (secDue s) := by
  unfold secDue
  split
  · split
    · split
      · exact (frame_chargeWritten _ s).within
      · exact (frame_policyWritten _ s).within
      · exact (frame_reprovisioned _ s).within
      · exact (frame_secAnswerDue s).within
      · exact .refl _ s
    · exact .refl _ s
  · exact .refl _ s

theorem frame_storeCompletes (s : State) :
    Frame (.nv :: contFields ++ dueFields) s (storeCompletes s) := by
  unfold storeCompletes
  split
  · exact .refl _ s
  · exact (frame_runReady _ _ _).after ((frame_platAnswerDue _).after (N := .nv :: contFields ++ dueFields)
      ((frame_secDue _).after (N := .nv :: contFields ++ dueFields)
        ((frame_runReady _ _ _).after (N := .nv :: contFields ++ dueFields) (frame_completeWrite s))))

/-! ## Power -/

theorem frame_countBoot (damage : List Damage) (s : State) : Frame [.cBoot, .requests] s (countBoot damage s) :=
  frame_put _ s .cBoot

theorem frame_treat (damage : List Damage) (d : Damage) (w : RecWrite) (s : State) (f : Field)
    (hf : writeField w = f := by rfl) : Frame [f, .requests] s (treat damage d w s) :=
  .ite (frame_put w s f hf) (.refl _ s)

/-- What the loading of the records changes. -/
abbrev loadFields : List Field :=
  [.cRanges, .cCreds, .cWraps, .cCharged, .cPolicy, .cDigest, .cToken, .cWatch, .cRekey, .cJournal, .cIncidents, .requests]

theorem applyWrite_range_ranges (r : Fin 16) (v : RangeRec) (recs : Records) :
    applyWrite (.range r v) recs = { recs with ranges := (applyWrite (.range r v) recs).ranges } := rfl

/-- The damaged range records are blank until each is judged (R1). -/
def blankRanges (damage : List Damage) (recs : Records) : Records :=
  (List.finRange 16).foldl (fun recs r =>
    if (damagedRange damage r).isSome then applyWrite (.range r RangeRec.undefined) recs else recs) recs

theorem blankRanges_eq (damage : List Damage) (recs : Records) :
    blankRanges damage recs = { recs with ranges := (blankRanges damage recs).ranges } := by
  unfold blankRanges
  induction List.finRange 16 generalizing recs with
  | nil => rfl
  | cons r l ih =>
    rw [List.foldl_cons, ih]
    split <;> rfl

theorem frame_loadRanges (damage : List Damage) (s : State) : Frame [.cRanges, .requests] s (loadRanges damage s) := by
  have blank : Frame [.cRanges, .requests] s { s with copies := blankRanges damage s.copies } := by
    rw [blankRanges_eq]
    exact ⟨rfl, rfl, le_rfl⟩
  refine blank.trans (.foldl (fun s r => ?_) _ _)
  split
  · exact frame_put _ s .cRanges
  · exact .refl _ s

theorem frame_loadRecords (damage : List Damage) (s : State) : Frame loadFields s (loadRecords damage s) := by
  have s2 := (frame_loadRanges damage _).after (N := loadFields) (frame_treat damage .policy (.policy Policy.default) s .cPolicy)
  have s4 := (frame_treat damage .chargedCount (.charged 0) _ .cCharged).after (N := loadFields)
    ((Frame.foldl (f := fun s c => treat damage (.credential c) (.cred c CredRec.empty) s)
      (fun s c => frame_treat damage _ (.cred c CredRec.empty) s .cCreds) (List.finRange 8) _).after (N := loadFields) s2)
  have s6 := (frame_treat damage .bindingDigest (.digest none) _ .cDigest).after (N := loadFields)
    ((Frame.foldl (f := fun s k => treat damage (.wrapEntry k) (.wrap k none) s)
      (fun s k => frame_treat damage _ (.wrap k none) s .cWraps) (List.finRange 64) _).after (N := loadFields) s4)
  have s8 := fun w => (frame_treat damage .watchRecord (.watch w) _ .cWatch).after (N := loadFields)
    ((frame_treat damage .remoteToken (.token none) _ .cToken).after (N := loadFields) s6)
  have s10 := fun w => (frame_treat damage .eraseJournal (.journal (some ⟨.unknown, 0, 0, [], none⟩)) _ .cJournal).after
    (N := loadFields) ((frame_treat damage .rekeyRecord (.rekey none) _ .cRekey).after (N := loadFields) (s8 w))
  exact (frame_treat damage .incidentList (.incidents []) _ .cIncidents).after (s10 _)

theorem frame_reconcileRekey (s : State) : Frame [.cRanges, .cRekey, .requests] s (reconcileRekey s) := by
  have put := fun k => (frame_put (.rekey k) s .cRekey).within (M := [.cRanges, .cRekey, .requests])
  have cleared : ∀ s : State, Frame [.cRanges, .cRekey, .requests] s ((List.finRange 16).foldl (fun s r =>
      if s.copies.ranges[r].next.isSome then putRange r { s.copies.ranges[r] with next := none } s else s) s) :=
    fun s => .foldl (fun s r => .ite (frame_put (.range r _) s .cRanges).within (.refl _ s)) _ s
  unfold reconcileRekey
  dsimp only
  split
  · exact .ite (.ite (.ite (.refl _ s) (put _)) (put _)) (.trans (.ite (.ite (.refl _ s) (put _)) (put _)) (cleared _))
  · exact .ite (.refl _ s) (cleared s)

theorem frame_disableLoaded (s : State) : Frame [.cCreds, .requests] s (disableLoaded s) :=
  .foldl (fun s c => .ite (frame_disableAtLimit c s) (.refl _ s)) _ s

/-- What a cold start derives from the records. -/
abbrev deriveFields : List Field := [.ranges, .cRanges, .cRekey, .cWraps, .cCreds, .cIncidents, .requests]

theorem frame_deriveStates (damage : List Damage) (s : State) : Frame deriveFields s (deriveStates damage s) := by
  have runs := (Frame.foldl (L := [.ranges]) (f := fun s r =>
    setRun r (if s.copies.ranges[r].erased then .erased else .locked) s) (fun s r => frame_setRun r _ s) (List.finRange 16) s)
  have fits := fun p => (frame_removeWraps p _).after (N := deriveFields) ((frame_reconcileRekey _).after (N := deriveFields) runs)
  exact (Frame.foldl (f := fun s d => addIncident (damageKind d) s) (fun s d => frame_addIncident (damageKind d) s)
    (damageOrder damage) _).after ((frame_disableLoaded _).after (N := deriveFields) (fits _))

theorem frame_resumeErase (s : State) : Frame contFields s (resumeErase s) := by
  have entered := fun w => (frame_enterWatch w s).within (M := contFields)
  unfold resumeErase
  split
  · exact .refl _ s
  · refine .ite (.ite (.refl _ s) (entered _)) (.ite ((frame_startScrub _).after (L := contFields) ?entered)
      ((frame_eraseNext 3 _).after ((frame_haltWork _).after (N := contFields) (L := contFields) ?entered)))
    exact .ite (.refl _ s) (entered _)

theorem frame_evaluateLoaded (s : State) : Frame contFields s (evaluateLoaded s) :=
  .ite (frame_evaluate false s).within (.refl _ s)

theorem frame_restartHoldoff (s : State) : Frame [.holdoff] s (restartHoldoff s) := ⟨rfl, rfl, le_rfl⟩
theorem frame_startWatch (levels : BitVec 4) (s : State) : Frame [.sensors, .decay] s (startWatch levels s) :=
  ⟨rfl, rfl, le_rfl⟩

theorem frame_autoOpenAll (s : State) : Frame (.pendingSet :: autoOpenFields) s (autoOpenAll s) :=
  .ite (.foldl (fun s r => frame_autoOpenOrPend _ r s) _ s) (.refl _ s)

theorem frame_takeLinks (s : State) : Frame [.phase, .platUp] s (takeLinks s) := ⟨rfl, rfl, le_rfl⟩

/-! ### The start-up as a whole -/

/-- Writes change records and never the factory record (R186). -/
theorem foldl_applyWrite_factory (l : List RecWrite) (r : Records) :
    (l.foldl (fun r w => applyWrite w r) r).factory = r.factory := by
  induction l generalizing r with
  | nil => rfl
  | cons w l ih => rw [List.foldl_cons, ih, applyWrite_factory]

theorem frame_settle (b : Boot) : Frame [.nv, .requests, .waits] b.state b.settle.state :=
  ⟨rfl, foldl_applyWrite_factory _ _, le_rfl⟩

/-- A step of the start-up: its work, and then its writes. -/
theorem frame_bootStep {L : List Field} {f : State → State} (h : ∀ s, Frame L s (f s)) (b : Boot)
    (hL : [.nv, .requests, .waits] ⊆ L := by decide +kernel) : Frame L b.state (b.step f).state :=
  (h _).trans ((frame_settle { b with state := f b.state }).mono hL)

theorem frame_runErase (n : Nat) (b : Boot) : Frame (.nv :: contFields) b.state (Boot.runErase n b).state := by
  induction n generalizing b with
  | zero => exact .refl _ _
  | succ n ih =>
    unfold Boot.runErase
    split
    · exact .refl _ _
    · exact (frame_bootStep (fun s => (frame_runReady (fun _ => true) _ s).within) b).trans (ih _)

/-- What a start-up changes of a part that has just been powered up. -/
abbrev bootFields : List Field :=
  .phase :: .platUp :: .cBoot :: .holdoff :: .sensors :: .nv :: contFields ++ loadFields

theorem frame_startUp (damage : List Damage) (levels : BitVec 4) (s : State) :
    Frame bootFields s (startUp damage levels s).state := by
  have step : ∀ {L : List Field} {f : State → State} (b : Boot), (∀ s, Frame L s (f s)) → L ⊆ bootFields →
      Frame bootFields s b.state → Frame bootFields s (b.step f).state := fun b h hL hb =>
    hb.trans (frame_bootStep (fun s => (h s).mono hL) b)
  have run : ∀ b : Boot, Frame bootFields s b.state → Frame bootFields s (b.runErase 8).state :=
    fun b hb => hb.trans (frame_runErase 8 b).within
  have b2 := step ⟨s, []⟩ (frame_countBoot damage) (by decide +kernel) (.refl _ s)
  have held : ∀ m : State, Frame bootFields m { m with phase := .held } := fun _ => ⟨rfl, rfl, le_rfl⟩
  have b4 := step _ (frame_deriveStates damage) (by decide +kernel)
    (step _ (frame_loadRecords damage) (by decide +kernel) b2)
  have b5 := run _ (step _ frame_resumeErase (by decide +kernel) b4)
  have b6 := run _ (step _ frame_evaluateLoaded (by decide +kernel) b5)
  have b6' := run _ (step _ frame_exhaust (by decide +kernel) b6)
  have b9 := step _ frame_autoOpenAll (by decide +kernel) (step _ (frame_startWatch levels) (by decide +kernel)
    (step _ frame_restartHoldoff (by decide +kernel) b6'))
  unfold startUp
  dsimp only
  split
  · exact b2.trans (held _)
  · exact b9.trans (frame_takeLinks _).within

end Sys2Proof.Machine
end


-- ==== Sys2Proof/Proofs/FrameFields.lean ====
section
/-! PROOF. What a frame says of the fields that it leaves alone, one rule per field; and what a command does of the
operations, with the frame of every command. -/

-- As in the tests: each theorem that waits for the kernel in parallel would keep a thread.
set_option Elab.async false

namespace Sys2Proof.Machine

namespace Frame

variable {L : List Field} {s t : State}

theorem phase (h : Frame L s t) (hf : .phase ∉ L := by decide +kernel) : t.phase = s.phase := by
  rw [← h.eq]
  simp only [overlay, if_neg hf]

theorem up (h : Frame L s t) (hf : .up ∉ L := by decide +kernel) : t.drive.up = s.drive.up := by
  rw [← h.eq]
  simp only [overlay, if_neg hf]

theorem units (h : Frame L s t) (hf : .units ∉ L := by decide +kernel) : t.drive.units = s.drive.units := by
  rw [← h.eq]
  simp only [overlay, if_neg hf]

theorem inbound (h : Frame L s t) (hf : .inbound ∉ L := by decide +kernel) : t.drive.inbound = s.drive.inbound := by
  rw [← h.eq]
  simp only [overlay, if_neg hf]

theorem outbox (h : Frame L s t) (hf : .outbox ∉ L := by decide +kernel) : t.drive.outbox = s.drive.outbox := by
  rw [← h.eq]
  simp only [overlay, if_neg hf]

theorem platform (h : Frame L s t) (hf : ∀ f ∈ ([.platUp, .buffer, .lastRead] : List Field), f ∉ L := by decide +kernel) :
    t.platform = s.platform := by
  rw [← h.eq]
  simp only [List.forall_mem_cons] at hf
  simp only [overlay, if_neg, hf, not_false_eq_true]

theorem table (h : Frame L s t) (hf : .table ∉ L := by decide +kernel) : t.adm.table = s.adm.table := by
  rw [← h.eq]
  simp only [overlay, if_neg hf]

theorem hold (h : Frame L s t) (hf : .hold ∉ L := by decide +kernel) : t.adm.hold = s.adm.hold := by
  rw [← h.eq]
  simp only [overlay, if_neg hf]

theorem adm (h : Frame L s t) (hf : ∀ f ∈ ([.table, .hold] : List Field), f ∉ L := by decide +kernel) :
    t.adm = s.adm := by
  rw [← h.eq]
  simp only [List.forall_mem_cons] at hf
  simp only [overlay, if_neg, hf, not_false_eq_true]

theorem ranges (h : Frame L s t) (hf : .ranges ∉ L := by decide +kernel) : t.ranges = s.ranges := by
  rw [← h.eq]
  simp only [overlay, if_neg hf]

theorem slots (h : Frame L s t) (hf : .slots ∉ L := by decide +kernel) : t.slots = s.slots := by
  rw [← h.eq]
  simp only [overlay, if_neg hf]

theorem holdoff (h : Frame L s t) (hf : .holdoff ∉ L := by decide +kernel) : t.cred.holdoff = s.cred.holdoff := by
  rw [← h.eq]
  simp only [overlay, if_neg hf]

theorem pendingSet (h : Frame L s t) (hf : .pendingSet ∉ L := by decide +kernel) : t.cred.pendingSet = s.cred.pendingSet := by
  rw [← h.eq]
  simp only [overlay, if_neg hf]

theorem cred (h : Frame L s t) (hf : ∀ f ∈ ([.holdoff, .pendingSet] : List Field), f ∉ L := by decide +kernel) :
    t.cred = s.cred := by
  rw [← h.eq]
  simp only [List.forall_mem_cons] at hf
  simp only [overlay, if_neg, hf, not_false_eq_true]

theorem derive (h : Frame L s t) (hf : .derive ∉ L := by decide +kernel) : t.derive = s.derive := by
  rw [← h.eq]
  simp only [overlay, if_neg hf]

theorem order (h : Frame L s t) (hf : .order ∉ L := by decide +kernel) : t.rekey.order = s.rekey.order := by
  rw [← h.eq]
  simp only [overlay, if_neg hf]

theorem intended (h : Frame L s t) (hf : .intended ∉ L := by decide +kernel) : t.rekey.intended = s.rekey.intended := by
  rw [← h.eq]
  simp only [overlay, if_neg hf]

theorem fence (h : Frame L s t) (hf : .fence ∉ L := by decide +kernel) : t.rekey.fence = s.rekey.fence := by
  rw [← h.eq]
  simp only [overlay, if_neg hf]

theorem seen (h : Frame L s t) (hf : .seen ∉ L := by decide +kernel) : t.rekey.seen = s.rekey.seen := by
  rw [← h.eq]
  simp only [overlay, if_neg hf]

theorem completing (h : Frame L s t) (hf : .completing ∉ L := by decide +kernel) : t.rekey.completing = s.rekey.completing := by
  rw [← h.eq]
  simp only [overlay, if_neg hf]

theorem rekey (h : Frame L s t) (hf : ∀ f ∈ ([.order, .fence, .intended, .counter, .seen, .completing] : List Field), f ∉ L := by decide +kernel) :
    t.rekey = s.rekey := by
  rw [← h.eq]
  simp only [List.forall_mem_cons] at hf
  simp only [overlay, if_neg, hf, not_false_eq_true]

theorem orders (h : Frame L s t) (hf : .orders ∉ L := by decide +kernel) : t.erase.orders = s.erase.orders := by
  rw [← h.eq]
  simp only [overlay, if_neg hf]

theorem starting (h : Frame L s t) (hf : .starting ∉ L := by decide +kernel) : t.erase.starting = s.erase.starting := by
  rw [← h.eq]
  simp only [overlay, if_neg hf]

theorem erase (h : Frame L s t) (hf : ∀ f ∈ ([.orders, .scrubMarks, .starting, .stopping] : List Field), f ∉ L := by decide +kernel) :
    t.erase = s.erase := by
  rw [← h.eq]
  simp only [List.forall_mem_cons] at hf
  simp only [overlay, if_neg, hf, not_false_eq_true]

theorem decay (h : Frame L s t) (hf : .decay ∉ L := by decide +kernel) : t.watch.decay = s.watch.decay := by
  rw [← h.eq]
  simp only [overlay, if_neg hf]

theorem binding (h : Frame L s t) (hf : .sensors ∉ L := by decide +kernel) : t.watch.binding = s.watch.binding := by
  rw [← h.eq]
  simp only [overlay, if_neg hf]

theorem watch (h : Frame L s t) (hf : ∀ f ∈ ([.decay, .sensors] : List Field), f ∉ L := by decide +kernel) :
    t.watch = s.watch := by
  rw [← h.eq]
  simp only [List.forall_mem_cons] at hf
  simp only [overlay, if_neg, hf, not_false_eq_true]

theorem sec (h : Frame L s t) (hf : .sec ∉ L := by decide +kernel) : t.cmd.sec = s.cmd.sec := by
  rw [← h.eq]
  simp only [overlay, if_neg hf]

theorem plat (h : Frame L s t) (hf : .plat ∉ L := by decide +kernel) : t.cmd.plat = s.cmd.plat := by
  rw [← h.eq]
  simp only [overlay, if_neg hf]

theorem secQueue (h : Frame L s t) (hf : .secQueue ∉ L := by decide +kernel) : t.cmd.secQueue = s.cmd.secQueue := by
  rw [← h.eq]
  simp only [overlay, if_neg hf]

theorem platQueue (h : Frame L s t) (hf : .platQueue ∉ L := by decide +kernel) : t.cmd.platQueue = s.cmd.platQueue := by
  rw [← h.eq]
  simp only [overlay, if_neg hf]

theorem seq (h : Frame L s t) (hf : .marks ∉ L := by decide +kernel) : t.cmd.seq = s.cmd.seq := by
  rw [← h.eq]
  simp only [overlay, if_neg hf]

theorem uptime (h : Frame L s t) (hf : .uptime ∉ L := by decide +kernel) : t.uptime = s.uptime := by
  rw [← h.eq]
  simp only [overlay, if_neg hf]

theorem capacity (h : Frame L s t) (hf : .cFactory ∉ L := by decide +kernel) : t.copies.factory = s.copies.factory := by
  rw [← h.eq]
  simp only [overlay, if_neg hf]

theorem cRanges (h : Frame L s t) (hf : .cRanges ∉ L := by decide +kernel) : t.copies.ranges = s.copies.ranges := by
  rw [← h.eq]
  simp only [overlay, if_neg hf]

theorem cCreds (h : Frame L s t) (hf : .cCreds ∉ L := by decide +kernel) : t.copies.creds = s.copies.creds := by
  rw [← h.eq]
  simp only [overlay, if_neg hf]

theorem cWraps (h : Frame L s t) (hf : .cWraps ∉ L := by decide +kernel) : t.copies.wraps = s.copies.wraps := by
  rw [← h.eq]
  simp only [overlay, if_neg hf]

theorem cPolicy (h : Frame L s t) (hf : .cPolicy ∉ L := by decide +kernel) : t.copies.policy = s.copies.policy := by
  rw [← h.eq]
  simp only [overlay, if_neg hf]

theorem cDigest (h : Frame L s t) (hf : .cDigest ∉ L := by decide +kernel) : t.copies.digest = s.copies.digest := by
  rw [← h.eq]
  simp only [overlay, if_neg hf]

theorem cWatch (h : Frame L s t) (hf : .cWatch ∉ L := by decide +kernel) : t.copies.watch = s.copies.watch := by
  rw [← h.eq]
  simp only [overlay, if_neg hf]

theorem cRekey (h : Frame L s t) (hf : .cRekey ∉ L := by decide +kernel) : t.copies.rekey = s.copies.rekey := by
  rw [← h.eq]
  simp only [overlay, if_neg hf]

theorem cJournal (h : Frame L s t) (hf : .cJournal ∉ L := by decide +kernel) : t.copies.journal = s.copies.journal := by
  rw [← h.eq]
  simp only [overlay, if_neg hf]

theorem cIncidents (h : Frame L s t) (hf : .cIncidents ∉ L := by decide +kernel) : t.copies.incidents = s.copies.incidents := by
  rw [← h.eq]
  simp only [overlay, if_neg hf]

theorem cBoot (h : Frame L s t) (hf : .cBoot ∉ L := by decide +kernel) : t.copies.boot = s.copies.boot := by
  rw [← h.eq]
  simp only [overlay, if_neg hf]

theorem copies (h : Frame L s t) (hf : ∀ f ∈ ([.cFactory, .cRanges, .cCreds, .cWraps, .cCharged, .cPolicy, .cDigest, .cToken, .cWatch, .cRekey, .cJournal, .cIncidents, .cBoot] : List Field), f ∉ L := by decide +kernel) :
    t.copies = s.copies := by
  rw [← h.eq]
  simp only [List.forall_mem_cons] at hf
  simp only [overlay, if_neg, hf, not_false_eq_true]

theorem waits (h : Frame L s t) (hf : .waits ∉ L := by decide +kernel) : t.store.waits = s.store.waits := by
  rw [← h.eq]
  simp only [overlay, if_neg hf]

theorem nv (h : Frame L s t) (hf : .nv ∉ L := by decide +kernel) : t.store.nv = s.store.nv := by
  rw [← h.eq]
  simp only [overlay, if_neg hf]

theorem draws (h : Frame L s t) (hf : .draws ∉ L := by decide +kernel) : t.draws = s.draws := by
  rw [← h.eq]
  simp only [overlay, if_neg hf]


theorem pending (h : Frame L s t) : t.pending = s.pending := by
  rw [← h.eq]
  rfl

theorem deviceKey (h : Frame L s t) : t.deviceKey = s.deviceKey := by
  rw [← h.eq]
  rfl

end Frame

/-! ## Commands -/

/-- R116: the migration order's deadline. -/
def migrationExpires (s : State) : State :=
  match s.rekey.order with
  | some o => if o.deadline = 0 then rekeyCompletes o false s else s
  | none => s

/-- R164: a scrub order's deadline. -/
def scrubExpires (num : Nat) (s : State) : State :=
  match scrubOrder num s with
  | some o => if o.deadline = 0 then scrubCompletes o false s else s
  | none => s

/-- What a command does, but for a cold start and CIPHER_UNIT_TAKE: a frame arrives, or the work named here is done. -/
def effect (c : Instr) (s : State) : State :=
  match c with
  | .linkResetIndication => resetIndication s
  | .migrationOrderDeadlineExpiry => migrationExpires s
  | .migrateOrderSend => sendMigrateOrder s
  | .scrubOrderDeadlineExpiry num => scrubExpires num s
  | .derivationComplete => derivationEnds s
  | .storeWriteComplete => storeCompletes s
  | .closeComplete r => closeIfDrained r s
  | .closeDeadlineExpiry r => closeExpires r s
  | .slotDrainComplete k => drainSlot k s
  | .holdoffExpiry => holdoffExpires s
  | .bind w => writeTransaction (.bind w) false (bindMessage w) s
  | .bindingDeadlineExpiry => bindingExpires s
  | .checkin w => writeTransaction (.checkin w) false (checkinMessage w) s
  | .checkinTimerExpiry => checkinExpires s
  | .sleep => writeTransaction .sleep false sleepMessage s
  | .wake => writeTransaction .wake false wakeMessage s
  | .alert severity => writeTransaction (.alert severity) false (alertMessage severity) s
  | .remoteErase token => writeTransaction (.remoteErase token) (!secretFits token) (remoteEraseMessage token) s
  | .platformFetch => writeTransaction .platformFetch false fetchMessage s
  | .platformSetMask m => writeTransaction (.platformSetMask m) (!decide (m.toNat < 2 ^ 10)) (platMaskMessage m) s
  | .platformMalformedMessage kind => writeTransaction (.platformMalformedMessage kind) true id s
  | .platformRead => readTransaction s
  | .platformLinkReset => platformReset s
  | .watchLineEdge n level => if s.phase = .running then takeEdge n level s else s
  | .holdDownExpiry n => if s.watch.holdDowns[n] = some 0 then setHoldDown n none s else s
  | .decayTimerExpiry => decayExpires s
  | .outboundFrameSent => frameLeaves s
  | c => arrive c s

/-- Every command but two is taken as one event. -/
theorem exec_eq_event {c : Instr} (h : ∀ d l k, c ≠ .coldStart d l k) (hu : c ≠ .cipherUnitTake) (s : State) :
    exec c s = event (effect c) s := by
  cases c
  case coldStart d l k => exact absurd rfl (h d l k)
  case cipherUnitTake => exact absurd rfl hu
  all_goals rfl

/-- What a command answers: the cold start's state, what a unit taken leaves, or the effect of the command. -/
theorem exec_cases {c : Instr} {s t : State} (h : exec c s = .next t) :
    (∃ d l k, c = .coldStart d l k ∧ t = clearTouched (coldStart d l k (clearTouched s)))
      ∨ (c = .cipherUnitTake ∧ ∃ u, takeUnit (clearTouched s) = some u ∧ t = clearTouched (drainInbound u))
      ∨ ((∀ d l k, c ≠ .coldStart d l k) ∧ t = clearTouched (effect c (clearTouched s))) := by
  by_cases hc : ∃ d l k, c = .coldStart d l k
  · obtain ⟨d, l, k, rfl⟩ := hc
    cases h
    exact .inl ⟨d, l, k, rfl, rfl⟩
  · have hc' : ∀ d l k, c ≠ .coldStart d l k := fun d l k e => hc ⟨d, l, k, e⟩
    by_cases hu : c = .cipherUnitTake
    · subst hu
      simp only [exec, execCipherUnitTake] at h
      split at h
      · rename_i u hu
        cases h
        exact .inr (.inl ⟨rfl, u, hu, rfl⟩)
      · cases h
    · rw [exec_eq_event hc' hu] at h
      cases h
      exact .inr (.inr ⟨hc', rfl⟩)

theorem frame_migrationExpires (s : State) : Frame completionFields s (migrationExpires s) := by
  unfold migrationExpires
  split
  · exact .ite (frame_rekeyCompletes _ _ s) (.refl _ s)
  · exact .refl _ s

theorem frame_scrubExpires (num : Nat) (s : State) : Frame scrubFields s (scrubExpires num s) := by
  unfold scrubExpires
  split
  · exact .ite (frame_scrubCompletes _ _ s) (.refl _ s)
  · exact .refl _ s

/-- What a command other than a cold start may change: neither the records' factory values nor how far start-up has come. -/
abbrev commandFields : List Field :=
  .inbound :: .lastSent :: .lastRead :: .nv :: contFields ++ dueFields ++ derivedFields ++ frameFields

theorem frame_effect (c : Instr) (s : State) : Frame commandFields s (effect c s) := by
  cases c
  case linkResetIndication => exact (frame_resetIndication s).within
  case migrationOrderDeadlineExpiry => exact (frame_migrationExpires s).within
  case migrateOrderSend => exact (frame_sendMigrateOrder s).within
  case scrubOrderDeadlineExpiry num => exact (frame_scrubExpires num s).within
  case derivationComplete => exact (frame_derivationEnds s).within
  case storeWriteComplete => exact (frame_storeCompletes s).within
  case closeComplete r => exact (frame_closeIfDrained r s).within
  case closeDeadlineExpiry r => exact (frame_closeExpires r s).within
  case slotDrainComplete k => exact (frame_drainSlot k s).within
  case holdoffExpiry => exact (frame_holdoffExpires s).within
  case bind => exact frame_writeTransaction _ _ (fun s => (frame_bindMessage _ s).within) s
  case bindingDeadlineExpiry => exact (frame_bindingExpires s).within
  case checkin => exact frame_writeTransaction _ _ (fun s => (frame_checkinMessage _ s).within) s
  case checkinTimerExpiry => exact (frame_checkinExpires s).within
  case sleep => exact frame_writeTransaction _ _ (fun s => (frame_sleepMessage s).within) s
  case wake => exact frame_writeTransaction _ _ (fun s => (frame_wakeMessage s).within) s
  case alert => exact frame_writeTransaction _ _ (fun s => (frame_alertMessage _ s).within) s
  case remoteErase => exact frame_writeTransaction _ _ (fun s => (frame_remoteEraseMessage _ s).within) s
  case platformFetch => exact frame_writeTransaction _ _ (fun s => (frame_fetchMessage s).within) s
  case platformSetMask => exact frame_writeTransaction _ _ (fun s => (frame_platMaskMessage _ s).within) s
  case platformMalformedMessage => exact frame_writeTransaction _ _ (fun s => .refl _ s) s
  case platformRead => exact (frame_readTransaction s).within
  case platformLinkReset => exact (frame_platformReset s).within
  case watchLineEdge n level => exact .ite (frame_takeEdge n level s).within (.refl _ s)
  case holdDownExpiry n => exact .ite ⟨rfl, rfl, le_rfl⟩ (.refl _ s)
  case decayTimerExpiry => exact (frame_decayExpires s).within
  case outboundFrameSent => exact (frame_frameLeaves s).within
  all_goals exact (frame_arrive _ s).within

/-- Every field. -/
abbrev allFields : List Field := .phase :: .platUp :: .uptime :: .cFactory :: .cBoot :: commandFields ++ bootFields

/-- A cold start begins with the records as the store holds them, and keeps the count of draws. -/
theorem frame_powerUp {nv : Records} {s : State} (h : nv.factory = s.store.nv.factory) :
    Frame allFields s (powerUp nv s) :=
  ⟨rfl, h, le_rfl⟩

theorem frame_coldStart (d : List Damage) (l : BitVec 4) (k : Option Nat) (s : State) :
    Frame allFields s (coldStart d l k s) := by
  have up := (frame_powerUp (s := s) rfl).trans ((frame_startUp d l (powerUp s.store.nv s)).within)
  unfold coldStart
  dsimp only
  split
  · exact up
  · exact up.trans (frame_powerUp ((foldl_applyWrite_factory _ _).trans up.factory.symm))

/-- The frame of every command. -/
theorem frame_exec {c : Instr} {s t : State} (h : exec c s = .next t) : Frame allFields s t := by
  have cleared : ∀ m, Frame allFields m (clearTouched m) := fun m => (frame_clearTouched m).within
  rcases exec_cases h with ⟨d, l, k, -, rfl⟩ | ⟨-, u, hu, rfl⟩ | ⟨-, rfl⟩
  · exact ((cleared s).trans (frame_coldStart d l k _)).trans (cleared _)
  · exact (((cleared s).trans (frame_takeUnit hu).within).trans (frame_drainInbound u).within).trans (cleared _)
  · exact ((cleared s).trans (frame_effect c _).within).trans (cleared _)

/-- Settles O3: no command's frame names the queue, the device key or the stored factory record, and none lowers the
count of draws. -/
theorem commandsKeepQueueKeyAndFactory : Obligations.CommandsKeepQueueKeyAndFactory := by
  intro c s t h
  have f := frame_exec h
  exact ⟨f.pending, f.deviceKey, f.draws_le, f.factory⟩

end Sys2Proof.Machine
end


-- ==== Sys2Proof/Proofs/Keeps.lean ====
section
/-! PROOF. Invariants: a predicate that every frame within some fields keeps, and the operations that only pass the state
on to others (frames that waited, work that waited, a message taken) keep what those others keep. -/

-- As in the tests: each theorem that waits for the kernel in parallel would keep a thread.
set_option Elab.async false

namespace Sys2Proof.Machine

/-- A predicate that no change of the fields `L` ends. -/
def Keeps (Inv : State → Prop) (L : List Field) : Prop := ∀ ⦃s t : State⦄, Frame L s t → Inv s → Inv t

variable {Inv : State → Prop} {L M : List Field} {s t : State}

/-- An operation whose frame lies within the fields that do not matter. -/
theorem Keeps.of (k : Keeps Inv L) (h : Inv s) (f : Frame M s t) (hm : M ⊆ L := by decide +kernel) : Inv t :=
  k (f.mono hm) h

theorem Keeps.mono (k : Keeps Inv L) (hm : M ⊆ L := by decide +kernel) : Keeps Inv M := fun _ _ f h => k.of h f hm

/-- A pass over a list. -/
theorem keeps_foldl {α : Type} {f : State → α → State} (h : ∀ s a, Inv s → Inv (f s a)) (l : List α) (s : State)
    (hs : Inv s) : Inv (l.foldl f s) := by
  induction l generalizing s with
  | nil => exact hs
  | cons a l ih => exact ih _ (h s a hs)

/-! ## Frames that waited -/

theorem drainFrom_keeps (k : Keeps Inv [.inbound, .requests]) (h : ∀ c s, Inv s → Inv (takeFrame c s))
    (l : List Instr) (s : State) (hs : Inv s) : Inv (drainFrom l s) := by
  induction l generalizing s with
  | nil => exact hs
  | cons c l ih =>
    unfold drainFrom
    split
    · exact k (s := s) ⟨rfl, rfl, le_rfl⟩ hs
    · exact ih _ (h c _ (k.of hs (frame_clearTouched s)))

theorem drainInbound_keeps (k : Keeps Inv [.inbound, .requests]) (h : ∀ c s, Inv s → Inv (takeFrame c s))
    (s : State) (hs : Inv s) : Inv (drainInbound s) :=
  drainFrom_keeps k h _ _ (k (s := s) ⟨rfl, rfl, le_rfl⟩ hs)

theorem arrive_keeps (k : Keeps Inv [.inbound, .requests]) (h : ∀ c s, Inv s → Inv (takeFrame c s))
    (c : Instr) (s : State) (hs : Inv s) : Inv (arrive c s) := by
  unfold arrive
  split
  · exact hs
  · split
    · exact drainFrom_keeps k h _ _ hs
    · exact k (s := s) ⟨rfl, rfl, le_rfl⟩ hs

theorem resetIndication_keeps (k : Keeps Inv [.inbound, .requests]) (h : ∀ c s, Inv s → Inv (takeFrame c s))
    (hr : ∀ s, Inv s → Inv (driveLinkReset s)) (s : State) (hs : Inv s) : Inv (resetIndication s) := by
  unfold resetIndication
  split
  · exact drainInbound_keeps k h _ (hr s hs)
  · exact hs

/-! ## Work that waited, and messages -/

/-- The work taken is named by `p` and waited, and no wait is made. -/
theorem takeReady_some {p : Cont → Bool} {l rest : List Wait} {c : Cont} (h : takeReady p l = some (c, rest)) :
    p c = true ∧ (∃ w ∈ l, w.job = c) ∧ ∀ w ∈ rest, w ∈ l := by
  induction l generalizing rest with
  | nil => cases h
  | cons w l ih =>
    unfold takeReady at h
    split at h
    · rename_i hw
      cases h
      exact ⟨(Bool.and_eq_true_iff.mp hw).2, ⟨w, by simp, rfl⟩, fun v hv => List.mem_cons_of_mem _ hv⟩
    · cases e : takeReady p l with
      | none =>
        rw [e] at h
        cases h
      | some x =>
        rw [e] at h
        cases h
        obtain ⟨h1, ⟨v, hv, hj⟩, h3⟩ := ih e
        exact ⟨h1, ⟨v, List.mem_cons_of_mem _ hv, hj⟩, fun u hu => by
          rcases List.mem_cons.mp hu with rfl | hu
          · exact List.mem_cons_self
          · exact List.mem_cons_of_mem _ (h3 u hu)⟩

/-- A pass over the ready work, where each piece taken had waited. -/
theorem runReady_induct {p : Cont → Bool}
    (h : ∀ c w rest s, p c = true → w ∈ s.store.waits → w.job = c → (∀ v ∈ rest, v ∈ s.store.waits) → Inv s →
      Inv (runCont c { s with store := { s.store with waits := rest } })) (n : Nat) (s : State) (hs : Inv s) :
    Inv (runReady p n s) := by
  induction n generalizing s with
  | zero => exact hs
  | succ n ih =>
    unfold runReady
    split
    · rename_i c rest e
      obtain ⟨hp, ⟨w, hw, hj⟩, hr⟩ := takeReady_some e
      exact ih _ (h c w rest s hp hw hj hr hs)
    · exact hs

theorem runReady_keeps {p : Cont → Bool} (k : Keeps Inv [.waits]) (h : ∀ c s, p c = true → Inv s → Inv (runCont c s))
    (n : Nat) (s : State) (hs : Inv s) : Inv (runReady p n s) :=
  runReady_induct (fun c _ _ s hp _ _ _ hs => h c _ hp (k (s := s) ⟨rfl, rfl, le_rfl⟩ hs)) n s hs

theorem storeCompletes_keeps (k : Keeps Inv (.nv :: .requests :: .waits :: .plat :: .buffer :: replyFields))
    (hc : ∀ c s, Inv s → Inv (runCont c s)) (hd : ∀ s, Inv s → Inv (secDue s)) (s : State) (hs : Inv s) :
    Inv (storeCompletes s) := by
  unfold storeCompletes
  split
  · exact hs
  · have run : ∀ (p : Cont → Bool) n s, Inv s → Inv (runReady p n s) := fun p =>
      runReady_keeps k.mono fun c s _ => hc c s
    exact run _ _ _ (k.of (hd _ (run _ _ _ (k.of hs (frame_completeWrite s)))) (frame_platAnswerDue _))

theorem writeTransaction_keeps (k : Keeps Inv [.buffer, .plat]) (m : Instr) (malformed : Bool) {f : State → State}
    (h : ∀ s, Inv s → Inv (f s)) (s : State) (hs : Inv s) : Inv (writeTransaction m malformed f s) := by
  have placed := fun b => k.of hs (frame_setBuffer b s)
  unfold writeTransaction
  dsimp only
  split
  · exact hs
  · split
    · exact placed _
    · split
      · exact placed _
      · exact h _ (k (s := s) ⟨rfl, rfl, le_rfl⟩ hs)

/-- A work done with its writes noted apart. -/
theorem withTouched_keeps (k : Keeps Inv [.requests]) {f : State → State} (h : ∀ s, Inv s → Inv (f s)) (s : State)
    (hs : Inv s) : Inv (withTouched f s).2 :=
  k (s := f { s with store := { s.store with touched := [] } }) ⟨rfl, rfl, le_rfl⟩
    (h _ (k (s := s) ⟨rfl, rfl, le_rfl⟩ hs))

/-- R159: a step of an erase, with its work, after which the engine goes on. -/
def eraseThen (k : Nat) (work : State → State) (s : State) : State :=
  addWait (withTouched (fun s => work (reachStep k s)) s).1 (.eraseNext (k + 1))
    (withTouched (fun s => work (reachStep k s)) s).2

theorem eraseNext_eq (k : Nat) (s : State) :
    eraseNext k s =
      if k = 1 then eraseThen k haltWork s
      else if k = 2 then eraseThen k zeroizeWork s
      else if k = 3 then eraseThen k destroyWork s
      else if s.copies.policy.scrubEnable then startScrub s
      else finishErase .scrubSkipped s := by
  simp only [eraseNext, eraseThen]

/-- What the step's work starts from. -/
def eraseReached (k : Nat) (s : State) : State := reachStep k { s with store := { s.store with touched := [] } }

theorem eraseThen_adm (k : Nat) (work : State → State) (s : State) :
    (eraseThen k work s).adm = (work (eraseReached k s)).adm := rfl

theorem eraseThen_waits (k : Nat) (work : State → State) (s : State) :
    (eraseThen k work s).store.waits = (work (eraseReached k s)).store.waits
      ++ [⟨(withTouched (fun s => work (reachStep k s)) s).1, .eraseNext (k + 1)⟩] := rfl

theorem eraseReached_waits (k : Nat) (s : State) : (eraseReached k s).store.waits = s.store.waits :=
  (frame_reachStep k _).waits

theorem eraseThen_keeps (k : Keeps Inv (.waits :: reachFields)) {work : State → State}
    (h : ∀ s, Inv s → Inv (work s)) (n : Nat) (s : State) (hs : Inv s) : Inv (eraseThen n work s) :=
  k.of (withTouched_keeps k.mono (fun s hs => h _ (k.of hs (frame_reachStep n s))) s hs) (frame_addWait _ _ _)

/-- R62: the job in progress ends, and the next one starts. -/
def nextJob (s : State) : State :=
  { s with derive := { job := s.derive.waiting.head?, waiting := s.derive.waiting.tail } }

theorem frame_nextJob (s : State) : Frame [.derive] s (nextJob s) := ⟨rfl, rfl, le_rfl⟩

theorem derivationEnds_keeps (k : Keeps Inv [.derive]) (hs : ∀ key s, Inv s → Inv (secDerived key s))
    (hp : ∀ key s, Inv s → Inv (tokenDerived key s)) (s : State) (h : Inv s) : Inv (derivationEnds s) := by
  have next := k.of h (frame_nextJob s)
  unfold derivationEnds
  rw [← nextJob]
  generalize nextJob s = m at next ⊢
  split
  · exact h
  · dsimp only
    split
    · exact hs _ m next
    · exact hp _ m next

/-! ## The steps of a start-up -/

theorem bootStep_keeps (k : Keeps Inv [.nv, .requests, .waits]) {f : State → State} (h : ∀ s, Inv s → Inv (f s)) (b : Boot)
    (hb : Inv b.state) : Inv (b.step f).state :=
  k.of (h _ hb) (frame_settle { b with state := f b.state })

theorem runErase_keeps (k : Keeps Inv [.nv, .requests, .waits]) (h : ∀ c s, Inv s → Inv (runCont c s)) (n : Nat) (b : Boot)
    (hb : Inv b.state) : Inv (Boot.runErase n b).state := by
  induction n generalizing b with
  | zero => exact hb
  | succ n ih =>
    unfold Boot.runErase
    split
    · exact hb
    · exact ih _ (bootStep_keeps k (fun s => runReady_keeps k.mono (fun c s _ => h c s) _ s) b hb)

/-- The steps of a start-up of which each has to be looked at: those that load and judge the records, that take up an erase
and that open ranges. -/
theorem startUp_keeps (k : Keeps Inv [.nv, .requests, .waits, .cBoot, .phase, .platUp, .holdoff, .sensors, .decay])
    {damage : List Damage} {levels : BitVec 4} (hl : ∀ s, Inv s → Inv (loadRecords damage s))
    (hd : ∀ s, Inv s → Inv (deriveStates damage s)) (he : ∀ s, Inv s → Inv (resumeErase s))
    (hv : ∀ s, Inv s → Inv (evaluateLoaded s)) (hx : ∀ s, Inv s → Inv (exhaust s))
    (ha : ∀ s, Inv s → Inv (autoOpenAll s)) (hc : ∀ c s, Inv s → Inv (runCont c s)) (s : State) (hs : Inv s) :
    Inv (startUp damage levels s).state := by
  have step : ∀ {f : State → State} (b : Boot), (∀ s, Inv s → Inv (f s)) → Inv b.state → Inv (b.step f).state :=
    fun b h hb => bootStep_keeps k.mono h b hb
  have run : ∀ b : Boot, Inv b.state → Inv (b.runErase 8).state := fun b hb => runErase_keeps k.mono hc 8 b hb
  have b2 := step ⟨s, []⟩ (fun s h => k.of h (frame_countBoot damage s)) hs
  have b4 := step _ hd (step _ hl b2)
  have b6 := run _ (step _ hx (run _ (step _ hv (run _ (step _ he b4)))))
  have b8 := step _ (fun s h => k.of h (frame_startWatch levels s)) (step _ (fun s h => k.of h (frame_restartHoldoff s)) b6)
  have held : ∀ m : State, Inv m → Inv { m with phase := .held } := fun m h => k (s := m) ⟨rfl, rfl, le_rfl⟩ h
  unfold startUp
  dsimp only
  split
  · exact held _ b2
  · exact k.of (step _ ha b8) (frame_takeLinks _)

/-! ## A second of uptime -/

theorem frame_tick (s : State) :
    Frame [.uptime, .ranges, .holdoff, .order, .orders, .sensors, .decay] s (tick s) := by
  unfold tick
  refine .ite (.refl _ s) ?_
  have closes : Frame [.uptime, .ranges, .holdoff, .order, .orders, .sensors, .decay] s (tickCloses s) :=
    (Frame.foldl (f := fun s r => setRun r (tickRun s.ranges[r].run) s) (fun s r => frame_setRun r _ s)
      (List.finRange 16) s).within
  have downs : ∀ m : State, Frame [.uptime, .ranges, .holdoff, .order, .orders, .sensors, .decay] m (tickHoldDowns m) :=
    fun m => .foldl (f := fun s n => setHoldDown n (countDown s.watch.holdDowns[n]) s) (fun _ _ => ⟨rfl, rfl, le_rfl⟩)
      (List.finRange 4) m
  exact (closes.trans (downs _)).trans ⟨rfl, rfl, le_rfl⟩

/-! ## Every command -/

/-- A predicate about the part between two commands, kept by the effect of every command but a cold start and by
CIPHER_UNIT_TAKE, is kept by every such command. -/
theorem exec_keeps (k : Keeps Inv [.requests]) (he : ∀ c s, Inv s → Inv (effect c s))
    (hu : ∀ s t, takeUnit s = some t → Inv s → Inv (drainInbound t)) {c : Instr} (hc : ∀ d l n, c ≠ .coldStart d l n)
    (h : exec c s = .next t) (hs : Inv s) : Inv t := by
  have cleared : ∀ m, Inv m → Inv (clearTouched m) := fun m hm => k.of hm (frame_clearTouched m)
  rcases exec_cases h with ⟨d, l, n, rfl, -⟩ | ⟨-, u, e, rfl⟩ | ⟨-, rfl⟩
  · exact absurd rfl (hc d l n)
  · exact cleared _ (hu _ u e (cleared s hs))
  · exact cleared _ (he c _ (cleared s hs))

end Sys2Proof.Machine
end


-- ==== Sys2Proof/Proofs/RangeRecords.lean ====
section
/-! PROOF. What the operations that write range records make of the table of range records (R25 to R27, R112, R120, R160,
R162), and O25: the extents of the defined ranges stay apart. -/

-- As in the tests: each theorem that waits for the kernel in parallel would keep a thread.
set_option Elab.async false

namespace Sys2Proof.Machine

/-! ## The table of range records -/

@[simp] theorem withTouched_copies (f : State → State) (s : State) :
    (withTouched f s).2.copies = (f { s with store := { s.store with touched := [] } }).copies := rfl

/-- R25: the table after a renewal. -/
theorem renewRange_records (r : Fin 16) (upd : RangeRec → RangeRec) (s : State) :
    (renewRange r upd s).2.2.copies.ranges
      = s.copies.ranges.set r (renewedRec upd s.draws s.copies.ranges[r]) := by
  have gone : ∀ m : State, (releaseHold m).copies.ranges = m.copies.ranges := fun m => (frame_releaseHold m).cRanges
  have told : ∀ m : State, (settleWaiters m).copies.ranges = m.copies.ranges := fun m => (frame_settleWaiters m).cRanges
  have fresh : ∀ m : State, (freshKeys r upd m).copies.ranges
      = m.copies.ranges.set r (renewedRec upd m.draws m.copies.ranges[r]) := by
    intro m
    rw [freshKeys, (frame_setMark r false _).cRanges, removeRangeWraps, (frame_removeWraps _ _).cRanges]
    rfl
  have let' := frame_letGo r s
  rw [renewRange_eq]
  simp only [apply_ite (fun m : State => m.copies.ranges), gone, told, ite_self]
  rw [(frame_reopen r _ _).cRanges, fresh, let'.cRanges, let'.draws]

/-- R26: the table after a destruction. -/
theorem destroyRange_records (r : Fin 16) (s : State) :
    (destroyRange r s).copies.ranges = s.copies.ranges.set r { s.copies.ranges[r] with
      current := none, next := none, generation := nextGeneration s.copies.ranges[r].generation, salt := ⟨s.draws⟩,
      erased := true } := rfl

/-- R27: the table after a deletion. -/
theorem deleteRange_records (r : Fin 16) (s : State) :
    (deleteRange r s).copies.ranges = s.copies.ranges.set r { s.copies.ranges[r] with
      defined := false, extent := none, attributes := Attributes.none, current := none, next := none, erased := false } := by
  have kept : (dropRuntime r s).copies.ranges = s.copies.ranges := (frame_dropRuntime r s).cRanges
  unfold deleteRange
  dsimp only
  rw [(frame_settleWaiters _).cRanges, (frame_setMark r false _).cRanges, removeRangeWraps,
    (frame_removeWraps _ _).cRanges, ← kept]
  rfl

/-- R120: the table after the end of a rekey. -/
theorem endRekey_records (k : RekeyRec) (seen : Nat) (s : State) :
    (endRekey k seen s).copies.ranges = s.copies.ranges.set k.range { s.copies.ranges[k.range] with
      current := s.copies.ranges[k.range].next, next := none, generation := k.nextGeneration } := rfl

/-- R160: HALT takes the next key of the range under rekey, where there is one. -/
theorem haltWork_records (s : State) :
    (haltWork s).copies.ranges = s.copies.ranges
      ∨ ∃ r : Fin 16, (haltWork s).copies.ranges
          = s.copies.ranges.set r { s.copies.ranges[r] with next := none } := by
  have discarded : (discardRekey (abortWhere (fun _ => true)
      (refuseHeldWhere (fun _ => true) .erasing none s))).copies.ranges = s.copies.ranges := by
    rw [(frame_discardRekey _).cRanges, (frame_abortWhere _ _).cRanges, (frame_refuseHeldWhere _ _ _ s).cRanges]
  unfold haltWork
  dsimp only
  generalize discardRekey _ = m at discarded ⊢
  split
  · rename_i r _
    exact .inr ⟨r, by simp [putRange, applyWrite, discarded]⟩
  · exact .inl discarded

/-! ## Extents of defined ranges -/

theorem definedExtent_congr {a b : Records} (h : b.ranges = a.ranges) (r : Fin 16) :
    definedExtent b r = definedExtent a r := by
  simp [definedExtent, h]

theorem apart_congr {a b : Records} (h : b.ranges = a.ranges) : RangesApart b ↔ RangesApart a := by
  simp only [RangesApart, definedExtent_congr h]

/-- The extents after one range record is replaced. -/
theorem definedExtent_set {a b : Records} {r : Fin 16} {v : RangeRec} (h : b.ranges = a.ranges.set r v) (q : Fin 16) :
    definedExtent b q = if q = r then (if q ≠ 0 ∧ v.defined = true then v.extent else none) else definedExtent a q := by
  by_cases e : q = r
  · subst e
    simp [definedExtent, h]
  · have : (r : Nat) ≠ q := fun x => e (Fin.ext x.symm)
    simp [definedExtent, h, e, this]

theorem extentsOverlap_comm (a b : Extent) : extentsOverlap a b = extentsOverlap b a := by
  simp only [extentsOverlap, Bool.and_comm]

/-- Of extents that lie apart, any lie apart. -/
theorem RangesApart.of_le {a b : Records} (h : RangesApart a)
    (k : ∀ r e, definedExtent b r = some e → definedExtent a r = some e) : RangesApart b :=
  fun q r n d e hd he => h q r n d e (k q d hd) (k r e he)

/-- A range record is replaced by one whose extent lies apart from those of the others. -/
theorem RangesApart.put_new {a b : Records} (h : RangesApart a) {r : Fin 16} {v : RangeRec}
    (hb : b.ranges = a.ranges.set r v)
    (hv : ∀ e, r ≠ 0 → v.defined = true → v.extent = some e →
      ∀ q, q ≠ r → ∀ d, definedExtent a q = some d → extentsOverlap d e = false) : RangesApart b := by
  have of_r : ∀ e, definedExtent b r = some e → r ≠ 0 ∧ v.defined = true ∧ v.extent = some e := by
    intro e he
    rw [definedExtent_set hb, if_pos rfl] at he
    split at he
    · rename_i hr
      exact ⟨hr.1, hr.2, he⟩
    · cases he
  have other : ∀ q, q ≠ r → definedExtent b q = definedExtent a q := fun q n => by rw [definedExtent_set hb, if_neg n]
  intro q p n d e hd he
  by_cases hq : q = r
  · subst hq
    obtain ⟨z, hdef, hext⟩ := of_r d hd
    rw [extentsOverlap_comm]
    exact hv d z hdef hext p n.symm e (other p n.symm ▸ he)
  · by_cases hp : p = r
    · subst hp
      obtain ⟨z, hdef, hext⟩ := of_r e he
      exact hv e z hdef hext q hq d (other q hq ▸ hd)
    · exact h q p n d e (other q hq ▸ hd) (other p hp ▸ he)

/-- A range record is replaced by one that is defined no more widely. -/
theorem RangesApart.put_same {a b : Records} (h : RangesApart a) {r : Fin 16} {v : RangeRec}
    (hb : b.ranges = a.ranges.set r v)
    (hv : r ≠ 0 → v.defined = true → a.ranges[r].defined = true ∧ v.extent = a.ranges[r].extent) : RangesApart b := by
  refine h.put_new hb fun e z hdef hext q n d hd => ?_
  obtain ⟨k1, k2⟩ := hv z hdef
  exact h q r n d e hd (by rw [definedExtent, if_pos ⟨z, k1⟩, ← k2, hext])

/-! ## O25 -/

/-- All fields but the range records. -/
abbrev apartFields : List Field := allFields.filter (· ≠ .cRanges)

/-- The extents of the defined ranges, as the working copies have them, do not overlap. -/
def Apart (s : State) : Prop := RangesApart s.copies

theorem apart_keeps : Keeps Apart apartFields :=
  fun _ _ f h => (apart_congr f.cRanges).mpr h

/-- A range record is replaced by one that is defined no more widely. -/
theorem Apart.put_same {s t : State} (h : Apart s) {r : Fin 16} {v : RangeRec}
    (ht : t.copies.ranges = s.copies.ranges.set r v)
    (hv : v.defined = true → s.copies.ranges[r].defined = true ∧ v.extent = s.copies.ranges[r].extent) : Apart t :=
  RangesApart.put_same h ht fun _ => hv

theorem apart_destroyRange (r : Fin 16) (s : State) (h : Apart s) : Apart (destroyRange r s) :=
  h.put_same (destroyRange_records r s) fun d => ⟨d, rfl⟩

theorem apart_haltWork (s : State) (h : Apart s) : Apart (haltWork s) := by
  rcases haltWork_records s with e | ⟨r, e⟩
  · exact (apart_congr e).mpr h
  · exact h.put_same e fun d => ⟨d, rfl⟩

theorem apart_destroyWork (s : State) (h : Apart s) : Apart (destroyWork s) := by
  refine keeps_foldl (Inv := fun s => Apart s) (fun s r h => ?_) _ _
    (apart_keeps.of h (frame_removeWraps _ s))
  split
  · exact apart_destroyRange r s h
  · exact h

theorem apart_eraseNext (k : Nat) (s : State) (h : Apart s) : Apart (eraseNext k s) := by
  rw [eraseNext_eq]
  split
  · exact eraseThen_keeps apart_keeps.mono apart_haltWork k s h
  · split
    · exact eraseThen_keeps apart_keeps.mono (fun s h => apart_keeps.of h (frame_zeroizeWork s)) k s h
    · split
      · exact eraseThen_keeps apart_keeps.mono apart_destroyWork k s h
      · split
        · exact apart_keeps.of h (frame_startScrub s)
        · exact apart_keeps.of h (frame_finishErase _ s)

theorem apart_runCont (c : Cont) (s : State) (h : Apart s) : Apart (runCont c s) := by
  cases c with
  | eraseNext k => exact apart_eraseNext k s h
  | eraseEntered => exact apart_keeps.of h (frame_eraseEntered s)
  | scrubHalf => exact apart_keeps.of h (frame_noticeSec _ s)
  | scrubEnd r => exact apart_keeps.of h (frame_finishErase r s)
  | rekeyWindow => exact apart_keeps.of h (frame_chooseWindow s)
  | rekeyClosing => exact apart_keeps.of h (frame_closingSteps s)
  | rekeyEnded r => exact apart_keeps.of h (frame_rekeyEnded r s)

theorem apart_endRekey (k : RekeyRec) (seen : Nat) (s : State) (h : Apart s) :
    Apart (endRekey k seen s) :=
  h.put_same (endRekey_records k seen s) fun d => ⟨d, rfl⟩

theorem apart_rekeyAdvances (k : RekeyRec) (w : Extent) (s : State) (h : Apart s) : Apart (rekeyAdvances k w s) := by
  have noticed : ∀ p : Prop, [Decidable p] → Apart (if p then noticeSec (.rekeyHalf k.range) s else s) := by
    intro p _
    split
    · exact apart_keeps.of h (frame_noticeSec _ s)
    · exact h
  have seen : ∀ m, Apart m → Apart { m with rekey := { m.rekey with seen := some (k.range, k.frontier) } } :=
    fun _ hm => hm
  unfold rekeyAdvances
  dsimp only
  split
  · exact apart_endRekey _ _ _ (noticed _)
  · exact apart_keeps.of (seen _ (noticed _)) (frame_rewriteRekey _ _)

theorem apart_rekeyFails (k : RekeyRec) (s : State) (h : Apart s) : Apart (rekeyFails k s) := by
  have rewritten : ∀ k', Apart (rewriteRekey k' s) := fun k' => apart_keeps.of h (frame_rewriteRekey k' s)
  unfold rekeyFails
  split
  · exact rewritten _
  · exact apart_keeps.of (rewritten _) (frame_noticeSec _ _)

theorem apart_rekeyCompletes (o : MigOrder) (ok : Bool) (s : State) (h : Apart s) : Apart (rekeyCompletes o ok s) := by
  have taken : Apart { s with rekey := { s.rekey with order := none } } := h
  unfold rekeyCompletes
  generalize { s with rekey := { s.rekey with order := none } } = m at taken ⊢
  dsimp only
  split
  · split
    · exact apart_rekeyAdvances _ _ m taken
    · exact apart_rekeyFails _ m taken
  · exact taken

theorem apart_orderDone (num : Nat) (ok : Bool) (s : State) (h : Apart s) :
    Apart (orderDone num ok s) := by
  have scrub : Apart (match scrubOrder num s with
      | some p => scrubCompletes p ok s
      | none => s) := by
    split
    · exact apart_keeps.of h (frame_scrubCompletes _ ok s)
    · exact h
  unfold orderDone
  split
  · split
    · exact apart_rekeyCompletes _ ok s h
    · exact scrub
  · exact scrub

theorem apart_takeFrame (c : Instr) (s : State) (h : Apart s) : Apart (takeFrame c s) := by
  unfold takeFrame
  split
  · exact apart_keeps.of h (frame_linkHello s)
  · split
    · unfold handFrame
      split
      · exact apart_keeps.of h (frame_pushFrame _ s)
      · exact apart_keeps.of h (frame_takeDescriptor _ _ _ _ s)
      · exact apart_keeps.of h (frame_unitArrives _ _ _ s)
      · exact apart_keeps.of h (frame_stopTransfer _ s)
      · exact apart_orderDone _ _ s h
      · split
        · exact apart_keeps.of h (frame_takeRequest _ s)
        · exact h
    · exact h

theorem apart_renewRange {r : Fin 16} (s : State) (hr : rangeDefined s.copies r = true) (h : Apart s) :
    Apart (renewRange r id s).2.2 :=
  RangesApart.put_same h (renewRange_records r id s) fun z _ => ⟨by simpa [rangeDefined, z] using hr, rfl⟩

theorem apart_renewAll (l : List (Fin 16)) (s : State) (h : Apart s) :
    Apart (renewAll l s).2 := by
  induction l generalizing s with
  | nil => exact h
  | cons r l ih =>
    unfold renewAll
    split
    · rename_i hr
      have renewed := apart_renewRange s hr h
      generalize renewRange r id s = x at renewed ⊢
      exact ih _ renewed
    · exact ih s h

theorem apart_reprovisionEffect (c : Fin 8) (key : CredKey) (s : State) (h : Apart s) :
    Apart (reprovisionEffect c key s) := by
  have renewed := apart_renewAll (List.finRange 16) s h
  unfold reprovisionEffect
  generalize renewAll (List.finRange 16) s = x at renewed ⊢
  have owned := Frame.foldl (f := fun s (x : Fin 16 × Key × Bool) => ownerEntries c key x.1 x.2.1 s)
    (fun s x => frame_ownerEntries c key x.1 x.2.1 s) x.1 x.2
  exact apart_keeps.of (L := apartFields) (M := .sec :: .cCreds :: .cJournal :: wrapFields) renewed
    ((frame_modSec _ _).after ((frame_put (.journal none) _ .cJournal).after (N := .cCreds :: .cJournal :: wrapFields)
      ((frame_clearOwnCounts _).after (N := .cCreds :: wrapFields) owned)))

theorem apart_renewAndOwn {c : Fin 8} {key : CredKey} {r : Fin 16} {upd : RangeRec → RangeRec} {s : State}
    (h : Apart (renewRange r upd s).2.2) : Apart (renewAndOwn c key r upd s) := by
  unfold renewAndOwn
  generalize renewRange r upd s = x at h ⊢
  exact apart_keeps.of (apart_keeps.of h (frame_ownerEntries c key r x.1 _)) (frame_secFinish _ _ _)

theorem apart_defineEffect (c : Fin 8) (key : CredKey) (r : Fin 16) (e : Extent) (a : Attributes) (s : State)
    (h : Apart s) : Apart (defineEffect c key r e a s) := by
  unfold defineEffect
  split
  · exact apart_keeps.of h (frame_secFinish _ _ s)
  · split
    · exact apart_keeps.of h (frame_secFinish _ _ s)
    · rename_i free
      split
      · exact apart_keeps.of h (frame_secFinish _ _ s)
      · refine apart_renewAndOwn ?_
        have aborted := frame_abortWhere (fun x => admittedIn r x || admittedOn e x) s
        have h' := apart_keeps.of h aborted
        refine RangesApart.put_new h' (renewRange_records r _ _) fun d _ _ hd q n f hf => ?_
        have hd : e = d := by simpa [renewedRec] using hd
        subst hd
        simp only [overlapsOther, List.any_eq_true, List.mem_finRange, true_and, not_exists, Bool.and_eq_true,
          decide_eq_true_eq, not_and] at free
        have := free q n
        rw [← definedExtent_congr aborted.cRanges, hf] at this
        simpa using this

theorem apart_eraseRangeEffect (c : Fin 8) (key : CredKey) (r : Fin 16) (s : State) (h : Apart s) :
    Apart (eraseRangeEffect c key r s) := by
  unfold eraseRangeEffect
  split
  · exact apart_keeps.of h (frame_secFinish _ _ s)
  · rename_i hr
    split
    · exact apart_keeps.of h (frame_secFinish _ _ s)
    · have aborted := frame_abortWhere (admittedIn r) s
      refine apart_renewAndOwn (apart_renewRange _ ?_ (apart_keeps.of h aborted))
      rw [Bool.not_eq_true', Bool.not_eq_false] at hr
      rwa [rangeDefined, aborted.cRanges]

theorem apart_deleteEffect (r : Fin 16) (s : State) (h : Apart s) :
    Apart (deleteEffect r s) := by
  unfold deleteEffect
  split
  · exact apart_keeps.of h (frame_secFinish _ _ s)
  · split
    · exact apart_keeps.of h (frame_secFinish _ _ s)
    · have deleted := (apart_keeps.of h (frame_abortWhere (admittedIn r) s)).put_same
        (deleteRange_records r (abortWhere (admittedIn r) s)) fun d => absurd d (by simp)
      exact apart_keeps.of (apart_keeps.of deleted (frame_leavePending r _)) (frame_secFinish _ _ _)

theorem apart_attributesEffect (r : Fin 16) (a : Attributes) (s : State) (h : Apart s) :
    Apart (attributesEffect r a s) := by
  have h0 := apart_keeps.of h (frame_purgeStale .device r s)
  have finish : ∀ c m, Apart m → Apart (secFinish c .empty m) :=
    fun c m hm => apart_keeps.of hm (frame_secFinish c .empty m)
  unfold attributesEffect
  generalize purgeStale .device r s = s0 at h0 ⊢
  dsimp only
  have h1 : Apart (putRange r { s0.copies.ranges[r] with attributes := a } s0) :=
    h0.put_same rfl fun d => ⟨d, rfl⟩
  generalize putRange r { s0.copies.ranges[r] with attributes := a } s0 = s1 at h1 ⊢
  have cleared : ∀ p q : Bool, ∀ m : State, Apart m →
      Apart (if q then leavePending r (if p then removeEntry .device r m else m)
        else if p then removeEntry .device r m else m) := by
    intro p q m hm
    have h3 : Apart (if p then removeEntry .device r m else m) := by
      split
      · exact apart_keeps.of hm (frame_removeWraps _ m)
      · exact hm
    split
    · exact h3
    · exact h3
  split
  · exact finish _ _ h0
  · split
    · exact finish _ _ h0
    · split
      · exact finish _ _ h0
      · refine finish _ _ (cleared _ _ _ ?_)
        split
        · split
          · exact apart_keeps.of h1 (frame_addWrap _ _ _ _ _ s1)
          · exact h1
        · exact h1

theorem apart_startRekey (r : Fin 16) (s : State) (h : Apart s) : Apart (startRekey r s) := by
  unfold startRekey
  split
  · dsimp only
    split
    · rename_i hd _ n s2 e
      have h2 : Apart s2 := apart_keeps.of (s := (drawKey s).2) h (frame_allocOne e)
      have h4 : ∀ v : Option SealedKey, ∀ m : State, Apart m →
          Apart (putBy .rekeyEngine (.range r { m.copies.ranges[r] with next := v }) m) :=
        fun v m hm => hm.put_same rfl fun d => ⟨d, rfl⟩
      have h5 : ∀ k v m, Apart m →
          Apart (putRekey k (putBy .rekeyEngine (.range r { m.copies.ranges[r] with next := v }) m)) :=
        fun k v m hm => apart_keeps.of (h4 v m hm) (frame_put (.rekey k) _ .cRekey)
      split
      · exact apart_endRekey _ _ _ (h5 _ _ _ (apart_keeps.of h2 (frame_setRun r _ s2)))
      · exact h5 _ _ _ (apart_keeps.of h2 (frame_setRun r _ s2))
    · exact h
  · exact h

theorem apart_requestEffect (req : Instr) (c : Fin 8) (key : CredKey) (s : State) (h : Apart s) :
    Apart (requestEffect req c key s) := by
  unfold requestEffect
  split
  · exact apart_keeps.of h (frame_unlockEffect _ _ _ s)
  · exact apart_keeps.of h (frame_secNewVerifier _ s)
  · exact apart_keeps.of h (frame_setSecretEffect _ _ s)
  · exact apart_keeps.of h (frame_enableEffect _ s)
  · exact apart_keeps.of h (frame_removeEffect _ s)
  · exact apart_keeps.of h (frame_grantEffect _ _ _ _ _ _ s)
  · exact apart_keeps.of h (frame_revokeEffect _ _ s)
  · exact apart_defineEffect _ _ _ _ _ s h
  · exact apart_deleteEffect _ s h
  · exact apart_attributesEffect _ _ s h
  · exact apart_eraseRangeEffect _ _ _ s h
  · exact apart_keeps.of h (frame_policyEffect _ s)
  · exact apart_keeps.of h (frame_bindEffect s)
  · exact apart_keeps.of h (frame_unbindEffect s)
  · exact apart_keeps.of h (frame_tokenEffect _ s)
  · exact apart_keeps.of h (frame_readIncidentsEffect _ s)
  · exact apart_keeps.of h (frame_clearIncidentsEffect s)
  · unfold rekeyStartEffect
    split
    · exact apart_keeps.of h (frame_secFinish _ _ s)
    · exact apart_keeps.of (apart_startRekey _ s h) (frame_secFinish _ _ _)
  · unfold rekeyResumeEffect
    split
    · exact apart_keeps.of h (frame_secFinish _ _ s)
    · exact apart_keeps.of (apart_keeps.of h (frame_resumeFaulted s)) (frame_secFinish _ _ _)
  · exact apart_keeps.of h (frame_eraseAllEffect s)
  · exact apart_reprovisionEffect _ _ s h
  · exact h

theorem apart_derivationEnds (s : State) (h : Apart s) : Apart (derivationEnds s) := by
  have security : ∀ key m, Apart m → Apart (secDerived key m) := by
    intro key m hm
    unfold secDerived
    split
    · exact hm
    · split
      · unfold verdict
        split
        · exact hm
        · split
          · rename_i c _ _ _
            have reset := apart_keeps.of hm (frame_successResets c key m)
            unfold successVerdict
            dsimp only
            split
            · exact apart_keeps.of reset (frame_secFinish _ _ _)
            · exact apart_requestEffect _ _ _ _ reset
          · exact apart_keeps.of hm (frame_mismatchVerdict _ m)
      · exact apart_keeps.of (apart_keeps.of hm (frame_modSec _ m)) (frame_secondDerived _ _ _ _)
      · exact hm
  exact derivationEnds_keeps apart_keeps.mono security (fun key m hm => apart_keeps.of hm (frame_tokenDerived key m)) s h

theorem apart_migrationExpires (s : State) (h : Apart s) : Apart (migrationExpires s) := by
  unfold migrationExpires
  split
  · split
    · exact apart_rekeyCompletes _ _ s h
    · exact h
  · exact h

theorem apart_effect (c : Instr) (s : State) (h : Apart s) : Apart (effect c s) := by
  have quiet : Keeps Apart [.inbound, .requests] := apart_keeps.mono
  have message : ∀ {m : Instr} {b : Bool} {f : State → State} {M : List Field} (_ : ∀ s, Frame M s (f s))
      (_ : M ⊆ apartFields := by decide +kernel), Apart (writeTransaction m b f s) := fun hf hm =>
    writeTransaction_keeps apart_keeps.mono _ _ (fun s h => apart_keeps.of h (hf s) hm) s h
  cases c
  case linkResetIndication =>
    exact resetIndication_keeps quiet apart_takeFrame (fun s h => apart_keeps.of h (frame_driveLinkReset s)) s h
  case migrationOrderDeadlineExpiry => exact apart_migrationExpires s h
  case migrateOrderSend => exact apart_keeps.of h (frame_sendMigrateOrder s)
  case scrubOrderDeadlineExpiry num => exact apart_keeps.of h (frame_scrubExpires num s)
  case derivationComplete => exact apart_derivationEnds s h
  case storeWriteComplete =>
    exact storeCompletes_keeps (Inv := fun s => Apart s) apart_keeps.mono apart_runCont
      (fun s h => apart_keeps.of h (frame_secDue s)) s h
  case closeComplete r => exact apart_keeps.of h (frame_closeIfDrained r s)
  case closeDeadlineExpiry r => exact apart_keeps.of h (frame_closeExpires r s)
  case slotDrainComplete k => exact apart_keeps.of h (frame_drainSlot k s)
  case holdoffExpiry => exact apart_keeps.of h (frame_holdoffExpires s)
  case bindingDeadlineExpiry => exact apart_keeps.of h (frame_bindingExpires s)
  case checkinTimerExpiry => exact apart_keeps.of h (frame_checkinExpires s)
  case watchLineEdge n level => exact apart_keeps.of h (.ite (frame_takeEdge n level s) (.refl _ s))
  case holdDownExpiry n =>
    exact apart_keeps.of (M := [.sensors]) h (.ite ⟨rfl, rfl, le_rfl⟩ (.refl _ s))
  case bind w => exact message (fun s => frame_bindMessage w s)
  case checkin w => exact message (fun s => frame_checkinMessage w s)
  case sleep => exact message frame_sleepMessage
  case wake => exact message frame_wakeMessage
  case alert severity => exact message (fun s => frame_alertMessage severity s)
  case remoteErase token => exact message (fun s => frame_remoteEraseMessage token s)
  case platformFetch => exact message frame_fetchMessage
  case platformSetMask m => exact message (fun s => frame_platMaskMessage m s)
  case platformMalformedMessage kind => exact message (M := []) (fun s => .refl _ s)
  case platformRead => exact apart_keeps.of h (frame_readTransaction s)
  case platformLinkReset => exact apart_keeps.of h (frame_platformReset s)
  case decayTimerExpiry => exact apart_keeps.of h (frame_decayExpires s)
  case outboundFrameSent => exact apart_keeps.of h (frame_frameLeaves s)
  all_goals exact arrive_keeps quiet apart_takeFrame _ s h

/-! ### A cold start -/

/-- A damaged range that is not yet judged has no extent. -/
theorem apart_blankRanges (damage : List Damage) (recs : Records) (h : RangesApart recs) :
    RangesApart (blankRanges damage recs) := by
  unfold blankRanges
  induction List.finRange 16 generalizing recs with
  | nil => exact h
  | cons r l ih =>
    refine ih _ ?_
    dsimp only
    split
    · exact h.put_same (v := RangeRec.undefined) rfl fun _ d => absurd d (by decide)
    · exact h

/-- R1: a damaged range that stays defined overlaps none of those that stand so far. -/
theorem damagedExtent_apart {recs : Records} {found : DamagedRange} {e : Extent} (h : damagedExtent recs found = some e)
    (q : Fin 16) (d : Extent) (hd : definedExtent recs q = some d) : extentsOverlap d e = false := by
  unfold damagedExtent at h
  split at h
  · rename_i f _
    split at h
    · rename_i ok
      obtain rfl : f = e := by simpa using h
      have all := ok.2.2.2.2.2
      rw [List.all_eq_true] at all
      have := all q (List.mem_finRange q)
      rw [hd] at this
      simpa using this
    · cases h
  · cases h

theorem treatedRange_extent {recs : Records} {r : Fin 16} {found : DamagedRange} {e : Extent} (hr : r ≠ 0)
    (h : (treatedRange recs r found).extent = some e) : damagedExtent recs found = some e := by
  unfold treatedRange at h
  rw [if_neg hr] at h
  split at h
  · rename_i d hd
    rw [hd]
    exact h
  · cases h

theorem apart_loadRanges (damage : List Damage) (s : State) (h : Apart s) : Apart (loadRanges damage s) := by
  have blank : Apart { s with copies := blankRanges damage s.copies } := apart_blankRanges damage s.copies h
  refine keeps_foldl (fun s r h => ?_) _ _ blank
  split
  · rename_i found _
    exact RangesApart.put_new h rfl fun e z _ he q _ d hd => damagedExtent_apart (treatedRange_extent z he) q d hd
  · exact h

theorem apart_loadRecords (damage : List Damage) (s : State) (h : Apart s) : Apart (loadRecords damage s) := by
  have treated : ∀ (d : Damage) (w : RecWrite) (f : Field) (_ : writeField w = f)
      (_ : [f, .requests] ⊆ apartFields) (s : State), Apart s → Apart (treat damage d w s) :=
    fun d w f hf hm s hs => apart_keeps.of hs (frame_treat damage d w s f hf) hm
  have h2 := apart_loadRanges damage _ (treated .policy (.policy Policy.default) _ rfl (by decide +kernel) s h)
  have h3 := keeps_foldl (f := fun s c => treat damage (.credential c) (.cred c CredRec.empty) s)
    (fun s c => treated _ (.cred c CredRec.empty) .cCreds rfl (by decide +kernel) s) (List.finRange 8) _ h2
  have h5 := keeps_foldl (f := fun s k => treat damage (.wrapEntry k) (.wrap k none) s)
    (fun s k => treated _ (.wrap k none) .cWraps rfl (by decide +kernel) s) (List.finRange 64) _
    (treated .chargedCount (.charged 0) _ rfl (by decide +kernel) _ h3)
  have h7 := treated .remoteToken (.token none) _ rfl (by decide +kernel) _
    (treated .bindingDigest (.digest none) _ rfl (by decide +kernel) _ h5)
  have h8 := fun w => treated .watchRecord (.watch w) .cWatch rfl (by decide +kernel) _ h7
  have h10 := fun w => treated .eraseJournal (.journal (some ⟨.unknown, 0, 0, [], none⟩)) _ rfl (by decide +kernel) _
    (treated .rekeyRecord (.rekey none) _ rfl (by decide +kernel) _ (h8 w))
  exact treated .incidentList (.incidents []) _ rfl (by decide +kernel) _ (h10 _)

/-- R125, first half: the rekey record itself. -/
def judgedRekey (s : State) : State :=
  match s.copies.rekey with
  | some k =>
    if rangeDefined s.copies k.range = true ∧ s.copies.ranges[k.range].erased = false
        ∧ s.copies.ranges[k.range].next.isSome = true then
      (if k.state = .paused then s else putRekey (some { k with state := .paused }) s)
    else putRekey none s
  | none => s

/-- R125, second half: without a rekey record no range holds a next key. -/
def withoutNext (s : State) : State :=
  (List.finRange 16).foldl (fun s r =>
    if s.copies.ranges[r].next.isSome then putRange r { s.copies.ranges[r] with next := none } s else s) s

theorem reconcileRekey_eq (s : State) :
    reconcileRekey s
      = if (judgedRekey s).copies.rekey.isSome then judgedRekey s else withoutNext (judgedRekey s) := by
  unfold reconcileRekey judgedRekey withoutNext
  rfl

theorem frame_judgedRekey (s : State) : Frame [.cRekey, .requests] s (judgedRekey s) := by
  unfold judgedRekey
  split
  · exact .ite (.ite (.refl _ s) (frame_put _ s .cRekey)) (frame_put _ s .cRekey)
  · exact .refl _ s

theorem apart_withoutNext (s : State) (h : Apart s) : Apart (withoutNext s) := by
  refine keeps_foldl (fun s r h => ?_) _ s h
  split
  · exact h.put_same rfl fun d => ⟨d, rfl⟩
  · exact h

theorem apart_reconcileRekey (s : State) (h : Apart s) : Apart (reconcileRekey s) := by
  have judged := apart_keeps.of h (frame_judgedRekey s)
  rw [reconcileRekey_eq]
  split
  · exact judged
  · exact apart_withoutNext _ judged

theorem apart_deriveStates (damage : List Damage) (s : State) (h : Apart s) : Apart (deriveStates damage s) := by
  have runs := apart_keeps.of h (Frame.foldl (L := [.ranges]) (f := fun s r =>
    setRun r (if s.copies.ranges[r].erased then .erased else .locked) s) (fun s r => frame_setRun r _ s) (List.finRange 16) s)
  have fits := fun p => apart_keeps.of (apart_reconcileRekey _ runs) (frame_removeWraps p _)
  exact apart_keeps.of (apart_keeps.of (fits _) (frame_disableLoaded _))
    (Frame.foldl (f := fun s d => addIncident (damageKind d) s) (fun s d => frame_addIncident (damageKind d) s)
      (damageOrder damage) _)

theorem apart_resumeErase (s : State) (h : Apart s) : Apart (resumeErase s) := by
  have entered := fun w => apart_keeps.of h (frame_enterWatch w s)
  have erasing : ∀ w : WatchRec, Apart (if s.copies.watch.state = .erasing then s else enterWatch w s) := by
    intro w
    split
    · exact h
    · exact entered w
  unfold resumeErase
  split
  · exact h
  · split
    · split
      · exact h
      · exact entered _
    · dsimp only
      split
      · exact apart_keeps.of (erasing _) (frame_startScrub _)
      · exact apart_eraseNext 3 _ (apart_haltWork _ (erasing _))

theorem apart_evaluateLoaded (s : State) (h : Apart s) : Apart (evaluateLoaded s) := by
  unfold evaluateLoaded
  split
  · exact apart_keeps.of h (frame_evaluate false s)
  · exact h

/-- An uncut cold start begins with the store's records. -/
theorem apart_coldStart (damage : List Damage) (levels : BitVec 4) (s : State) (h : RangesApart s.store.nv) :
    Apart (coldStart damage levels none s) :=
  startUp_keeps apart_keeps.mono (apart_loadRecords damage) (apart_deriveStates damage) apart_resumeErase
    apart_evaluateLoaded (fun s h => apart_keeps.of h (frame_exhaust s))
    (fun s h => apart_keeps.of h (frame_autoOpenAll s)) apart_runCont (powerUp s.store.nv s) h

/-- Reset has one range, range 0, and it has no extent of its own. -/
theorem apart_reset : RangesApart State.reset.copies := by
  have none_defined : ∀ r, definedExtent State.reset.copies r = none := by decide +kernel
  intro q r _ d e hd
  rw [none_defined q] at hd
  cases hd

/-- Settles O25: reset has the extents apart; a command other than a cold start replaces no range record by one that is
defined more widely, but for DEFINE_RANGE, which has tested the new extent; a cold start keeps a damaged range only where it
overlaps none that stands. -/
theorem rangesStayApart : Obligations.RangesStayApart := by
  refine ⟨apart_reset, fun s t h => ?_⟩
  unfold step at h
  split at h
  · rename_i hp
    cases h
    refine ⟨fun _ k => apart_keeps.of (s := s) k (frame_tick s), ?_⟩
    rintro ⟨d, l, hd⟩ _
    rw [hp] at hd
    cases hd
  · rename_i c rest hp
    constructor
    · intro hc k
      have hc' : ∀ d l n, c ≠ .coldStart d l n := fun d l n e => hc d l n (by rw [hp, e]; rfl)
      exact exec_keeps apart_keeps.mono apart_effect
        (fun s t hu h => drainInbound_keeps apart_keeps.mono apart_takeFrame _ (apart_keeps.of h (frame_takeUnit hu)))
        hc' h (s := { s with pending := rest }) k
    · rintro ⟨d, l, hd⟩ k
      rw [hp] at hd
      obtain rfl : c = .coldStart d l none := by simpa using hd
      cases h
      exact apart_keeps.of (apart_coldStart d l (clearTouched { s with pending := rest }) k) (frame_clearTouched _)

end Sys2Proof.Machine
end


-- ==== Sys2Proof/Proofs/SlotRules.lean ====
section
/-! PROOF. The rules of the key slots and the transfer table: what keeps `SlotsOk` (R4, R10 to R13, R29, R40, R52), one rule
for a change of a range and its slots and one for a change of a table entry, and the operations that follow from them. -/

-- As in the tests: each theorem that waits for the kernel in parallel would keep a thread.
set_option Elab.async false

namespace Sys2Proof.Machine

/-! ## Counting entries -/

/-- Whether an entry pins a slot (R12). -/
def pinsSlot (k : Fin 18) : Entry → Bool
  | .admitted x => (slotsNamed x.segs).contains k
  | _ => false

theorem pinsOn_eq (k : Fin 18) (s : State) : pinsOn k s = countEntries (pinsSlot k) s :=
  congrArg (countEntries · s) (funext fun e => by cases e <;> rfl)

theorem pinsSlot_admitted {k : Fin 18} {x : Xfer} : pinsSlot k (.admitted x) = true ↔ k ∈ slotsNamed x.segs := by
  simp [pinsSlot]

theorem mem_slotsNamed {k : Fin 18} {segs : List Segment} :
    k ∈ slotsNamed segs ↔ ∃ g ∈ segs, g.treatment = .cipher k := by
  simp [slotsNamed]

theorem mem_rangesNamed {r : Fin 16} {segs : List Segment} : r ∈ rangesNamed segs ↔ ∃ g ∈ segs, g.range = r := by
  simp [rangesNamed]

/-- Two lists of tests that differ at one place at most. -/
theorem filter_length_of_one {α : Type} [DecidableEq α] {p q : α → Bool} {a : α} {l : List α} (hl : l.Nodup) (ha : a ∈ l)
    (h : ∀ b, b ≠ a → q b = p b) : (l.filter q).length + (p a).toNat = (l.filter p).length + (q a).toNat := by
  induction l with
  | nil => cases ha
  | cons b l ih =>
    obtain ⟨hb, hl⟩ := List.nodup_cons.mp hl
    by_cases e : b = a
    · subst e
      have same : l.filter q = l.filter p := List.filter_congr fun c hc => h c fun e => hb (e ▸ hc)
      simp only [List.filter_cons, same]
      cases p b <;> cases q b <;> simp
    · have := ih hl (by simpa [Ne.symm e] using ha)
      simp only [List.filter_cons, h b e]
      split
      · simp only [List.length_cons]
        omega
      · exact this

/-- How a count changes with one entry. -/
theorem countEntries_set (p : Entry → Bool) {s t : State} {g : Fin 32} {e : Entry}
    (h : t.adm.table = s.adm.table.set g e) :
    countEntries p t + (p s.adm.table[g]).toNat = countEntries p s + (p e).toNat := by
  have other : ∀ u : Fin 32, u ≠ g → t.adm.table[u] = s.adm.table[u] := by
    intro u n
    have : (g : Nat) ≠ u := fun x => n (Fin.ext x.symm)
    simp [h, this]
  have same : t.adm.table[g] = e := by simp [h]
  have := filter_length_of_one (p := fun u => p s.adm.table[u]) (q := fun u => p t.adm.table[u])
    (List.nodup_finRange 32) (List.mem_finRange g) (fun u n => by rw [other u n])
  rwa [same] at this

theorem table_set_get {s t : State} {g : Fin 32} {e : Entry} (h : t.adm.table = s.adm.table.set g e) (u : Fin 32) :
    t.adm.table[u] = if u = g then e else s.adm.table[u] := by
  have := setEntry_get g u e s
  rwa [setEntry, ← h] at this

/-- An entry that names a slot is counted. -/
theorem pinsOn_pos {k : Fin 18} {s : State} {g : Fin 32} (h : pinsSlot k s.adm.table[g] = true) : 0 < pinsOn k s := by
  rw [pinsOn_eq, countEntries, List.length_pos_iff_exists_mem]
  exact ⟨g, by simpa using h⟩

/-- Without ADMITTED entries no slot is pinned. -/
theorem pinsOn_zero {k : Fin 18} {s : State} (h : ∀ (g : Fin 32) x, s.adm.table[g] ≠ .admitted x) : pinsOn k s = 0 := by
  rw [pinsOn_eq, countEntries, List.length_eq_zero_iff, List.filter_eq_nil_iff]
  intro g _
  have := h g
  generalize s.adm.table[g] = e at this ⊢
  cases e with
  | admitted x => exact absurd rfl (this x)
  | _ => simp [pinsSlot]

/-! ## The two rules -/

/-- What `SlotsOk` says of an entry (R29). -/
def EntryOk (capacity : Nat) : Entry → Prop
  | .admitted x => x.next < x.extent.len ∧ ∀ i, i < x.extent.len → (segmentOf x i).isSome = true
  | .held _ e => 1 ≤ e.len ∧ extentEnd e ≤ capacity
  | _ => True

/-- What `SlotsOk` says of a range with its slots (R4). -/
def HeldOk (r : Fin 16) (run : RangeRun) (s : State) : Prop :=
  ∀ h, heldBy run = some h → LiveFor r h.current s ∧ ∀ n, h.next = some n → n ≠ h.current ∧ LiveFor r n s

theorem slotsOk_iff (s : State) : SlotsOk s ↔
    (∀ k : Fin 18, slotPins s.slots[k] = pinsOn k s) ∧ (∀ r : Fin 16, HeldOk r s.ranges[r].run s)
      ∧ ∀ g : Fin 32, EntryOk s.copies.factory.capacity s.adm.table[g] := by
  constructor
  · rintro ⟨pins, held, covered, fits⟩
    refine ⟨pins, held, fun g => ?_⟩
    generalize e : s.adm.table[g] = v
    cases v with
    | admitted x => exact covered g x e
    | held c d => exact fits g c d e
    | _ => trivial
  · rintro ⟨pins, held, entries⟩
    refine ⟨pins, held, fun g x e => ?_, fun g c d e => ?_⟩
    · have := entries g
      rwa [e] at this
    · have := entries g
      rwa [e] at this

theorem LiveFor.congr {s t : State} {r : Fin 16} {k : Fin 18} (h : LiveFor r k s) (e : t.slots[k] = s.slots[k]) :
    LiveFor r k t := by
  rwa [LiveFor, e]

theorem LiveFor.owner {s : State} {q r : Fin 16} {k : Fin 18} (h : LiveFor q k s) (h' : LiveFor r k s) : q = r := by
  obtain ⟨_, _, e⟩ := h
  obtain ⟨_, _, e'⟩ := h'
  rw [e] at e'
  cases e'
  rfl

/-- A change of one range and of slots that keep their pins, and are not LIVE for any other range where they are LIVE no
more. -/
theorem SlotsOk.set_range {s t : State} (h : SlotsOk s) (r : Fin 16)
    (hpins : ∀ k : Fin 18, slotPins t.slots[k] = slotPins s.slots[k])
    (hlive : ∀ (q : Fin 16) k, q ≠ r → LiveFor q k s → LiveFor q k t)
    (hother : ∀ q : Fin 16, q ≠ r → t.ranges[q].run = s.ranges[q].run) (hr : HeldOk r t.ranges[r].run t)
    (htable : t.adm.table = s.adm.table) (hfactory : t.copies.factory = s.copies.factory) : SlotsOk t := by
  obtain ⟨pins, held, entries⟩ := (slotsOk_iff s).mp h
  refine (slotsOk_iff t).mpr ⟨fun k => ?_, fun q => ?_, fun g => ?_⟩
  · rw [hpins, pins, pinsOn, pinsOn, countEntries, countEntries, htable]
  · by_cases e : q = r
    · exact e ▸ hr
    · intro hd hh
      rw [hother q e] at hh
      obtain ⟨live, next⟩ := held q hd hh
      exact ⟨hlive q _ e live, fun n hn => ⟨(next n hn).1, hlive q n e (next n hn).2⟩⟩
  · rw [htable, hfactory]
    exact entries g

/-- A change of one entry, with the pins that it takes or gives back. -/
theorem SlotsOk.set_entry {s t : State} (h : SlotsOk s) (g : Fin 32) (e : Entry)
    (htable : t.adm.table = s.adm.table.set g e)
    (hpins : ∀ k : Fin 18, slotPins t.slots[k] + (pinsSlot k s.adm.table[g]).toNat
      = slotPins s.slots[k] + (pinsSlot k e).toNat)
    (hlive : ∀ (q : Fin 16) k, LiveFor q k s → LiveFor q k t) (hranges : t.ranges = s.ranges)
    (hfactory : t.copies.factory = s.copies.factory) (he : EntryOk s.copies.factory.capacity e) : SlotsOk t := by
  obtain ⟨pins, held, entries⟩ := (slotsOk_iff s).mp h
  refine (slotsOk_iff t).mpr ⟨fun k => ?_, fun q hd hh => ?_, fun u => ?_⟩
  · have counted := countEntries_set (pinsSlot k) htable
    have pinned := hpins k
    rw [pins k] at pinned
    rw [← pinsOn_eq, ← pinsOn_eq] at counted
    omega
  · rw [hranges] at hh
    obtain ⟨live, next⟩ := held q hd hh
    exact ⟨hlive q _ live, fun n hn => ⟨(next n hn).1, hlive q n (next n hn).2⟩⟩
  · rw [table_set_get htable, hfactory]
    split
    · exact he
    · exact entries u

/-- Entries that pin nothing are replaced by one another. -/
theorem SlotsOk.set_unpinned {s t : State} (h : SlotsOk s) (g : Fin 32) (e : Entry)
    (htable : t.adm.table = s.adm.table.set g e) (hold : ∀ x, s.adm.table[g] ≠ .admitted x) (hnew : ∀ x, e ≠ .admitted x)
    (hslots : t.slots = s.slots) (hranges : t.ranges = s.ranges)
    (hfactory : t.copies.factory = s.copies.factory) (he : EntryOk s.copies.factory.capacity e) : SlotsOk t := by
  have unpinned : ∀ k v, (∀ x, v ≠ Entry.admitted x) → pinsSlot k v = false := by
    intro k v hv
    cases v with
    | admitted x => exact absurd rfl (hv x)
    | _ => rfl
  refine h.set_entry g e htable (fun k => ?_) (fun q k l => l.congr (by rw [hslots])) hranges hfactory he
  rw [unpinned k _ hold, unpinned k _ hnew, hslots]

/-- Nothing that `SlotsOk` speaks of has changed. -/
theorem SlotsOk.congr {s t : State} (h : SlotsOk s) (hslots : t.slots = s.slots) (htable : t.adm.table = s.adm.table)
    (hranges : ∀ (r : Fin 16) hd, heldBy t.ranges[r].run = some hd →
      ∃ g, heldBy s.ranges[r].run = some g ∧ g.current = hd.current ∧ g.next = hd.next)
    (hfactory : t.copies.factory = s.copies.factory) : SlotsOk t := by
  obtain ⟨pins, held, entries⟩ := (slotsOk_iff s).mp h
  have live : ∀ {q : Fin 16} {k : Fin 18}, LiveFor q k s → LiveFor q k t := fun l => l.congr (by rw [hslots])
  refine (slotsOk_iff t).mpr ⟨fun k => ?_, fun q hd hh => ?_, fun g => ?_⟩
  · rw [hslots, pins, pinsOn, pinsOn, countEntries, countEntries, htable]
  · obtain ⟨g, hg, hc, hn⟩ := hranges q hd hh
    obtain ⟨l, next⟩ := held q g hg
    rw [hc, hn] at next
    exact ⟨live (hc ▸ l), fun n e => ⟨(next n e).1, live (next n e).2⟩⟩
  · rw [htable, hfactory]
    exact entries g

/-! ## Slots taken and retired -/

theorem slotPins_retiredSlot (v : Slot) : slotPins (retiredSlot v) = slotPins v := by
  cases v with
  | live o k n =>
    simp only [retiredSlot]
    split
    · rename_i e
      exact e.symm
    · rfl
  | _ => rfl

/-- Retiring slots that are LIVE for one range leaves the slots of the others LIVE. -/
theorem LiveFor.of_retired {s t : State} {q r : Fin 16} {k : Fin 18} (n : q ≠ r) (l : LiveFor q k s)
    (h : t.slots[k] = s.slots[k] ∨ LiveFor r k s) : LiveFor q k t := by
  rcases h with e | l'
  · exact l.congr e
  · exact absurd (l.owner l') n

theorem setRun_get_self (r : Fin 16) (run : RangeRun) (s : State) : (setRun r run s).ranges[r].run = run := by
  rw [setRun_get, if_pos rfl]

theorem setRun_get_other {r q : Fin 16} (n : q ≠ r) (run : RangeRun) (s : State) :
    (setRun r run s).ranges[q].run = s.ranges[q].run := by
  rw [setRun_get, if_neg n]

/-- A range lets go of its slots, which are retired (R13, R22, R25 to R27). -/
theorem SlotsOk.letGo {s : State} (h : SlotsOk s) {r : Fin 16} {hd : Held} (hh : heldBy s.ranges[r].run = some hd)
    {run : RangeRun} (hrun : heldBy run = none) : SlotsOk (setRun r run (retireHeld hd s)) := by
  obtain ⟨same, retired⟩ := retireHeld_slots hd s
  obtain ⟨live, next⟩ := h.2.1 r hd hh
  have slots : (setRun r run (retireHeld hd s)).slots = (retireHeld hd s).slots := rfl
  refine h.set_range r (fun k => ?_) (fun q k n l => l.of_retired n ?_) (fun q n => ?_) ?_ ?_ ?_
  · rw [slots, retired k]
    split
    · exact slotPins_retiredSlot _
    · rfl
  · rw [slots, retired k]
    split
    · rename_i e
      rcases e with rfl | e
      · exact .inr live
      · exact .inr (next k e).2
    · exact .inl rfl
  · rw [setRun_get_other n, same]
  · rw [setRun_get_self, HeldOk, hrun]
    intro g hg
    cases hg
  · rw [same]
    rfl
  · rw [same]
    rfl

/-- A range that holds nothing becomes another that holds nothing. -/
theorem SlotsOk.unheld {s : State} (h : SlotsOk s) (r : Fin 16) {run : RangeRun} (hrun : heldBy run = none) :
    SlotsOk (setRun r run s) := by
  refine h.congr rfl rfl (fun q hd hh => ?_) rfl
  rw [setRun_get] at hh
  split at hh
  · rw [hrun] at hh
    cases hh
  · exact ⟨hd, hh, rfl, rfl⟩

/-- R11: the slot taken is EMPTY, and LIVE afterwards. -/
theorem allocOne_eq {r : Fin 16} {media : Key} {s t : State} {k : Fin 18} (h : allocOne r media s = some (k, t)) :
    s.slots[k] = .empty ∧ t = setSlot k (.live r media 0) s := by
  unfold allocOne at h
  split at h
  · rename_i a l e
    obtain ⟨rfl, rfl⟩ : a = k ∧ setSlot a (.live r media 0) s = t := by simpa using h
    have : a ∈ emptySlots s := by simp [e]
    exact ⟨by simpa [emptySlots] using this, rfl⟩
  · cases h

theorem allocTwo_eq {r : Fin 16} {c n : Key} {s t : State} {k l : Fin 18} (h : allocTwo r c n s = some (k, l, t)) :
    s.slots[k] = .empty ∧ s.slots[l] = .empty ∧ l ≠ k
      ∧ t = setSlot l (.live r n 0) (setSlot k (.live r c 0) s) := by
  unfold allocTwo at h
  split at h
  · rename_i a b m e
    obtain ⟨rfl, rfl, rfl⟩ : a = k ∧ b = l ∧ setSlot b (.live r n 0) (setSlot a (.live r c 0) s) = t := by
      simpa using h
    have nodup : (emptySlots s).Nodup := (List.nodup_finRange 18).filter _
    rw [e] at nodup
    have ha : a ∈ emptySlots s := by simp [e]
    have hb : b ∈ emptySlots s := by simp [e]
    refine ⟨by simpa [emptySlots] using ha, by simpa [emptySlots] using hb, fun x => ?_, rfl⟩
    simp [x] at nodup
  · cases h

/-- An EMPTY slot becomes LIVE for a range; it is no other range's. -/
theorem SlotsOk.fill {s : State} (h : SlotsOk s) {k : Fin 18} (he : s.slots[k] = .empty) (r : Fin 16) (media : Key) :
    SlotsOk (setSlot k (.live r media 0) s) := by
  have get := fun l => setSlot_get k l (.live r media 0) s
  have live : ∀ q l, LiveFor q l s → LiveFor q l (setSlot k (.live r media 0) s) := by
    intro q l hl
    refine hl.congr ?_
    rw [get, if_neg]
    rintro rfl
    obtain ⟨_, _, e⟩ := hl
    rw [he] at e
    cases e
  refine h.set_range r (fun l => ?_) (fun q l _ => live q l) (fun q _ => rfl) (fun hd hh => ?_) rfl rfl
  · rw [get]
    split
    · rename_i e
      rw [e, he]
      rfl
    · rfl
  · obtain ⟨l, next⟩ := h.2.1 r hd hh
    exact ⟨live r _ l, fun n hn => ⟨(next n hn).1, live r n (next n hn).2⟩⟩

/-- A range takes slots that are LIVE for it. -/
theorem SlotsOk.hold {s : State} (h : SlotsOk s) {r : Fin 16} {run : RangeRun} (hrun : HeldOk r run s) :
    SlotsOk (setRun r run s) :=
  h.set_range r (fun _ => rfl) (fun _ _ _ l => l) (fun q n => setRun_get_other n run s)
    (by rw [setRun_get_self]; exact hrun) rfl rfl

theorem liveFor_setSlot (k : Fin 18) (r : Fin 16) (media : Key) (n : Nat) (s : State) :
    LiveFor r k (setSlot k (.live r media n) s) :=
  ⟨media, n, by rw [setSlot_get, if_pos rfl]⟩

/-! ## Entries admitted and departed -/

/-- An ADMITTED entry leaves the table, and gives back its pins (R12, R52). -/
theorem SlotsOk.depart {s m : State} (h : SlotsOk s) {g : Fin 32} {x : Xfer} {e : Entry}
    (hx : s.adm.table[g] = .admitted x) (htable : m.adm.table = s.adm.table.set g e) (hslots : m.slots = s.slots)
    (hranges : m.ranges = s.ranges) (hfactory : m.copies.factory = s.copies.factory)
    (hnew : ∀ k, pinsSlot k e = false) (he : EntryOk s.copies.factory.capacity e) :
    SlotsOk ((slotsNamed x.segs).foldl (fun s k => unpinSlot k s) m) := by
  obtain ⟨same, slots⟩ := unpinPass x.segs m
  have named : ∀ k : Fin 18, (x.segs.any fun g => decide (g.treatment = .cipher k)) = pinsSlot k (.admitted x) := by
    intro k
    rw [Bool.eq_iff_iff, pinsSlot_admitted, mem_slotsNamed]
    simp
  refine h.set_entry g e ?_ (fun k => ?_) (fun q k l => ?_) ?_ ?_ he
  · rw [same]
    exact htable
  · rw [slots, named, hslots, hx, hnew]
    cases e : pinsSlot k (.admitted x) with
    | false => simp
    | true =>
      have pos : 0 < slotPins s.slots[k] := by
        rw [h.1 k]
        exact pinsOn_pos (g := g) (by rw [hx]; exact e)
      generalize s.slots[k] = v at pos
      cases v with
      | empty => exact absurd pos (Nat.lt_irrefl 0)
      | live o key n =>
        simp only [slotPins] at pos
        simp [unpinnedSlot, slotPins, Nat.sub_add_cancel pos]
      | draining o key n =>
        simp only [slotPins] at pos
        simp only [if_true, unpinnedSlot, Bool.toNat_true, Bool.toNat_false]
        split
        · simp only [slotPins]
          omega
        · simp only [slotPins]
          omega
  · obtain ⟨key, n, hl⟩ := l
    rw [LiveFor, slots, hslots, hl]
    split
    · exact ⟨key, n - 1, rfl⟩
    · exact ⟨key, n, rfl⟩
  · rw [same]
    exact hranges
  · rw [same]
    exact hfactory

/-- R40: an entry that pins nothing is ADMITTED, and pins slots that are LIVE. -/
theorem SlotsOk.admission {s m : State} (h : SlotsOk s) {g : Fin 32} {x : Xfer}
    (hold : ∀ y, s.adm.table[g] ≠ .admitted y) (htable : m.adm.table = s.adm.table.set g (.admitted x))
    (hslots : m.slots = s.slots) (hranges : m.ranges = s.ranges) (hfactory : m.copies.factory = s.copies.factory)
    (hlive : ∀ k ∈ slotsNamed x.segs, ∃ r, LiveFor r k s) (he : EntryOk s.copies.factory.capacity (.admitted x)) :
    SlotsOk ((slotsNamed x.segs).foldl (fun s k => pinSlot k s) m) := by
  obtain ⟨same, slots⟩ := pinPass x.segs m
  have named : ∀ k : Fin 18, (x.segs.any fun g => decide (g.treatment = .cipher k)) = pinsSlot k (.admitted x) := by
    intro k
    rw [Bool.eq_iff_iff, pinsSlot_admitted, mem_slotsNamed]
    simp
  have none_before : ∀ k, pinsSlot k s.adm.table[g] = false := by
    intro k
    generalize s.adm.table[g] = v at hold
    cases v with
    | admitted y => exact absurd rfl (hold y)
    | _ => rfl
  refine h.set_entry g (.admitted x) ?_ (fun k => ?_) (fun q k l => ?_) ?_ ?_ he
  · rw [same]
    exact htable
  · rw [slots, named, hslots, none_before]
    cases e : pinsSlot k (.admitted x) with
    | false => simp
    | true =>
      obtain ⟨r, key, n, hl⟩ := hlive k (pinsSlot_admitted.mp e)
      rw [hl]
      simp [pinnedSlot, slotPins]
  · obtain ⟨key, n, hl⟩ := l
    rw [LiveFor, slots, hslots, hl]
    split
    · exact ⟨key, n + 1, rfl⟩
    · exact ⟨key, n, rfl⟩
  · rw [same]
    exact hranges
  · rw [same]
    exact hfactory

end Sys2Proof.Machine
end


-- ==== Sys2Proof/Proofs/Walk.lean ====
section
/-! PROOF. The range walk (R2, R33, R34): which range holds an LBA, where a piece ends, what the pieces cover, and O12; the
segments that a descriptor is given (R36 to R38), and which ranges an extent touches (R55). -/

-- As in the tests: each theorem that waits for the kernel in parallel would keep a thread.
set_option Elab.async false

namespace Sys2Proof.Machine

/-! ## The range of an LBA -/

@[simp] theorem definedExtent_zero (recs : Records) : definedExtent recs 0 = none := by
  simp [definedExtent]

/-- R2: an LBA lies in the extent of its range, or in no defined extent, and then in range 0. -/
theorem rangeAt_cases (recs : Records) (x : Nat) :
    (∃ e, definedExtent recs (rangeAt recs x) = some e ∧ extentHas e x = true)
      ∨ (rangeAt recs x = 0 ∧ ∀ r e, definedExtent recs r = some e → extentHas e x = false) := by
  unfold rangeAt
  cases h : (List.finRange 16).find? fun r =>
      match definedExtent recs r with
      | some e => extentHas e x
      | none => false with
  | some r =>
    have found := List.find?_some h
    simp only [Option.getD_some]
    split at found
    · rename_i e he
      exact .inl ⟨e, he, found⟩
    · cases found
  | none =>
    refine .inr ⟨rfl, fun r e he => ?_⟩
    have missed := List.find?_eq_none.mp h r (List.mem_finRange r)
    rw [he] at missed
    simpa using missed

/-- Where the extents lie apart an LBA of an extent lies in that extent's range. -/
theorem rangeAt_eq_of_mem {recs : Records} (h : RangesApart recs) {r : Fin 16} {e : Extent} {x : Nat}
    (he : definedExtent recs r = some e) (hx : extentHas e x = true) : rangeAt recs x = r := by
  rcases rangeAt_cases recs x with ⟨d, hd, hx'⟩ | ⟨-, none⟩
  · by_contra n
    have apart := h _ _ n d e hd he
    rw [extentHas_iff] at hx hx'
    have : extentsOverlap d e = true := by
      rw [extentsOverlap_iff]
      omega
    rw [apart] at this
    cases this
  · rw [none r e he] at hx
    cases hx

/-! ## Where a piece ends -/

theorem lt_nextStart {recs : Records} {p a : Nat} (h : nextStart recs p = some a) : p < a := by
  have := List.min?_mem h
  simpa using (List.mem_filter.mp this).2

/-- No extent starts between an LBA and the next start above it. -/
theorem nextStart_le {recs : Records} {p : Nat} {r : Fin 16} {e : Extent} (he : definedExtent recs r = some e)
    (hp : p < e.start) : ∃ a, nextStart recs p = some a ∧ a ≤ e.start := by
  have mem : e.start ∈ (((List.finRange 16).filterMap (definedExtent recs)).map Extent.start).filter
      fun a => decide (p < a) := by
    refine List.mem_filter.mpr ⟨List.mem_map.mpr ⟨e, ?_, rfl⟩, by simpa using hp⟩
    exact List.mem_filterMap.mpr ⟨r, List.mem_finRange r, he⟩
  cases h : nextStart recs p with
  | none =>
    rw [nextStart, List.min?_eq_none_iff] at h
    rw [h] at mem
    cases mem
  | some a => exact ⟨a, rfl, (List.min?_eq_some_iff.mp h).2 _ mem⟩

/-- R33: where the walk stands still: beyond the capacity, and in no defined range. -/
def Stuck (recs : Records) (x : Nat) : Prop := rangeAt recs x = 0 ∧ recs.factory.capacity ≤ x

theorem not_stuck_of_lt {recs : Records} {x : Nat} (h : x < recs.factory.capacity) : ¬Stuck recs x :=
  fun k => absurd k.2 (Nat.not_le.mpr h)

/-- R33: a piece has at least one block. -/
theorem lt_pieceStop {recs : Records} {p : Nat} (h : ¬Stuck recs p) : p < pieceStop recs (rangeAt recs p) p := by
  unfold pieceStop
  rcases rangeAt_cases recs p with ⟨e, he, hp⟩ | ⟨zero, -⟩
  · rw [he]
    exact ((extentHas_iff e p).mp hp).2
  · have lt : p < recs.factory.capacity := Nat.lt_of_not_le fun k => h ⟨zero, k⟩
    rw [zero, definedExtent_zero]
    dsimp only
    split
    · rename_i a ha
      exact lt_min (lt_nextStart ha) lt
    · exact lt

/-- R33: the LBAs of a piece lie in one range. -/
theorem rangeAt_of_piece {recs : Records} (h : RangesApart recs) {p x : Nat} (hp : p ≤ x)
    (hx : x < pieceStop recs (rangeAt recs p) p) : rangeAt recs x = rangeAt recs p := by
  unfold pieceStop at hx
  rcases rangeAt_cases recs p with ⟨e, he, hpe⟩ | ⟨zero, none⟩
  · rw [he] at hx
    rw [extentHas_iff] at hpe
    exact rangeAt_eq_of_mem h he ((extentHas_iff e x).mpr ⟨hpe.1.trans hp, hx⟩)
  · rw [zero, definedExtent_zero] at hx
    rw [zero]
    rcases rangeAt_cases recs x with ⟨d, hd, hxd⟩ | ⟨z, -⟩
    · have hpd := none _ d hd
      rw [extentHas_iff] at hxd
      have start : p < d.start := by
        by_contra n
        have : extentHas d p = true := (extentHas_iff d p).mpr (by omega)
        rw [hpd] at this
        cases this
      obtain ⟨a, ha, hle⟩ := nextStart_le hd start
      rw [ha] at hx
      exact absurd (hx.trans_le (min_le_left _ _)) (by omega)
    · exact z

/-- R33: a piece of range 0 ends at the capacity at the latest. -/
theorem pieceStop_zero_le (recs : Records) (p : Nat) : pieceStop recs 0 p ≤ recs.factory.capacity := by
  unfold pieceStop
  rw [definedExtent_zero]
  dsimp only
  split
  · exact min_le_right _ _
  · exact le_rfl

/-! ## One piece -/

/-- The piece of the walk at `p`: it starts at `p`, in the range of `p`, and ends at the frontier or where the range or the
descriptor ends. -/
theorem pieceAt_spec (s : State) {stop p : Nat} (hp : ¬Stuck s.copies p) (hs : p < stop) :
    (pieceAt s stop p).extent.start = p ∧ (pieceAt s stop p).range = rangeAt s.copies p
      ∧ p < extentEnd (pieceAt s stop p).extent ∧ extentEnd (pieceAt s stop p).extent ≤ stop
      ∧ extentEnd (pieceAt s stop p).extent ≤ pieceStop s.copies (rangeAt s.copies p) p
      ∧ ∀ x, p ≤ x → x < extentEnd (pieceAt s stop p).extent →
          ((pieceAt s stop p).below = true ↔ ∃ f, rekeyView s = some (rangeAt s.copies p, f) ∧ x < f) := by
  have lt := lt_pieceStop hp
  have lt' : p < min stop (pieceStop s.copies (rangeAt s.copies p) p) := lt_min hs lt
  have le1 := min_le_left stop (pieceStop s.copies (rangeAt s.copies p) p)
  have le2 := min_le_right stop (pieceStop s.copies (rangeAt s.copies p) p)
  unfold pieceAt
  generalize min stop (pieceStop s.copies (rangeAt s.copies p) p) = e at lt' le1 le2 ⊢
  dsimp only
  cases hv : rekeyView s with
  | none =>
    dsimp only [extentEnd]
    exact ⟨rfl, rfl, by omega, by omega, by omega, fun x _ _ => by simp⟩
  | some v =>
    obtain ⟨q, f⟩ := v
    dsimp only
    split
    · rename_i hq
      split
      · rename_i hf
        dsimp only [extentEnd]
        refine ⟨rfl, rfl, by omega, by omega, by omega, fun x _ hx => ?_⟩
        simp only [true_iff]
        exact ⟨f, by rw [hq], by omega⟩
      · rename_i hf
        dsimp only [extentEnd]
        refine ⟨rfl, rfl, by omega, by omega, by omega, fun x _ hx => ?_⟩
        rw [decide_eq_true_eq, hq]
        constructor
        · intro hpf
          exact ⟨f, rfl, by omega⟩
        · rintro ⟨g, hg, hx⟩
          obtain rfl : f = g := by simpa using hg
          omega
    · rename_i hq
      dsimp only [extentEnd]
      refine ⟨rfl, rfl, by omega, by omega, by omega, fun x _ hx => ?_⟩
      simp [hq]

theorem pieceAt_start (s : State) (stop p : Nat) : (pieceAt s stop p).extent.start = p := by
  unfold pieceAt
  dsimp only
  split
  · split
    · split <;> rfl
    · rfl
  · rfl

/-! ## The walk -/

/-- R33: the pieces of a walk on the drive hold every LBA from its start on. -/
theorem walkFrom_covers (s : State) {stop : Nat} (hC : stop ≤ s.copies.factory.capacity) (fuel p x : Nat)
    (hf : stop - p ≤ fuel) (hp : p ≤ x) (hx : x < stop) : ∃ q ∈ walkFrom s stop fuel p, extentHas q.extent x = true := by
  induction fuel generalizing p with
  | zero => omega
  | succ fuel ih =>
    have hs : p < stop := hp.trans_lt hx
    obtain ⟨start, -, lt, -, -, -⟩ := pieceAt_spec s (not_stuck_of_lt (hs.trans_le hC)) hs
    unfold walkFrom
    rw [if_pos (by omega)]
    by_cases h : x < extentEnd (pieceAt s stop p).extent
    · exact ⟨_, List.mem_cons_self, (extentHas_iff _ x).mpr ⟨by omega, h⟩⟩
    · obtain ⟨q, hq, hh⟩ := ih (extentEnd (pieceAt s stop p).extent) (by omega) (by omega)
      exact ⟨q, List.mem_cons_of_mem _ hq, hh⟩

/-- R33, R34: the pieces lie in the descriptor, each in its range and on its side of the frontier, and none before `p`. -/
theorem walkFrom_pieces (s : State) (h : RangesApart s.copies) {stop : Nat} (hC : stop ≤ s.copies.factory.capacity)
    (fuel p : Nat) : ∀ q ∈ walkFrom s stop fuel p, p ≤ q.extent.start ∧ extentEnd q.extent ≤ stop
      ∧ ∀ x, extentHas q.extent x = true → rangeAt s.copies x = q.range
        ∧ (q.below = true ↔ ∃ f, rekeyView s = some (q.range, f) ∧ x < f) := by
  induction fuel generalizing p with
  | zero =>
    intro q hq
    cases hq
  | succ fuel ih =>
    intro q hq
    unfold walkFrom at hq
    split at hq
    · rename_i hp
      obtain ⟨start, range, lt, stopLe, pieceLe, below⟩ := pieceAt_spec s (not_stuck_of_lt (by omega)) hp
      rcases List.mem_cons.mp hq with rfl | hq
      · refine ⟨start.ge, stopLe, fun x hx => ?_⟩
        rw [extentHas_iff, start] at hx
        rw [range]
        exact ⟨rangeAt_of_piece h hx.1 (hx.2.trans_le pieceLe), below x hx.1 hx.2⟩
      · obtain ⟨k1, k2⟩ := ih _ q hq
        exact ⟨by omega, k2⟩
    · cases hq

/-- R33: the pieces ascend without overlap. -/
theorem walkFrom_ascends (s : State) (h : RangesApart s.copies) {stop : Nat} (hC : stop ≤ s.copies.factory.capacity)
    (fuel p : Nat) : (walkFrom s stop fuel p).Pairwise fun a b => extentEnd a.extent ≤ b.extent.start := by
  induction fuel generalizing p with
  | zero => exact List.Pairwise.nil
  | succ fuel ih =>
    unfold walkFrom
    split
    · exact List.Pairwise.cons (fun q hq => (walkFrom_pieces s h hC fuel _ q hq).1) (ih _)
    · exact List.Pairwise.nil

/-- Settles O12: the pieces of the walk, one after the other, cover the descriptor, and each lies in the range and on the side
of the frontier of its first LBA. -/
theorem walkCoversTheDescriptor : Obligations.WalkCoversTheDescriptor := by
  intro s e hC h
  refine ⟨fun x hx => ?_, fun q hq x hx => ?_, walkFrom_ascends s h hC _ _⟩
  · rw [extentHas_iff] at hx
    refine walkFrom_covers s hC e.len e.start x ?_ hx.1 hx.2
    simp [extentEnd]
  · obtain ⟨start, stop, inside⟩ := walkFrom_pieces s h hC _ _ q hq
    obtain ⟨range, below⟩ := inside x hx
    rw [extentHas_iff] at hx
    exact ⟨(extentHas_iff e x).mpr (by omega), range, below⟩

/-! ## Ranges touched -/

/-- A walk that stands still sees range 0 alone. -/
theorem walkFrom_stuck (s : State) {stop p : Nat} (hp : Stuck s.copies p) (hs : p < stop) (fuel : Nat) :
    ∀ q ∈ walkFrom s stop fuel p, q.range = 0 := by
  have le : min stop (pieceStop s.copies (rangeAt s.copies p) p) ≤ p := by
    rw [hp.1]
    exact (min_le_right _ _).trans ((pieceStop_zero_le _ _).trans hp.2)
  have still : (pieceAt s stop p).range = 0 ∧ extentEnd (pieceAt s stop p).extent = p := by
    unfold pieceAt
    dsimp only [extentEnd]
    rw [hp.1] at le ⊢
    split
    · split
      · rw [if_neg (by omega)]
        exact ⟨rfl, by dsimp only; omega⟩
      · exact ⟨rfl, by dsimp only; omega⟩
    · exact ⟨rfl, by dsimp only; omega⟩
  induction fuel with
  | zero =>
    intro q hq
    cases hq
  | succ fuel ih =>
    intro q hq
    unfold walkFrom at hq
    rw [if_pos hs] at hq
    dsimp only at hq
    rw [still.2] at hq
    rcases List.mem_cons.mp hq with rfl | hq
    · exact still.1
    · exact ih q hq

/-- R55: which ranges a walk touches: that of each LBA which it reaches. The frontier, which cuts pieces and moves none to
another range, has no part in it. -/
theorem walkFrom_touches (s : State) (h : RangesApart s.copies) (r : Fin 16) {stop : Nat} (fuel p : Nat)
    (hf : stop - p ≤ fuel) : (∃ q ∈ walkFrom s stop fuel p, q.range = r)
      ↔ ∃ x, p ≤ x ∧ x < stop ∧ rangeAt s.copies x = r ∧ ∀ y, p ≤ y → y < x → ¬Stuck s.copies y := by
  induction fuel generalizing p with
  | zero =>
    constructor
    · rintro ⟨q, hq, -⟩
      cases hq
    · rintro ⟨x, h1, h2, -⟩
      omega
  | succ fuel ih =>
    by_cases hs : p < stop
    · by_cases hp : Stuck s.copies p
      · constructor
        · rintro ⟨q, hq, rfl⟩
          exact ⟨p, le_rfl, hs, by rw [hp.1, walkFrom_stuck s hp hs _ q hq], fun y h1 h2 => by omega⟩
        · rintro ⟨x, h1, h2, rfl, free⟩
          obtain rfl : x = p := by
            by_contra n
            exact free p le_rfl (by omega) hp
          have mem : pieceAt s stop x ∈ walkFrom s stop (fuel + 1) x := by
            rw [walkFrom, if_pos hs]
            exact List.mem_cons_self
          exact ⟨_, mem, (walkFrom_stuck s hp hs _ _ mem).trans hp.1.symm⟩
      · obtain ⟨start, range, lt, stopLe, pieceLe, -⟩ := pieceAt_spec s hp hs
        have inside : ∀ x, p ≤ x → x < extentEnd (pieceAt s stop p).extent →
            rangeAt s.copies x = rangeAt s.copies p ∧ ¬Stuck s.copies x := by
          intro x h1 h2
          have same := rangeAt_of_piece h h1 (h2.trans_le pieceLe)
          refine ⟨same, fun k => hp ⟨same.symm.trans k.1, ?_⟩⟩
          have zero := pieceStop_zero_le s.copies p
          rw [same.symm.trans k.1] at pieceLe
          have := k.2
          omega
        unfold walkFrom
        rw [if_pos hs]
        have next := ih (extentEnd (pieceAt s stop p).extent) (by omega)
        constructor
        · rintro ⟨q, hq, hr⟩
          rcases List.mem_cons.mp hq with rfl | hq
          · exact ⟨p, le_rfl, hs, range ▸ hr, fun y h1 h2 => by omega⟩
          · obtain ⟨x, h1, h2, h3, free⟩ := next.mp ⟨q, hq, hr⟩
            refine ⟨x, by omega, h2, h3, fun y k1 k2 => ?_⟩
            by_cases k : y < extentEnd (pieceAt s stop p).extent
            · exact (inside y k1 k).2
            · exact free y (by omega) k2
        · rintro ⟨x, h1, h2, h3, free⟩
          by_cases k : x < extentEnd (pieceAt s stop p).extent
          · exact ⟨_, List.mem_cons_self, by rw [range, ← (inside x h1 k).1, h3]⟩
          · obtain ⟨q, hq, hr⟩ := next.mpr ⟨x, by omega, h2, h3, fun y k1 k2 => free y (by omega) k2⟩
            exact ⟨q, List.mem_cons_of_mem _ hq, hr⟩
    · constructor
      · rintro ⟨q, hq, -⟩
        rw [walkFrom, if_neg hs] at hq
        cases hq
      · rintro ⟨x, h1, h2, -⟩
        omega

theorem rangeAt_congr {a b : Records} (h : b.ranges = a.ranges) (x : Nat) : rangeAt b x = rangeAt a x := by
  simp only [rangeAt, definedExtent_congr h]

/-- R55: which ranges an extent touches depends on the range records and the capacity alone. -/
theorem touches_congr {s t : State} (h : RangesApart s.copies) (hr : t.copies.ranges = s.copies.ranges)
    (hc : t.copies.factory = s.copies.factory) (r : Fin 16) (e : Extent) : touches t r e = touches s r e := by
  have stuck : ∀ x, Stuck t.copies x ↔ Stuck s.copies x := fun x => by rw [Stuck, Stuck, rangeAt_congr hr, hc]
  have fuel : extentEnd e - e.start ≤ e.len := by simp [extentEnd]
  rw [Bool.eq_iff_iff, touches, touches, List.any_eq_true, List.any_eq_true]
  simp only [decide_eq_true_eq, rangeWalk]
  rw [walkFrom_touches s h r e.len e.start fuel, walkFrom_touches t ((apart_congr hr).mpr h) r e.len e.start fuel]
  simp only [stuck, rangeAt_congr hr]

/-! ## Segments -/

/-- R36 to R38: a piece that does not fail becomes a segment of its extent and range; a CIPHER segment names a slot of the
OPEN range. -/
theorem judgePiece_inr {s : State} {cls : XferClass} {q : Piece} {g : Segment} (h : judgePiece s cls q = .inr g) :
    g.extent = q.extent ∧ g.range = q.range
      ∧ ∀ k, g.treatment = .cipher k → ∃ hd, s.ranges[q.range].run = .opened hd ∧ (k = hd.current ∨ hd.next = some k) := by
  have chosen : ∀ (c : XferClass) (b : Bool) (hd : Held) (k : Fin 18), Treatment.cipher (slotChoice c b hd) = .cipher k →
      k = hd.current ∨ hd.next = some k := by
    intro c b hd k e
    injection e with e
    subst e
    cases hn : hd.next with
    | none => cases c <;> cases b <;> simp [slotChoice, hn]
    | some n => cases c <;> cases b <;> simp [slotChoice, hn]
  unfold judgePiece at h
  dsimp only at h
  split at h
  · cases h
    exact ⟨rfl, rfl, fun k e => by cases e⟩
  · split at h
    · rename_i hd he
      split at h
      · cases h
        exact ⟨rfl, rfl, fun k e => ⟨hd, he, chosen _ _ _ k e⟩⟩
      · cases h
    · rename_i hd he _
      cases h
      exact ⟨rfl, rfl, fun k e => ⟨hd, he, chosen _ _ _ k e⟩⟩
    · cases h
      exact ⟨rfl, rfl, fun k e => by cases e⟩
    · cases h
    · cases h
    · cases h

/-- R36: the segments of a descriptor that passes are those of its pieces, in order. -/
theorem judgeAll_inr {s : State} {cls : XferClass} {l : List Piece} {segs : List Segment}
    (h : judgeAll s cls l = .inr segs) : List.Forall₂ (fun q g => judgePiece s cls q = .inr g) l segs := by
  induction l generalizing segs with
  | nil =>
    cases h
    exact .nil
  | cons q l ih =>
    unfold judgeAll at h
    split at h
    · cases h
    · rename_i g hg
      split at h
      · cases h
      · rename_i rest hrest
        cases h
        exact .cons hg (ih hrest)

theorem judgeAll_of_forall {s : State} {cls : XferClass} {l : List Piece} {segs : List Segment}
    (h : List.Forall₂ (fun q g => judgePiece s cls q = .inr g) l segs) : judgeAll s cls l = .inr segs := by
  induction h with
  | nil => rfl
  | cons hg _ ih => simp only [judgeAll, hg, ih]

/-- R33, R36: the segments of a descriptor on the drive hold every LBA of it. -/
theorem judgeAll_covers {s : State} {cls : XferClass} {e : Extent} {segs : List Segment}
    (h : judgeAll s cls (rangeWalk s e) = .inr segs) (hC : extentEnd e ≤ s.copies.factory.capacity) (x : Nat)
    (h1 : e.start ≤ x) (h2 : x < extentEnd e) : ∃ g ∈ segs, extentHas g.extent x = true := by
  obtain ⟨q, hq, hx⟩ := walkFrom_covers s hC e.len e.start x (by simp [extentEnd]) h1 h2
  obtain ⟨i, hi, rfl⟩ := List.mem_iff_getElem.mp hq
  have pieces := judgeAll_inr h
  have hi' : i < segs.length := pieces.length_eq ▸ hi
  refine ⟨segs[i], List.getElem_mem hi', ?_⟩
  have := (judgePiece_inr (pieces.get hi hi')).1
  rw [List.get_eq_getElem, List.get_eq_getElem] at this
  rw [this]
  exact hx

/-- R34, R36: a CIPHER segment names a slot of a range that is OPEN. -/
theorem judgeAll_slots {s : State} {cls : XferClass} {l : List Piece} {segs : List Segment}
    (h : judgeAll s cls l = .inr segs) {k : Fin 18} (hk : k ∈ slotsNamed segs) :
    ∃ (r : Fin 16) (hd : Held), s.ranges[r].run = .opened hd ∧ (k = hd.current ∨ hd.next = some k) := by
  obtain ⟨g, hg, ht⟩ := mem_slotsNamed.mp hk
  obtain ⟨i, hi, rfl⟩ := List.mem_iff_getElem.mp hg
  have pieces := judgeAll_inr h
  have hi' : i < l.length := pieces.length_eq ▸ hi
  have := (judgePiece_inr (pieces.get hi' hi)).2.2 k
  rw [List.get_eq_getElem] at this
  exact ⟨_, this ht⟩

end Sys2Proof.Machine
end


-- ==== Sys2Proof/Proofs/Closes.lean ====
section
/-! PROOF. What a close does to the ranges and the slots (R13, R21 to R24, R52): one rule per operation, and the pass that
closes every range. -/

-- As in the tests: each theorem that waits for the kernel in parallel would keep a thread.
set_option Elab.async false

namespace Sys2Proof.Machine

/-! ## A close -/

theorem heldBy_eq_none (run : RangeRun) : heldBy run = none ↔ run = .locked ∨ run = .erased := by
  cases run <;> simp [heldBy]

theorem heldBy_closing (h : Held) (d : Nat) (ws : List Waiter) : heldBy (.closing h d ws) = some h := rfl

theorem heldBy_opened (h : Held) : heldBy (.opened h) = some h := rfl

/-- What stands between the retiring of a range's slots and the answer of its waiters (R22, R108, R121). -/
def closed (r : Fin 16) (h : Held) (s : State) : State :=
  let paused := withTouched (pauseRekey r) (setRun r .locked (retireHeld h s))
  if (waitersOf s.ranges[r].run).contains .security then awaitWrites paused.1 paused.2 else paused.2

theorem closeFinish_eq {r : Fin 16} {s : State} {h : Held} (hh : heldBy s.ranges[r].run = some h) :
    closeFinish r s = settleWaiters (closed r h s) := by
  unfold closeFinish
  rw [hh]
  rfl

theorem closeFinish_none {r : Fin 16} {s : State} (hh : heldBy s.ranges[r].run = none) : closeFinish r s = s := by
  unfold closeFinish
  rw [hh]

theorem frame_closed (r : Fin 16) (h : Held) (s : State) :
    Frame (.sec :: pauseFields) (setRun r .locked (retireHeld h s)) (closed r h s) := by
  have paused : Frame (.sec :: pauseFields) (setRun r .locked (retireHeld h s))
      (withTouched (pauseRekey r) (setRun r .locked (retireHeld h s))).2 :=
    (frame_withTouched (fun s => frame_pauseRekey r s) _).within
  exact .ite (paused.andThen (frame_awaitWrites _ _)) paused

theorem frame_closeFinish_of {r : Fin 16} {s : State} {h : Held} (hh : heldBy s.ranges[r].run = some h) :
    Frame (pauseFields ++ settleFields) (setRun r .locked (retireHeld h s)) (closeFinish r s) := by
  rw [closeFinish_eq hh]
  exact (frame_settleWaiters _).after (frame_closed r h s)

theorem closeFinish_ranges {r : Fin 16} {s : State} {h : Held} (hh : heldBy s.ranges[r].run = some h) :
    (closeFinish r s).ranges = s.ranges.set r { s.ranges[r] with run := .locked } := by
  rw [(frame_closeFinish_of hh).ranges, setRun, (retireHeld_slots h s).1]

theorem closeFinish_slots {r : Fin 16} {s : State} {h : Held} (hh : heldBy s.ranges[r].run = some h) :
    SlotsRetired h s (closeFinish r s) := by
  rw [SlotsRetired, (frame_closeFinish_of hh).slots]
  exact (retireHeld_slots h s).2

theorem ranges_set_get {s t : State} {r : Fin 16} {v : RangeRt} (h : t.ranges = s.ranges.set r v) (q : Fin 16) :
    t.ranges[q] = if q = r then v else s.ranges[q] := by
  by_cases e : q = r
  · subst e
    simp [h]
  · have : (r : Nat) ≠ q := fun x => e (Fin.ext x.symm)
    simp [h, e, this]

/-! ## A close that tests its drain -/

/-- R22: whether a range is CLOSING with its drain condition met. -/
def closesNow (r : Fin 16) (s : State) : Bool :=
  match s.ranges[r].run with
  | .closing _ _ _ => drained r s
  | _ => false

theorem closesNow_iff (r : Fin 16) (s : State) :
    closesNow r s = true ↔ (∃ h d ws, s.ranges[r].run = .closing h d ws) ∧ drained r s = true := by
  unfold closesNow
  generalize s.ranges[r].run = run
  cases run <;> simp

theorem closeIfDrained_eq (r : Fin 16) (s : State) :
    closeIfDrained r s = if closesNow r s then closeFinish r s else s := by
  unfold closeIfDrained closesNow
  generalize s.ranges[r].run = run
  cases run <;> simp

theorem closesNow_held {r : Fin 16} {s : State} (h : closesNow r s = true) :
    ∃ g d ws, s.ranges[r].run = .closing g d ws ∧ heldBy s.ranges[r].run = some g := by
  obtain ⟨⟨g, d, ws, e⟩, -⟩ := (closesNow_iff r s).mp h
  exact ⟨g, d, ws, e, by rw [e]; rfl⟩

/-- R22: what a test of the drain makes of the ranges. -/
theorem closeIfDrained_ranges (r q : Fin 16) (s : State) : (closeIfDrained r s).ranges[q]
    = if q = r ∧ closesNow r s = true then { s.ranges[q] with run := .locked } else s.ranges[q] := by
  rw [closeIfDrained_eq]
  by_cases h : closesNow r s = true
  · obtain ⟨g, _, _, -, hh⟩ := closesNow_held h
    rw [if_pos h, ranges_set_get (closeFinish_ranges hh)]
    by_cases e : q = r
    · subst e
      simp [h]
    · simp [e]
  · simp [h]

theorem drained_congr {s t : State} (h : t.adm.table = s.adm.table) (r : Fin 16) : drained r t = drained r s := by
  simp only [drained, h]

theorem closesNow_congr {s t : State} (h : t.adm.table = s.adm.table) {r : Fin 16}
    (hr : t.ranges[r].run = s.ranges[r].run) : closesNow r t = closesNow r s := by
  unfold closesNow
  rw [hr, drained_congr h]

/-- R22, R52: a pass of tests over some ranges closes those of them that are CLOSING and drained. -/
theorem closesPass_ranges (l : List (Fin 16)) (s : State) (q : Fin 16) :
    (l.foldl (fun s r => closeIfDrained r s) s).ranges[q]
      = if q ∈ l ∧ closesNow q s = true then { s.ranges[q] with run := .locked } else s.ranges[q] := by
  induction l generalizing s with
  | nil => simp
  | cons r l ih =>
    have table : (closeIfDrained r s).adm.table = s.adm.table := (frame_closeIfDrained r s).table
    have head := closeIfDrained_ranges r q s
    rw [List.foldl_cons, ih]
    by_cases e : q = r ∧ closesNow r s = true
    · obtain ⟨rfl, now⟩ := e
      rw [if_pos ⟨rfl, now⟩] at head
      have after : closesNow q (closeIfDrained q s) = false := by
        unfold closesNow
        rw [head]
      rw [after, head]
      simp [now]
    · rw [if_neg e] at head
      rw [closesNow_congr table (by rw [head]), head]
      by_cases hq : q = r
      · subst hq
        have : closesNow q s = false := by simpa using e
        simp [this]
      · simp [hq]

/-! ## No close opens a range -/

/-- Ranges that hold nothing hold nothing afterwards. -/
def Unheld (q : Fin 16) (s : State) : Prop := heldBy s.ranges[q].run = none

theorem unheld_keeps (q : Fin 16) : Keeps (Unheld q) (allFields.filter (· ≠ .ranges)) := by
  intro s t f h
  rwa [Unheld, f.ranges]

theorem unheld_closeFinish (q r : Fin 16) (s : State) (h : Unheld q s ∨ q = r) : Unheld q (closeFinish r s) := by
  cases e : heldBy s.ranges[r].run with
  | none =>
    rw [closeFinish_none e]
    rcases h with h | rfl
    · exact h
    · exact e
  | some g =>
    rw [Unheld, ranges_set_get (closeFinish_ranges e)]
    split
    · rfl
    · rename_i n
      exact h.resolve_right n

theorem unheld_closeIfDrained (q r : Fin 16) (s : State) (h : Unheld q s) : Unheld q (closeIfDrained r s) := by
  rw [closeIfDrained_eq]
  split
  · exact unheld_closeFinish q r s (.inl h)
  · exact h

theorem unheld_leaveAdmitted (q : Fin 16) (x : Xfer) (s : State) (h : Unheld q s) : Unheld q (leaveAdmitted x s) := by
  have pins := Frame.foldl (f := fun s k => unpinSlot k s) (fun s k => frame_setSlot k _ s) (slotsNamed x.segs) s
  have closes := keeps_foldl (f := fun s r => closeIfDrained r s) (fun s r => unheld_closeIfDrained q r s)
    (rangesNamed x.segs) _ ((unheld_keeps q).of h pins)
  unfold leaveAdmitted
  dsimp only
  split
  · exact (unheld_keeps q).of closes (frame_sendMigrateOrder _)
  · exact closes

theorem unheld_abortWhere (q : Fin 16) (p : Entry → Bool) (s : State) (h : Unheld q s) : Unheld q (abortWhere p s) := by
  refine keeps_foldl (fun s t h => ?_) _ s h
  split
  · unfold abortTag
    split
    · exact unheld_leaveAdmitted q _ _ ((unheld_keeps q).of h (frame_setEntry t _ s))
    · exact h
  · exact h

/-- R24: an immediate close leaves its range LOCKED or ERASED, and opens no other. -/
theorem unheld_immediateClose (q r : Fin 16) (s : State) (h : Unheld q s ∨ q = r) : Unheld q (immediateClose r s) := by
  cases e : heldBy s.ranges[r].run with
  | none =>
    have : immediateClose r s = s := by
      unfold immediateClose
      rw [e]
    rw [this]
    rcases h with h | rfl
    · exact h
    · exact e
  | some g =>
    unfold immediateClose
    rw [e]
    refine unheld_closeFinish q r _ (h.imp_left fun h => ?_)
    have aborted := unheld_abortWhere q (admittedIn r) s h
    split
    · exact (unheld_keeps q).of aborted (frame_refuseHeldWhere _ _ _ _)
    · exact aborted

/-- R148, R161: after an immediate close of every range none holds anything. -/
theorem unheld_closeAllAtOnce (q : Fin 16) (s : State) : Unheld q (closeAllAtOnce s) := by
  have pass : ∀ (l : List (Fin 16)) (m : State), Unheld q m ∨ q ∈ l →
      Unheld q (l.foldl (fun s r => immediateClose r s) m) := by
    intro l
    induction l with
    | nil => exact fun m h => h.resolve_right (by simp)
    | cons r l ih =>
      intro m h
      refine ih _ ?_
      by_cases hq : q ∈ l
      · exact .inr hq
      · exact .inl (unheld_immediateClose q r m (h.imp_right fun h => (List.mem_cons.mp h).resolve_right hq))
  exact pass _ _ (.inr (List.mem_finRange q))

end Sys2Proof.Machine
end


-- ==== Sys2Proof/Proofs/SlotsKept.lean ====
section
/-! PROOF. The operations keep the slots' pins and the ranges' slots (`SlotsOk`), and where nothing is ADMITTED or held back
they leave nothing ADMITTED (`Quiet`, which step 1 of an erase reaches, R160). -/

-- As in the tests: each theorem that waits for the kernel in parallel would keep a thread.
set_option Elab.async false

namespace Sys2Proof.Machine

/-- No descriptor of the hold list is HELD, and nothing is ADMITTED: a release finds nothing to do. -/
def Quiet (s : State) : Prop :=
  (∀ g ∈ s.adm.hold, ∀ c e, s.adm.table[g] ≠ .held c e) ∧ ∀ (g : Fin 32) x, s.adm.table[g] ≠ .admitted x

/-- The slots are in order, and, where `b` says so, nothing is ADMITTED or held back. -/
def Fits (b : Bool) (s : State) : Prop := SlotsOk s ∧ (b = true → Quiet s)

/-- The fields that neither speaks of. -/
abbrev slotFields : List Field :=
  allFields.filter fun f => decide (f ∉ ([.ranges, .slots, .table, .hold, .cFactory] : List Field))

theorem Quiet.congr {s t : State} (h : Quiet s) (e : t.adm = s.adm) : Quiet t := by
  rwa [Quiet, e]

theorem fits_keeps (b : Bool) : Keeps (Fits b) slotFields := by
  intro s t f h
  refine ⟨h.1.congr f.slots f.table (fun r hd hh => ⟨hd, ?_, rfl, rfl⟩) f.capacity, fun e => (h.2 e).congr f.adm⟩
  rwa [f.ranges] at hh

/-- A change of ranges and slots alone. -/
theorem Fits.of_slotsOk {b : Bool} {s t : State} (h : Fits b s) (k : SlotsOk t) (e : t.adm = s.adm) : Fits b t :=
  ⟨k, fun hb => (h.2 hb).congr e⟩

variable {b : Bool}

/-! ## Closes and departures -/

theorem fits_closeFinish (r : Fin 16) (s : State) (h : Fits b s) : Fits b (closeFinish r s) := by
  cases e : heldBy s.ranges[r].run with
  | none =>
    rw [closeFinish_none e]
    exact h
  | some hd =>
    have adm : (setRun r .locked (retireHeld hd s)).adm = s.adm :=
      ((frame_retireHeld hd s).andThen (N := [.slots, .ranges]) (frame_setRun r .locked _)).adm
    exact (fits_keeps b).of (h.of_slotsOk (h.1.letGo e rfl) adm) (frame_closeFinish_of e)

theorem fits_closeIfDrained (r : Fin 16) (s : State) (h : Fits b s) : Fits b (closeIfDrained r s) := by
  rw [closeIfDrained_eq]
  split
  · exact fits_closeFinish r s h
  · exact h

/-- What follows an entry's departure, once its pins are given back (R52). -/
theorem fits_leaveAdmitted {x : Xfer} {s : State} (h : Fits b ((slotsNamed x.segs).foldl (fun s k => unpinSlot k s) s)) :
    Fits b (leaveAdmitted x s) := by
  have closes := keeps_foldl (f := fun s r => closeIfDrained r s) (fun s r => fits_closeIfDrained r s)
    (rangesNamed x.segs) _ h
  unfold leaveAdmitted
  dsimp only
  split
  · exact (fits_keeps b).of closes (frame_sendMigrateOrder _)
  · exact closes

/-- An ADMITTED entry departs; where nothing is ADMITTED there is none. -/
theorem fits_depart {s m : State} (h : Fits b s) {g : Fin 32} {x y : Xfer} {e : Entry}
    (hx : s.adm.table[g] = .admitted x) (hy : y.segs = x.segs) (htable : m.adm.table = s.adm.table.set g e)
    (hslots : m.slots = s.slots) (hranges : m.ranges = s.ranges) (hfactory : m.copies.factory = s.copies.factory)
    (hnew : ∀ k, pinsSlot k e = false) (he : EntryOk s.copies.factory.capacity e) : Fits b (leaveAdmitted y m) := by
  refine fits_leaveAdmitted ?_
  rw [hy]
  exact ⟨h.1.depart hx htable hslots hranges hfactory hnew he, fun hb => absurd hx ((h.2 hb).2 g x)⟩

theorem fits_abortTag (t : Fin 32) (s : State) (h : Fits b s) : Fits b (abortTag t s) := by
  unfold abortTag
  split
  · rename_i x hx
    exact fits_depart h hx rfl rfl rfl rfl rfl (fun _ => rfl) trivial
  · exact h

theorem fits_abortWhere (p : Entry → Bool) (s : State) (h : Fits b s) : Fits b (abortWhere p s) := by
  refine keeps_foldl (fun s t h => ?_) _ s h
  split
  · exact fits_abortTag t s h
  · exact h

/-- A held descriptor is refused: no slot or range is concerned. -/
theorem fits_refuseHeld (c : Code) (r : Option (Fin 16)) (t : Fin 32) (s : State) (h : Fits b s) (x : XferClass) (e : Extent)
    (he : s.adm.table[t] = .held x e) : Fits b (refuseHeld c r t s) := by
  have refused : Fits b { setEntry t .free s with
      adm := { (setEntry t .free s).adm with hold := s.adm.hold.filter (fun u => u != t) } } := by
    have get : ∀ g, (setEntry t .free s).adm.table[g] = if g = t then .free else s.adm.table[g] := fun g =>
      setEntry_get t g .free s
    refine ⟨h.1.set_unpinned t .free rfl (fun y hy => by rw [he] at hy; cases hy) (fun y hy => by cases hy) rfl rfl rfl
      trivial, fun hb => ⟨fun g hg c' e' => ?_, fun g y => ?_⟩⟩
    · rw [get]
      split
      · exact fun hy => by cases hy
      · exact (h.2 hb).1 g (List.mem_filter.mp hg).1 c' e'
    · rw [get]
      split
      · exact fun hy => by cases hy
      · exact (h.2 hb).2 g y
  exact (fits_keeps b).of refused (frame_pushFrame _ _)

theorem fits_refuseHeldWhere (p : Extent → Bool) (c : Code) (r : Option (Fin 16)) (s : State) (h : Fits b s) :
    Fits b (refuseHeldWhere p c r s) := by
  refine keeps_foldl (fun s t h => ?_) _ s h
  split
  · rename_i x e he
    split
    · exact fits_refuseHeld c r t s h x e he
    · exact h
  · exact h

/-- A range goes on holding what it holds. -/
theorem fits_setRun (r : Fin 16) {run : RangeRun} {s : State} (h : Fits b s)
    (hrun : ∀ g, heldBy run = some g → ∃ f, heldBy s.ranges[r].run = some f ∧ f.current = g.current ∧ f.next = g.next) :
    Fits b (setRun r run s) := by
  refine h.of_slotsOk (h.1.congr rfl rfl (fun q hd hh => ?_) rfl) rfl
  rw [setRun_get] at hh
  split at hh
  · rename_i e
    subst e
    exact hrun hd hh
  · exact ⟨hd, hh, rfl, rfl⟩

theorem fits_setMark (r : Fin 16) (m : Bool) {s : State} (h : Fits b s) : Fits b (setMark r m s) := by
  refine h.of_slotsOk (h.1.congr rfl rfl (fun q hd hh => ⟨hd, ?_, rfl, rfl⟩) rfl) rfl
  rw [ranges_set_get (s := s) (t := setMark r m s) (r := r) rfl] at hh
  split at hh
  · rename_i e
    subst e
    exact hh
  · exact hh

theorem fits_withdrawWindow (s : State) (h : Fits b s) : Fits b (withdrawWindow s) :=
  (fits_keeps b).of h (frame_withdrawWindow s)

theorem fits_orderlyClose (r : Fin 16) (w : Option Waiter) (s : State) (h : Fits b s) : Fits b (orderlyClose r w s) := by
  unfold orderlyClose
  split
  · rename_i hd e
    have closing := fits_setRun r (run := .closing hd closeSeconds w.toList) h fun g hg => ⟨g, by rw [e]; exact hg, rfl, rfl⟩
    have refused := fits_refuseHeldWhere (touches s r) .locked (some r) _ closing
    dsimp only
    refine fits_closeIfDrained r _ ?_
    split
    · exact fits_withdrawWindow _ refused
    · exact refused
  · rename_i hd d ws e
    exact fits_setRun r h fun g hg => ⟨g, by rw [e]; exact hg, rfl, rfl⟩
  · exact h

theorem fits_immediateClose (r : Fin 16) (s : State) (h : Fits b s) : Fits b (immediateClose r s) := by
  have aborted := fits_abortWhere (admittedIn r) s h
  unfold immediateClose
  split
  · exact h
  · refine fits_closeFinish r _ ?_
    split
    · exact fits_refuseHeldWhere _ _ _ _ aborted
    · exact aborted

theorem fits_closeAllAtOnce (s : State) (h : Fits b s) : Fits b (closeAllAtOnce s) :=
  keeps_foldl (f := fun s r => immediateClose r s) (fun s r => fits_immediateClose r s) _ _ (fits_withdrawWindow s h)

theorem fits_closeExpires (r : Fin 16) (s : State) (h : Fits b s) : Fits b (closeExpires r s) := by
  unfold closeExpires
  split
  · exact fits_closeIfDrained r _ (fits_abortWhere _ s h)
  · exact h

/-- R13: a DRAINING slot without a pin becomes EMPTY. -/
theorem fits_drainSlot (k : Fin 18) (s : State) (h : Fits b s) : Fits b (drainSlot k s) := by
  unfold drainSlot
  split
  · rename_i o key e
    obtain ⟨pins, held, entries⟩ := (slotsOk_iff s).mp h.1
    have live : ∀ {q l}, LiveFor q l s → LiveFor q l (setSlot k .empty s) := by
      intro q l hl
      refine hl.congr ?_
      rw [setSlot_get, if_neg]
      rintro rfl
      obtain ⟨_, _, hl⟩ := hl
      rw [e] at hl
      cases hl
    refine h.of_slotsOk ((slotsOk_iff _).mpr ⟨fun l => ?_, fun q hd hh => ?_, entries⟩) rfl
    · have same : pinsOn l (setSlot k .empty s) = pinsOn l s := rfl
      rw [same, ← pins l, setSlot_get]
      split
      · rename_i x
        rw [x, e]
        rfl
      · rfl
    · obtain ⟨l, next⟩ := held q hd hh
      exact ⟨live l, fun n hn => ⟨(next n hn).1, live (next n hn).2⟩⟩
  · exact h

/-! ## Admission -/

/-- R33, R40: a descriptor on the drive whose pieces all pass is ADMITTED: its segments cover it, and the slots that they
name are LIVE. -/
theorem slotsOk_admitEntry {s m : State} (h : SlotsOk m) {t : Fin 32} {cls : XferClass} {e : Extent} {o : Option Nat}
    {segs : List Segment} (hold : ∀ y, m.adm.table[t] ≠ .admitted y)
    (hj : judgeAll s cls (rangeWalk s e) = .inr segs) (hranges : m.ranges = s.ranges)
    (h1 : 1 ≤ e.len) (hC : extentEnd e ≤ s.copies.factory.capacity) :
    SlotsOk (admitEntry t cls e o segs m) := by
  have covers : ∀ i, i < e.len → (segmentOf ⟨cls, e, o, segs, 0, 0, 0, false⟩ i).isSome = true := by
    intro i hi
    obtain ⟨g, hg, hx⟩ := judgeAll_covers hj hC (e.start + i) (Nat.le_add_right _ _) (Nat.add_lt_add_left hi _)
    rw [segmentOf, List.find?_isSome]
    exact ⟨g, hg, hx⟩
  have live : ∀ k ∈ slotsNamed segs, ∃ r, LiveFor r k m := by
    intro k hk
    obtain ⟨r, hd, hr, hk⟩ := judgeAll_slots hj hk
    obtain ⟨l, next⟩ := h.2.1 r hd (by rw [hranges, hr]; rfl)
    rcases hk with rfl | hk
    · exact ⟨r, l⟩
    · exact ⟨r, (next k hk).2⟩
  have pinned := h.admission (m := setEntry t (.admitted ⟨cls, e, o, segs, 0, 0, 0, false⟩) m) hold rfl rfl rfl rfl live
    ⟨h1, covers⟩
  exact ((fits_keeps false).of ⟨pinned, fun x => by cases x⟩ (frame_pushFrame _ _)).1

/-- R54: a held descriptor is refused, or ADMITTED. -/
theorem fits_releaseOne (t : Fin 32) (s : State) (h : Fits false s) : Fits false (releaseOne t s) := by
  unfold releaseOne
  split
  · rename_i cls e he
    split
    · exact fits_refuseHeld _ _ t s h cls e he
    · rename_i segs hj
      obtain ⟨h1, hC⟩ := h.1.2.2.2 t cls e he
      refine ⟨slotsOk_admitEntry (s := s) (m := { s with adm := { s.adm with hold := s.adm.hold.filter (fun u => u != t) } })
        (h.1.congr rfl rfl (fun r hd hh => ⟨hd, hh, rfl, rfl⟩) rfl) (fun y hy => ?_) hj rfl h1 hC, fun x => by cases x⟩
      dsimp only at hy
      rw [he] at hy
      cases hy
  · exact h

theorem fits_releaseHold (s : State) (h : Fits b s) : Fits b (releaseHold s) := by
  cases b with
  | false => exact keeps_foldl (f := fun s t => releaseOne t s) (fun s t => fits_releaseOne t s) _ s h
  | true =>
    have same : ∀ l : List (Fin 32), (∀ g ∈ l, ∀ c e, s.adm.table[g] ≠ .held c e) →
        l.foldl (fun s t => releaseOne t s) s = s := by
      intro l hl
      induction l with
      | nil => rfl
      | cons g l ih =>
        have stays : releaseOne g s = s := by
          have := hl g List.mem_cons_self
          unfold releaseOne
          split
          · rename_i c e he
            exact absurd he (this c e)
          · rfl
        rw [List.foldl_cons, stays]
        exact ih fun u hu => hl u (List.mem_cons_of_mem _ hu)
    rwa [releaseHold, same _ (h.2 rfl).1]

/-! ## Opening, renewal, destruction -/

theorem fits_resumeRekey (r : Fin 16) (s : State) (h : Fits b s) : Fits b (resumeRekey r s) :=
  (fits_keeps b).of h (frame_resumeRekey r s)

/-- R11: a LOCKED range's slots are LIVE for it once they are taken. -/
theorem takeSlots_slotsOk {r : Fin 16} {s t : State} {k : Fin 18} {l : Option (Fin 18)} (h : SlotsOk s)
    (ht : takeSlots r s = some (k, l, t)) :
    SlotsOk t ∧ LiveFor r k t ∧ ∀ n, l = some n → n ≠ k ∧ LiveFor r n t := by
  unfold takeSlots at ht
  split at ht
  · rename_i c n _ _
    split at ht
    · rename_i k' l' t' e
      obtain ⟨hk, hl, ne, et⟩ := allocTwo_eq e
      obtain ⟨rfl, rfl, rfl⟩ : k' = k ∧ some l' = l ∧ t' = t := by simpa using ht
      subst et
      have first := h.fill hk r c.media
      have empty : (setSlot k' (.live r c.media 0) s).slots[l'] = .empty := by rw [setSlot_get, if_neg ne, hl]
      refine ⟨first.fill empty r n.media, (liveFor_setSlot k' r c.media 0 s).congr ?_, ?_⟩
      · rw [setSlot_get, if_neg ne.symm]
      · intro n' hn
        cases hn
        exact ⟨ne, liveFor_setSlot _ r n.media 0 _⟩
    · cases ht
  · rename_i c _ _
    split at ht
    · rename_i k' t' e
      obtain ⟨hk, et⟩ := allocOne_eq e
      obtain ⟨rfl, rfl, rfl⟩ : k' = k ∧ none = l ∧ t' = t := by simpa using ht
      subst et
      exact ⟨h.fill hk r c.media, liveFor_setSlot k' r c.media 0 s, fun n hn => by cases hn⟩
    · cases ht
  · cases ht

theorem fits_openRange (r : Fin 16) (key : Key) (a : Access) (s : State) (h : Fits b s) :
    Fits b (openRange r key a s).2 := by
  unfold openRange
  split
  · rename_i hd e
    refine fits_setMark r false (fits_setRun r h fun g hg => ⟨hd, by rw [e]; rfl, ?_⟩)
    simp only [heldBy, Option.some.injEq] at hg
    subst hg
    split <;> exact ⟨rfl, rfl⟩
  · exact h
  · exact h
  · split
    · exact h
    · split
      · exact h
      · rename_i k l t e
        obtain ⟨ok, live, next⟩ := takeSlots_slotsOk h.1 e
        have taken : Fits b t := h.of_slotsOk ok (frame_takeSlots e).adm
        refine fits_resumeRekey r _ (fits_setMark r false (taken.of_slotsOk (taken.1.hold ?_) rfl))
        intro hd hh
        obtain rfl : _ = hd := by simpa [heldBy] using hh
        exact ⟨live, next⟩

theorem fits_autoOpen (r : Fin 16) (s : State) (h : Fits b s) : Fits b (autoOpen r s) := by
  have purged := (fits_keeps b).of h (frame_purgeStale .device r s)
  unfold autoOpen
  dsimp only
  split
  · split
    · split
      · rename_i e _ _ key _
        have opened := fits_openRange r key e.access _ purged
        split
        · rename_i h
          rw [h] at opened
          exact (fits_keeps b).of opened (frame_noticeSec _ _)
        · rename_i h
          rw [h] at opened
          exact opened
      · exact purged
    · exact purged
  · exact purged

theorem fits_applyPending (s : State) (h : Fits b s) : Fits b (applyPending s) := by
  unfold applyPending
  split
  · exact keeps_foldl (fun s r h => fits_autoOpen r _ ((fits_keeps b).of h (frame_leavePending r s))) _ s h
  · exact (fits_keeps b).of h (frame_setPending _ s)

theorem fits_autoOpenOrPend (bound : Binding → Bool) (r : Fin 16) (s : State) (h : Fits b s) :
    Fits b (autoOpenOrPend bound r s) := by
  have purged := (fits_keeps b).of h (frame_purgeStale .device r s)
  unfold autoOpenOrPend
  dsimp only
  split
  · split
    · exact (fits_keeps b).of purged (frame_setPending _ _)
    · exact fits_autoOpen r _ purged
  · exact purged

theorem fits_dropRuntime (r : Fin 16) (s : State) (h : Fits b s) : Fits b (dropRuntime r s) := by
  have adm : (dropRuntime r s).adm = s.adm := (frame_dropRuntime r s).adm
  refine h.of_slotsOk ?_ adm
  unfold dropRuntime
  split
  · rename_i hd e
    exact h.1.letGo e rfl
  · exact h.1.unheld r rfl

theorem fits_letGo (r : Fin 16) (s : State) (h : Fits b s) : Fits b (letGo r s) := by
  have dropped := fits_dropRuntime r s h
  unfold letGo
  split
  · exact (fits_keeps b).of dropped (frame_discardRekey _)
  · exact (fits_keeps b).of dropped (frame_pauseRekey r _)

theorem fits_freshKeys (r : Fin 16) (upd : RangeRec → RangeRec) (s : State) (h : Fits b s) :
    Fits b (freshKeys r upd s) := by
  have drawn : Fits b { s with draws := s.draws + 1 + 1 + 1 } := fits_keeps b (s := s) ⟨rfl, rfl, by simp; omega⟩ h
  have recorded := (fits_keeps b).of drawn (frame_put (.range r (renewedRec upd s.draws s.copies.ranges[r])) _ .cRanges)
  exact fits_setMark r false ((fits_keeps b).of recorded (frame_removeWraps _ _))

theorem fits_reopen (r : Fin 16) (n : Nat) (s : State) (h : Fits b s) : Fits b (reopen r n s).2 := by
  unfold reopen
  split
  · rename_i k t e
    obtain ⟨hk, rfl⟩ := allocOne_eq e
    have filled : Fits b (setSlot k (.live r ⟨n + 1⟩ 0) s) := h.of_slotsOk (h.1.fill hk r ⟨n + 1⟩) rfl
    refine filled.of_slotsOk (filled.1.hold fun hd hh => ?_) rfl
    obtain rfl : _ = hd := by simpa [heldBy] using hh
    exact ⟨liveFor_setSlot k r ⟨n + 1⟩ 0 s, fun n hn => by cases hn⟩
  · exact h

theorem fits_renewRange (r : Fin 16) (upd : RangeRec → RangeRec) (s : State) (h : Fits b s) :
    Fits b (renewRange r upd s).2.2 := by
  have opened := fits_reopen r (letGo r s).draws _ (fits_freshKeys r upd _ (fits_letGo r s h))
  have told := (fits_keeps b).of opened (frame_settleWaiters _)
  rw [renewRange_eq]
  dsimp only
  split
  · exact fits_releaseHold _ told
  · exact told

theorem fits_destroyRange (r : Fin 16) (s : State) (h : Fits b s) : Fits b (destroyRange r s) := by
  have drawn := (fits_keeps b).of h (frame_drawSalt s)
  have recorded := (fits_keeps b).of drawn (frame_put (.range r { s.copies.ranges[r] with
    current := none, next := none, generation := nextGeneration s.copies.ranges[r].generation, salt := ⟨s.draws⟩,
    erased := true }) _ .cRanges)
  exact recorded.of_slotsOk (recorded.1.unheld r rfl) rfl

theorem fits_deleteRange (r : Fin 16) (s : State) (h : Fits b s) : Fits b (deleteRange r s) := by
  have dropped := fits_dropRuntime r s h
  unfold deleteRange
  exact (fits_keeps b).of (fits_setMark r false ((fits_keeps b).of ((fits_keeps b).of dropped (frame_put (.range r _) _ .cRanges))
    (frame_removeWraps _ _))) (frame_settleWaiters _)

/-! ## The Theft Watch -/

theorem fits_entryEffects (old new : WatchState) (s : State) (h : Fits b s) : Fits b (entryEffects old new s) := by
  unfold entryEffects
  split
  · split
    · exact (fits_keeps b).of h (frame_setDecay _ s)
    · exact h
  · exact h
  · exact (fits_keeps b).of (fits_closeAllAtOnce s h)
      ((frame_setDecay none _).after (N := [.pendingSet, .decay]) (frame_setPending [] _))
  · exact (fits_keeps b).of h ((frame_setDecay none _).after (N := [.pendingSet, .decay]) (frame_setPending [] _))
  · exact (fits_keeps b).of h (frame_setDecay _ s)

theorem fits_enterWatch (w : WatchRec) (s : State) (h : Fits b s) : Fits b (enterWatch w s) := by
  have recorded := (fits_keeps b).of ((fits_keeps b).of h (frame_put (.watch w) s .cWatch))
    (frame_addIncident (.stateChange w.state) _)
  exact (fits_keeps b).of (fits_entryEffects _ _ _ recorded) (frame_noticeBoth _ _)

theorem fits_evaluate (changed : Bool) (s : State) (h : Fits b s) : Fits b (evaluate changed s) := by
  unfold evaluate
  dsimp only
  split
  · exact (fits_keeps b).of h (frame_startErase _ s)
  · split
    · exact fits_enterWatch _ s h
    · split
      · exact fits_enterWatch _ s h
      · split
        · exact fits_enterWatch _ s h
        · split
          · exact (fits_keeps b).of h (frame_put (.watch _) s .cWatch)
          · exact h

theorem fits_takeEvidence (e : Evidence) (s : State) (h : Fits b s) : Fits b (takeEvidence e s) := by
  unfold takeEvidence
  split
  · exact fits_evaluate _ _ ((fits_keeps b).of ((fits_keeps b).of h (frame_setScore _ s)) (frame_addIncident _ _))
  · exact (fits_keeps b).of h (frame_addIncident _ s)

theorem fits_lowerScore (step : Nat) (s : State) (h : Fits b s) : Fits b (lowerScore step s) :=
  fits_evaluate _ _ ((fits_keeps b).of h (frame_setScore _ s))

theorem fits_reportSuccess (role : Role) (s : State) (h : Fits b s) : Fits b (reportSuccess role s) := by
  unfold reportSuccess
  split
  · split
    · exact h
    · exact fits_enterWatch _ s h
  · exact fits_lowerScore _ s h
  · exact fits_lowerScore _ s h
  · exact h
  · exact h

theorem fits_decayExpires (s : State) (h : Fits b s) : Fits b (decayExpires s) := by
  unfold decayExpires
  split
  · exact fits_lowerScore _ _ ((fits_keeps b).of h (frame_setDecay _ s))
  · exact h

theorem fits_checkinExpires (s : State) (h : Fits b s) : Fits b (checkinExpires s) := by
  unfold checkinExpires
  split
  · exact fits_takeEvidence _ _ (fits_keeps b (s := s) (t := { s with watch := { s.watch with checkin := 0 } })
      (Frame.within (L := [.sensors]) ⟨rfl, rfl, le_rfl⟩) h)
  · exact h

theorem fits_takeEdge (n : Fin 4) (level : Bool) (s : State) (h : Fits b s) : Fits b (takeEdge n level s) := by
  have seen : Fits b { s with watch := { s.watch with levels := s.watch.levels.set n level } } :=
    fits_keeps b (s := s) (Frame.within (L := [.sensors]) ⟨rfl, rfl, le_rfl⟩) h
  unfold takeEdge
  split
  · exact h
  · dsimp only
    split
    · exact fits_takeEvidence _ _ (fits_keeps b (Frame.within (L := [.sensors]) ⟨rfl, rfl, le_rfl⟩) seen)
    · exact seen

/-! ## The Erase Engine -/

theorem fits_haltWork (s : State) (h : Fits b s) : Fits b (haltWork s) := by
  have aborted := fits_abortWhere (fun _ => true) _ (fits_refuseHeldWhere (fun _ => true) .erasing none s h)
  have discarded := (fits_keeps b).of aborted (frame_discardRekey _)
  unfold haltWork
  dsimp only
  generalize discardRekey _ = m at discarded ⊢
  have forgotten : Fits b { m with rekey := { m.rekey with order := none, fence := none, intended := none } } :=
    fits_keeps b (s := m) (Frame.within (L := [.order, .fence, .intended]) ⟨rfl, rfl, le_rfl⟩) discarded
  split
  · exact (fits_keeps b).of forgotten (frame_put (.range _ _) _ .cRanges)
  · exact forgotten

theorem fits_destroyWork (s : State) (h : Fits b s) : Fits b (destroyWork s) := by
  have removed := (fits_keeps b).of h (frame_removeWraps (fun _ => true) s)
  unfold destroyWork
  refine keeps_foldl (fun s r h => ?_) _ _ removed
  split
  · exact fits_destroyRange r s h
  · exact h

/-- With nothing ADMITTED no slot has a pin, and with every range closed none is in use: all may be EMPTY. -/
theorem fits_emptied {m : State} (h : Fits true m) (closed : ∀ r : Fin 16, heldBy m.ranges[r].run = none) :
    Fits true { m with slots := Vector.replicate 18 .empty } := by
  obtain ⟨-, -, entries⟩ := (slotsOk_iff m).mp h.1
  refine ⟨(slotsOk_iff _).mpr ⟨fun k => ?_, fun r hd hh => ?_, entries⟩, h.2⟩
  · have zero : pinsOn k m = 0 := pinsOn_zero (h.2 rfl).2
    exact (by simp [slotPins] : slotPins (Vector.replicate 18 Slot.empty)[k] = 0).trans zero.symm
  · rw [closed r] at hh
    cases hh

/-- R161: step 2. -/
theorem fits_zeroizeWork (s : State) (h : Fits true s) : Fits true (zeroizeWork s) :=
  fits_emptied (fits_closeAllAtOnce s h) fun r => unheld_closeAllAtOnce r s

theorem fits_eraseEntered (s : State) (h : Fits b s) : Fits b (eraseEntered s) := by
  have started : Fits b { s with erase := { s.erase with starting := none } } :=
    fits_keeps b (s := s) (Frame.within (L := [.starting]) ⟨rfl, rfl, le_rfl⟩) h
  have entered := withTouched_keeps (fits_keeps b).mono
    (fun m hm => fits_enterWatch { s.copies.watch with state := .erasing } m hm) _ started
  have reached := frame_withTouched (L := [.cIncidents, .requests, .secQueue, .platQueue, .marks])
    fun s => (frame_addIncident (.eraseStep 0) s).andThen (frame_noticeBoth (.eraseStep 0) _)
  rw [eraseEntered_eq]
  dsimp only
  generalize withTouched (enterWatch _) _ = x at entered ⊢
  exact (fits_keeps b).of (M := slotFields) entered ((frame_addWait _ _ _).after ((frame_platAnswerDue _).after
    (N := slotFields) ((reached _).after (N := slotFields) (frame_eraseTold _ _))))

end Sys2Proof.Machine
end


-- ==== Sys2Proof/Proofs/SlotsOfCommands.lean ====
section
/-! PROOF. Every command keeps the slots' pins and the ranges' slots, and the Cipher Engine finds a key for every unit that
it takes: O15. -/

-- As in the tests: each theorem that waits for the kernel in parallel would keep a thread.
set_option Elab.async false

namespace Sys2Proof.Machine

variable {b : Bool}

/-! ## The Erase Engine: the scrub and the end -/

theorem fits_finishErase (r : EraseResult) (s : State) (h : Fits b s) : Fits b (finishErase r s) := by
  unfold finishErase
  split
  · rename_i j _
    have journal := (fits_keeps b).of h (frame_put (.journal (some { j with step := 5, result := some r })) s .cJournal)
    have told := (fits_keeps b).of ((fits_keeps b).of journal (frame_addIncident (.eraseStep 5) _))
      (frame_noticeBoth (.eraseStep 5) _)
    have entered := fits_enterWatch { (noticeBoth (.eraseStep 5) (addIncident (.eraseStep 5)
      (putJournal (some { j with step := 5, result := some r }) s))).copies.watch with state := .erased } _ told
    have cleared : ∀ m, Fits b m →
        Fits b { m with erase := { m.erase with orders := [], retries := [], done := [], stopping := false } } :=
      fun m hm => fits_keeps b (s := m) (Frame.within (L := [.orders, .scrubMarks, .stopping]) ⟨rfl, rfl, le_rfl⟩) hm
    exact (fits_keeps b).of (cleared _ entered) (frame_noticeBoth _ _)
  · exact h

theorem fits_abandonScrub (s : State) (h : Fits b s) : Fits b (abandonScrub s) := by
  have stopped : Fits b { s with erase := { s.erase with orders := [], stopping := true } } :=
    fits_keeps b (s := s) (Frame.within (L := [.orders, .stopping]) ⟨rfl, rfl, le_rfl⟩) h
  unfold abandonScrub
  generalize { s with erase := { s.erase with orders := [], stopping := true } } = m at stopped ⊢
  dsimp only
  split
  · exact fits_finishErase _ m stopped
  · exact (fits_keeps b).of stopped (frame_addWait _ _ m)

theorem fits_scrubFailed (c : Nat) (s : State) (h : Fits b s) : Fits b (scrubFailed c s) := by
  have retried : ∀ l m, Fits b m → Fits b { m with erase := { m.erase with retries := l } } :=
    fun l m hm => fits_keeps b (s := m) (Frame.within (L := [.scrubMarks]) ⟨rfl, rfl, le_rfl⟩) hm
  unfold scrubFailed
  split
  · dsimp only
    split
    · exact retried _ s h
    · split
      · exact (fits_keeps b).of (retried _ _ ((fits_keeps b).of h (frame_put (.journal _) s .cJournal)))
          (frame_markDone c _)
      · exact fits_abandonScrub s h
  · exact h

theorem fits_scrubCompletes (o : ScrubOrder) (ok : Bool) (s : State) (h : Fits b s) : Fits b (scrubCompletes o ok s) := by
  have taken : Fits b { s with erase := { s.erase with
      orders := s.erase.orders.filter fun p => decide (p.num ≠ o.num) } } :=
    fits_keeps b (s := s) (Frame.within (L := [.orders]) ⟨rfl, rfl, le_rfl⟩) h
  have retried : ∀ l m, Fits b m → Fits b { m with erase := { m.erase with retries := l } } :=
    fun l m hm => fits_keeps b (s := m) (Frame.within (L := [.scrubMarks]) ⟨rfl, rfl, le_rfl⟩) hm
  unfold scrubCompletes
  generalize { s with erase := { s.erase with orders := s.erase.orders.filter fun p => decide (p.num ≠ o.num) } } = m
    at taken ⊢
  dsimp only
  refine (fits_keeps b).of (M := issueFields) ?_ (frame_issueScrubs _)
  split
  · exact (fits_keeps b).of (retried _ m taken) (frame_markDone _ _)
  · exact fits_scrubFailed _ m taken

/-! ## The Rekey Engine -/

theorem fits_closingSteps (s : State) (h : Fits b s) : Fits b (closingSteps s) := by
  have cleared : Fits b { s with rekey := { s.rekey with fence := none, seen := none, completing := false } } :=
    fits_keeps b (s := s) (Frame.within (L := [.fence, .seen, .completing]) ⟨rfl, rfl, le_rfl⟩) h
  exact (fits_keeps b).of (fits_releaseHold _ cleared) (frame_chooseWindow _)

/-- R14: the NEXT slot of a range becomes its current one, and the old one is retired. -/
theorem slotsOk_handOver {s : State} (h : SlotsOk s) {r : Fin 16} {hd : Held} {n : Fin 18} {run : RangeRun}
    (hh : heldBy s.ranges[r].run = some hd) (hn : hd.next = some n)
    (hrun : heldBy run = some { hd with current := n, next := none }) :
    SlotsOk (retireSlot hd.current (setRun r run s)) := by
  obtain ⟨live, next⟩ := h.2.1 r hd hh
  obtain ⟨ne, liveNext⟩ := next n hn
  have get : ∀ k : Fin 18, (retireSlot hd.current (setRun r run s)).slots[k]
      = if k = hd.current then retiredSlot s.slots[hd.current] else s.slots[k] := fun k =>
    setSlot_get hd.current k _ (setRun r run s)
  refine h.set_range r (fun k => ?_) (fun q k n l => l.of_retired n ?_)
    (fun q n => setRun_get_other n run s) ?_ rfl rfl
  · rw [get]
    split
    · rename_i e
      rw [slotPins_retiredSlot, e]
    · rfl
  · rw [get]
    split
    · rename_i e
      exact .inr (e ▸ live)
    · exact .inl rfl
  · have same : (retireSlot hd.current (setRun r run s)).ranges[r].run = run := setRun_get_self r run s
    rw [same, HeldOk, hrun]
    rintro g hg
    cases hg
    exact ⟨liveNext.congr (by rw [get, if_neg ne]), fun m hm => by cases hm⟩

theorem fits_handOver (r : Fin 16) (s : State) (h : Fits b s) : Fits b (handOver r s) := by
  unfold handOver
  split
  · rename_i hd e
    split
    · rename_i n hn
      exact h.of_slotsOk (slotsOk_handOver h.1 (by rw [e]; rfl) hn rfl) rfl
    · exact h
  · rename_i hd d ws e
    split
    · rename_i n hn
      exact h.of_slotsOk (slotsOk_handOver h.1 (by rw [e]; rfl) hn rfl) rfl
    · exact h
  · exact h

theorem fits_rekeyEnded (r : Fin 16) (s : State) (h : Fits b s) : Fits b (rekeyEnded r s) :=
  fits_closingSteps _ ((fits_keeps b).of (fits_handOver r s h) (frame_noticeSec _ _))

theorem fits_orderDone (num : Nat) (ok : Bool) (s : State) (h : Fits b s) : Fits b (orderDone num ok s) := by
  have scrub : Fits b (match scrubOrder num s with
      | some p => scrubCompletes p ok s
      | none => s) := by
    split
    · exact fits_scrubCompletes _ ok s h
    · exact h
  unfold orderDone
  split
  · split
    · exact (fits_keeps b).of h (frame_rekeyCompletes _ ok s)
    · exact scrub
  · exact scrub

/-- R112: the range under rekey takes a second slot. -/
theorem fits_startRekey (r : Fin 16) (s : State) (h : Fits b s) : Fits b (startRekey r s) := by
  unfold startRekey
  split
  · rename_i hd hr
    dsimp only
    have drawn : Fits b (drawKey s).2 := (fits_keeps b).of h (frame_drawKey s)
    generalize (drawKey s).1 = media
    have hr' : (drawKey s).2.ranges[r].run = .opened hd := hr
    generalize (drawKey s).2 = s1 at drawn hr' ⊢
    split
    · rename_i n s2 e
      obtain ⟨hn, rfl⟩ := allocOne_eq e
      have filled : Fits b (setSlot n (.live r media 0) s1) := drawn.of_slotsOk (drawn.1.fill hn r media) rfl
      have opened : Fits b (setRun r (.opened { hd with next := some n }) (setSlot n (.live r media 0) s1)) := by
        refine filled.of_slotsOk (filled.1.hold fun g hg => ?_) rfl
        obtain rfl : _ = g := by simpa [heldBy] using hg
        have live := (filled.1.2.1 r hd (by rw [setSlot_ranges, hr']; rfl)).1
        refine ⟨live, fun m hm => ?_⟩
        obtain rfl : n = m := by simpa using hm
        refine ⟨fun (same : n = hd.current) => ?_, liveFor_setSlot n r media 0 s1⟩
        obtain ⟨_, _, x⟩ := (drawn.1.2.1 r hd (by rw [hr']; rfl)).1
        rw [← same, hn] at x
        cases x
      generalize setRun r (.opened { hd with next := some n }) (setSlot n (.live r media 0) s1) = s3 at opened ⊢
      have ranged := fun v => (fits_keeps b).of opened (frame_putBy .rekeyEngine (.range r v) s3 .cRanges)
      have recorded := fun v k => (fits_keeps b).of (ranged v) (frame_put (.rekey k) _ .cRekey)
      split
      · exact (fits_keeps b).of (recorded _ _) (frame_endRekey _ _ _)
      · exact (fits_keeps b).of (recorded _ _) (frame_addWait _ _ _)
    · exact drawn
  · exact h

/-! ## Transfers -/

theorem fits_freed {s : State} (h : Fits b s) (t : Fin 32) (hx : ∀ x, s.adm.table[t] ≠ .admitted x) :
    Fits b (freeTag t s) := by
  have freed : Fits b (setEntry t .free s) := by
    refine ⟨h.1.set_unpinned t .free rfl hx (fun y hy => by cases hy) rfl rfl rfl trivial, fun hb => ⟨fun g hg c e => ?_,
      fun g y => ?_⟩⟩
    · rw [setEntry_get]
      split
      · exact fun hy => by cases hy
      · exact (h.2 hb).1 g hg c e
    · rw [setEntry_get]
      split
      · exact fun hy => by cases hy
      · exact (h.2 hb).2 g y
  exact fits_keeps b (s := setEntry t .free s) (Frame.within (L := [.units]) ⟨rfl, rfl, le_rfl⟩) freed

theorem slotsOk_takeDescriptor (t : Fin 32) (cls : XferClass) (e : Extent) (order : Nat) (s : State) (h : Fits false s) :
    Fits false (takeDescriptor t cls e order s) := by
  have refused : ∀ f, Fits false (pushFrame f s) := fun f => (fits_keeps false).of h (frame_pushFrame f s)
  unfold takeDescriptor
  split
  · exact refused _
  · rename_i ok
    have ok : s.adm.table[t] = .free ∧ 1 ≤ e.len ∧ extentEnd e ≤ s.copies.factory.capacity := by
      unfold openCheck at ok
      dsimp only at ok
      split at ok
      · cases ok
      · split at ok
        · cases ok
        · split at ok
          · cases ok
          · split at ok
            · cases ok
            · rename_i h1 h2 h3
              exact ⟨not_not.mp h1, by omega, by omega⟩
    obtain ⟨free, h1, hC⟩ := ok
    have notAdmitted : ∀ y, s.adm.table[t] ≠ .admitted y := fun y hy => by rw [free] at hy; cases hy
    split
    · exact refused _
    · split
      · exact refused _
      · rename_i segs hj
        split
        · unfold holdOrRefuse
          split
          · have held : SlotsOk { setEntry t (.held cls e) s with
                adm := { (setEntry t (.held cls e) s).adm with hold := s.adm.hold ++ [t] } } :=
              h.1.set_unpinned t (.held cls e) rfl notAdmitted (fun y hy => by cases hy) rfl rfl rfl ⟨h1, hC⟩
            exact (fits_keeps false).of ⟨held, fun x => by cases x⟩ (frame_pushFrame _ _)
          · exact refused _
        · exact ⟨slotsOk_admitEntry h.1 notAdmitted hj rfl h1 hC, fun x => by cases x⟩

theorem fits_endAdmitted {s m : State} (h : Fits b s) {t : Fin 32} {x y : Xfer} (st : EndStatus)
    (hx : s.adm.table[t] = .admitted x) (hy : y.segs = x.segs)
    (htable : ∃ e, m.adm.table = s.adm.table.set t e) (hslots : m.slots = s.slots) (hranges : m.ranges = s.ranges)
    (hfactory : m.copies.factory = s.copies.factory) : Fits b (endAdmitted t y st m) := by
  obtain ⟨e, htable⟩ := htable
  have f := (frame_pushFrame (.xferEnd t st y.answered y.ciphered) (freeTag t m))
  refine fits_depart h hx hy (e := .free) ?_ (f.slots.trans hslots) (f.ranges.trans hranges) (f.capacity.trans hfactory)
    (fun _ => rfl) trivial
  rw [f.table]
  show m.adm.table.set t .free = _
  rw [htable, Vector.set_set]

theorem fits_endAborting {s : State} (h : Fits b s) (t : Fin 32) (x : Xfer) (st : EndStatus)
    (hx : ∀ x, s.adm.table[t] ≠ .admitted x) : Fits b (endAborting t x st s) :=
  (fits_keeps b).of (fits_freed h t hx) (frame_pushFrame _ _)

theorem fits_stopTransfer (t : Fin 32) (s : State) (h : Fits b s) : Fits b (stopTransfer t s) := by
  unfold stopTransfer
  split
  · rename_i x hx
    exact fits_endAdmitted h .stopped hx rfl ⟨s.adm.table[t], by simp⟩ rfl rfl rfl
  · rename_i x hx
    exact fits_endAborting h t x .stopped fun y hy => by rw [hx] at hy; cases hy
  · rename_i c e he
    exact fits_refuseHeld .stopped none t s h c e he
  · exact h

theorem fits_abortedUnit (t : Fin 32) (i : Nat) (x : Xfer) (s : State) (h : Fits b s) (hx : s.adm.table[t] = .aborting x) :
    Fits b (abortedUnit t i x s) := by
  have counted : Fits b (setEntry t (.aborting { x with answered := x.answered + 1 }) s) := by
    refine ⟨h.1.set_unpinned t _ rfl (fun y hy => by rw [hx] at hy; cases hy) (fun y hy => by cases hy) rfl rfl rfl trivial,
      fun hb => ⟨fun g hg c e => ?_, fun g y => ?_⟩⟩
    · rw [setEntry_get]
      split
      · exact fun hy => by cases hy
      · exact (h.2 hb).1 g hg c e
    · rw [setEntry_get]
      split
      · exact fun hy => by cases hy
      · exact (h.2 hb).2 g y
  have told := (fits_keeps b).of counted (frame_pushFrame (.xferUnit t true i 0) _)
  unfold abortedUnit
  dsimp only
  split
  · refine fits_endAborting told t _ .aborted fun y hy => ?_
    rw [(frame_pushFrame (.xferUnit t true i 0) _).table, setEntry_get, if_pos rfl] at hy
    cases hy
  · exact told

/-- R42, R43: the unit that an ADMITTED entry waits for has a segment, and its slot a key. -/
theorem treatUnit_isSome {s : State} (h : SlotsOk s) {t : Fin 32} {x : Xfer} (hx : s.adm.table[t] = .admitted x)
    (payload : UnitData) : (treatUnit x x.next payload s).isSome = true := by
  obtain ⟨pins, -, covered, -⟩ := h
  obtain ⟨lt, all⟩ := covered t x hx
  obtain ⟨g, hg⟩ := Option.isSome_iff_exists.mp (all x.next lt)
  unfold treatUnit
  rw [hg]
  dsimp only
  split
  · rfl
  · rename_i k hk
    have named : pinsSlot k s.adm.table[t] = true := by
      rw [hx, pinsSlot_admitted, mem_slotsNamed]
      exact ⟨g, List.mem_of_find?_eq_some hg, hk⟩
    have pos := pinsOn_pos named
    rw [← pins k] at pos
    generalize s.slots[k] = v at pos ⊢
    cases v with
    | empty => exact absurd pos (Nat.lt_irrefl 0)
    | live o key n => rfl
    | draining o key n => rfl

theorem takeUnit_isSome {s : State} (h : SlotsOk s) : (takeUnit s).isSome = true := by
  unfold takeUnit
  split
  · rfl
  · rename_i u rest _
    dsimp only
    split
    · rename_i x hx
      split
      · rename_i e
        have some_key := treatUnit_isSome h hx u.payload
        rw [← e] at some_key
        split
        · rfl
        · rename_i none_key
          rw [none_key] at some_key
          cases some_key
      · rfl
    · rfl
    · rfl
    · rfl

theorem slotsOk_takeUnit {s t : State} (h : Fits false s) (hu : takeUnit s = some t) : Fits false t := by
  unfold takeUnit at hu
  split at hu
  · cases hu
    exact h
  · rename_i u rest _
    dsimp only at hu
    have taken : Fits false { s with drive := { s.drive with units := rest } } :=
      fits_keeps false (s := s) (Frame.within (L := [.units]) ⟨rfl, rfl, le_rfl⟩) h
    split at hu
    · rename_i x hx
      obtain ⟨-, -, covered, -⟩ := h.1
      obtain ⟨-, all⟩ := covered u.tag x hx
      split at hu
      · split at hu
        · rename_i pad out _
          cases hu
          have f := frame_pushFrame (.xferUnit u.tag pad u.index out)
            (setEntry u.tag (.admitted (countUnit pad x)) { s with drive := { s.drive with units := rest } })
          unfold endIfLast
          split
          · exact fits_endAdmitted h _ hx (y := countUnit pad x) rfl ⟨.admitted (countUnit pad x), f.table⟩ f.slots f.ranges
              f.capacity
          · rename_i more
            have counted : SlotsOk (setEntry u.tag (.admitted (countUnit pad x))
                { s with drive := { s.drive with units := rest } }) :=
              h.1.set_entry u.tag (.admitted (countUnit pad x)) rfl (fun k => by rw [hx]; rfl) (fun q k l => l) rfl rfl
                ⟨Nat.lt_of_not_le more, all⟩
            exact (fits_keeps false).of ⟨counted, fun x => by cases x⟩ f
        · cases hu
      · cases hu
        exact fits_endAdmitted h _ hx rfl ⟨s.adm.table[u.tag], by simp⟩ rfl rfl rfl
    · rename_i x hx
      cases hu
      exact fits_abortedUnit u.tag u.index x _ taken hx
    · cases hu
      exact taken
    · cases hu
      exact taken

/-! ## The security channel -/

theorem fits_mismatchVerdict (c : Fin 8) (s : State) (h : Fits b s) : Fits b (mismatchVerdict c s) := by
  have taken := fits_takeEvidence (.credentialFailed c) s h
  have held : ∀ d m, Fits b m → Fits b { m with cred := { m.cred with holdoff := d } } :=
    fun d m hm => fits_keeps b (s := m) (Frame.within (L := [.holdoff]) ⟨rfl, rfl, le_rfl⟩) hm
  exact (fits_keeps b).of ((fits_keeps b).of ((fits_keeps b).of (held _ _ taken) (frame_exhaust _))
    (frame_disableAtLimit c _)) (frame_secFinish _ _ _)

theorem fits_successResets (c : Fin 8) (key : CredKey) (s : State) (h : Fits b s) : Fits b (successResets c key s) := by
  have counted := (fits_keeps b).of ((fits_keeps b).of h (frame_put (.charged 0) s .cCharged))
    (frame_put (.cred c { (put (.charged 0) s).copies.creds[c] with ownCount := 0 }) _ .cCreds)
  have stopped : ∀ m, Fits b m → Fits b { m with cred := { m.cred with holdoff := none } } :=
    fun m hm => fits_keeps b (s := m) (Frame.within (L := [.holdoff]) ⟨rfl, rfl, le_rfl⟩) hm
  exact fits_reportSuccess _ _ ((fits_keeps b).of (stopped _ counted) (frame_modSec _ _))

theorem fits_completePass (c : Fin 8) (key : CredKey) (held : Option Code) (l : List (Fin 16 × Option Code)) (s : State)
    (h : Fits b s) : Fits b (completePass c key held l s).2 := by
  have opened : ∀ r m, Fits b m → Fits b (openMarked c key r m).2 := by
    intro r m hm
    unfold openMarked
    split
    · exact hm
    · split
      · exact hm
      · exact fits_openRange _ _ _ m hm
  induction l generalizing s with
  | nil => exact h
  | cons x l ih =>
    obtain ⟨r, k⟩ := x
    cases k with
    | some code => exact ih s h
    | none =>
      cases held with
      | some code => exact ih s h
      | none => exact ih _ (opened r s h)

theorem fits_unlockEffect (c : Fin 8) (key : CredKey) (ranges : List Byte) (s : State) (h : Fits b s) :
    Fits b (unlockEffect c key ranges s) := by
  have purged := fun l => keeps_foldl (f := fun s r => purgeStale (.slot c) r s)
    (fun s r h => (fits_keeps b).of h (frame_purgeStale (.slot c) r s)) l s h
  have finish : ∀ held marks m, Fits b m → Fits b (secFinish .ok (.rangeResults (completePass c key held marks m).1)
      (completePass c key held marks m).2) := fun held marks m hm =>
    (fits_keeps b).of (fits_completePass c key held marks m hm) (frame_secFinish _ _ _)
  have evidence : ∀ p : Prop, [Decidable p] → ∀ m, Fits b m →
      Fits b (if p then takeEvidence (.bindingMismatch 2) m else m) := by
    intro p _ m hm
    split
    · exact fits_takeEvidence _ m hm
    · exact hm
  exact finish _ _ _ (evidence _ _ (purged _))

theorem fits_renewAndOwn (c : Fin 8) (key : CredKey) (r : Fin 16) (upd : RangeRec → RangeRec) (s : State) (h : Fits b s) :
    Fits b (renewAndOwn c key r upd s) := by
  have renewed := fits_renewRange r upd s h
  unfold renewAndOwn
  generalize renewRange r upd s = x at renewed ⊢
  exact (fits_keeps b).of ((fits_keeps b).of renewed (frame_ownerEntries c key r x.1 _)) (frame_secFinish _ _ _)

theorem fits_defineEffect (c : Fin 8) (key : CredKey) (r : Fin 16) (e : Extent) (a : Attributes) (s : State)
    (h : Fits b s) : Fits b (defineEffect c key r e a s) := by
  unfold defineEffect
  split
  · exact (fits_keeps b).of h (frame_secFinish _ _ s)
  · split
    · exact (fits_keeps b).of h (frame_secFinish _ _ s)
    · split
      · exact (fits_keeps b).of h (frame_secFinish _ _ s)
      · exact fits_renewAndOwn _ _ _ _ _ (fits_abortWhere _ s h)

theorem fits_eraseRangeEffect (c : Fin 8) (key : CredKey) (r : Fin 16) (s : State) (h : Fits b s) :
    Fits b (eraseRangeEffect c key r s) := by
  unfold eraseRangeEffect
  split
  · exact (fits_keeps b).of h (frame_secFinish _ _ s)
  · split
    · exact (fits_keeps b).of h (frame_secFinish _ _ s)
    · exact fits_renewAndOwn _ _ _ _ _ (fits_abortWhere _ s h)

theorem fits_deleteEffect (r : Fin 16) (s : State) (h : Fits b s) : Fits b (deleteEffect r s) := by
  unfold deleteEffect
  split
  · exact (fits_keeps b).of h (frame_secFinish _ _ s)
  · split
    · exact (fits_keeps b).of h (frame_secFinish _ _ s)
    · exact (fits_keeps b).of ((fits_keeps b).of (fits_deleteRange r _ (fits_abortWhere _ s h)) (frame_leavePending r _))
        (frame_secFinish _ _ _)

theorem fits_bindEffect (s : State) (h : Fits b s) : Fits b (bindEffect s) := by
  unfold bindEffect
  split
  · exact (fits_keeps b).of h (frame_secFinish _ _ s)
  · exact (fits_keeps b).of (fits_applyPending _ ((fits_keeps b).of ((fits_keeps b).of h (frame_put (.digest _) s .cDigest))
      (frame_setBinding _ _))) (frame_secFinish _ _ _)

theorem fits_unbindEffect (s : State) (h : Fits b s) : Fits b (unbindEffect s) := by
  unfold unbindEffect
  split
  · exact (fits_keeps b).of h (frame_secFinish _ _ s)
  · exact (fits_keeps b).of (fits_applyPending _ ((fits_keeps b).of ((fits_keeps b).of h (frame_put (.digest _) s .cDigest))
      (frame_setBinding _ _))) (frame_secFinish _ _ _)

theorem fits_rekeyStartEffect (r : Fin 16) (s : State) (h : Fits b s) : Fits b (rekeyStartEffect r s) := by
  unfold rekeyStartEffect
  split
  · exact (fits_keeps b).of h (frame_secFinish _ _ s)
  · exact (fits_keeps b).of (fits_startRekey r s h) (frame_secFinish _ _ _)

theorem fits_rekeyResumeEffect (s : State) (h : Fits b s) : Fits b (rekeyResumeEffect s) := by
  unfold rekeyResumeEffect
  split
  · exact (fits_keeps b).of h (frame_secFinish _ _ s)
  · exact (fits_keeps b).of ((fits_keeps b).of h (frame_resumeFaulted s)) (frame_secFinish _ _ _)

theorem fits_renewAll (l : List (Fin 16)) (s : State) (h : Fits b s) : Fits b (renewAll l s).2 := by
  induction l generalizing s with
  | nil => exact h
  | cons r l ih =>
    unfold renewAll
    split
    · have renewed := fits_renewRange r id s h
      generalize renewRange r id s = x at renewed ⊢
      exact ih _ renewed
    · exact ih s h

theorem fits_reprovisionEffect (c : Fin 8) (key : CredKey) (s : State) (h : Fits b s) :
    Fits b (reprovisionEffect c key s) := by
  have renewed := fits_renewAll (List.finRange 16) s h
  unfold reprovisionEffect
  generalize renewAll (List.finRange 16) s = x at renewed ⊢
  have owned := Frame.foldl (f := fun s (x : Fin 16 × Key × Bool) => ownerEntries c key x.1 x.2.1 s)
    (fun s x => frame_ownerEntries c key x.1 x.2.1 s) x.1 x.2
  exact (fits_keeps b).of (M := .sec :: .cCreds :: .cJournal :: wrapFields) renewed
    ((frame_modSec _ _).after ((frame_put (.journal none) _ .cJournal).after (N := .cCreds :: .cJournal :: wrapFields)
      ((frame_clearOwnCounts _).after (N := .cCreds :: wrapFields) owned)))

theorem fits_requestEffect (req : Instr) (c : Fin 8) (key : CredKey) (s : State) (h : Fits b s) :
    Fits b (requestEffect req c key s) := by
  unfold requestEffect
  split
  · exact fits_unlockEffect _ _ _ s h
  · exact (fits_keeps b).of h (frame_secNewVerifier _ s)
  · exact (fits_keeps b).of h (frame_setSecretEffect _ _ s)
  · exact (fits_keeps b).of h (frame_enableEffect _ s)
  · exact (fits_keeps b).of h (frame_removeEffect _ s)
  · exact (fits_keeps b).of h (frame_grantEffect _ _ _ _ _ _ s)
  · exact (fits_keeps b).of h (frame_revokeEffect _ _ s)
  · exact fits_defineEffect _ _ _ _ _ s h
  · exact fits_deleteEffect _ s h
  · exact (fits_keeps b).of h (frame_attributesEffect _ _ s)
  · exact fits_eraseRangeEffect _ _ _ s h
  · exact (fits_keeps b).of h (frame_policyEffect _ s)
  · exact fits_bindEffect s h
  · exact fits_unbindEffect s h
  · exact (fits_keeps b).of h (frame_tokenEffect _ s)
  · exact (fits_keeps b).of h (frame_readIncidentsEffect _ s)
  · exact (fits_keeps b).of h (frame_clearIncidentsEffect s)
  · exact fits_rekeyStartEffect _ s h
  · exact fits_rekeyResumeEffect s h
  · exact (fits_keeps b).of h (frame_eraseAllEffect s)
  · exact fits_reprovisionEffect _ _ s h
  · exact h

theorem fits_secDerived (key : CredKey) (s : State) (h : Fits b s) : Fits b (secDerived key s) := by
  unfold secDerived
  split
  · exact h
  · split
    · unfold verdict
      split
      · exact h
      · rename_i c _ _
        split
        · have reset := fits_successResets c key s h
          unfold successVerdict
          dsimp only
          split
          · exact (fits_keeps b).of reset (frame_secFinish _ _ _)
          · exact fits_requestEffect _ _ _ _ reset
        · exact fits_mismatchVerdict c s h
    · exact (fits_keeps b).of ((fits_keeps b).of h (frame_modSec _ s)) (frame_secondDerived _ _ _ _)
    · exact h

theorem fits_lockRequest (x : Byte) (s : State) (h : Fits b s) : Fits b (lockRequest x s) := by
  have left := (fits_keeps b).of h (frame_leavePending (rangeIx x) s)
  unfold lockRequest
  split
  · exact (fits_keeps b).of (fits_orderlyClose _ _ _ left) (frame_awaitCloses _)
  · exact (fits_keeps b).of h (frame_secReply _ _ s)

theorem fits_lockAllRequest (s : State) (h : Fits b s) : Fits b (lockAllRequest s) := by
  have emptied := (fits_keeps b).of h (frame_setPending [] s)
  have closes := keeps_foldl (f := fun s r => if rangeDefined s.copies r then orderlyClose r (some .security) s else s)
    (fun s r h => by
      split
      · exact fits_orderlyClose r _ s h
      · exact h) (List.finRange 16) _ emptied
  exact (fits_keeps b).of closes (frame_awaitCloses _)

theorem fits_takeRequest (req : Instr) (s : State) (h : Fits b s) : Fits b (takeRequest req s) := by
  have taken : Fits b { s with cmd := { s.cmd with sec := some ⟨req, false, .taken, [], [], false⟩ } } :=
    fits_keeps b (s := s) (Frame.within (L := [.sec]) ⟨rfl, rfl, le_rfl⟩) h
  have begun : ∀ m, Fits b m → Fits b (beginRequest req m) := by
    intro m hm
    unfold beginRequest
    split
    · exact (fits_keeps b).of hm (frame_secReply _ _ m)
    · exact (fits_keeps b).of hm (frame_secReply _ _ m)
    · exact (fits_keeps b).of hm (frame_maskRequest _ m)
    · exact fits_lockRequest _ m hm
    · exact fits_lockAllRequest m hm
    · exact (fits_keeps b).of hm (frame_beginOwnership _ m)
    · exact (fits_keeps b).of hm (frame_beginTest _ m)
  unfold takeRequest
  split
  · exact (fits_keeps b).of h (frame_answerAtOnce _ _ s)
  · split
    · exact (fits_keeps b).of h (frame_answerAtOnce _ _ s)
    · generalize { s with cmd := { s.cmd with sec := some ⟨req, false, .taken, [], [], false⟩ } } = m at taken ⊢
      dsimp only
      split
      · exact begun m taken
      · exact (fits_keeps b).of taken (frame_secReply _ _ m)

/-! ## The platform -/

theorem fits_closeBound (s : State) (h : Fits b s) : Fits b (closeBound s) := by
  refine keeps_foldl (fun s r h => ?_) _ s h
  split
  · exact fits_orderlyClose r none s h
  · exact h

theorem fits_bindMessage (w : BindingWord) (s : State) (h : Fits b s) : Fits b (bindMessage w s) := by
  have seen : Fits b { s with watch := { s.watch with lastWord := some w } } :=
    fits_keeps b (s := s) (Frame.within (L := [.sensors]) ⟨rfl, rfl, le_rfl⟩) h
  unfold bindMessage
  generalize { s with watch := { s.watch with lastWord := some w } } = m at seen ⊢
  have bound := fun v => (fits_keeps b).of seen (frame_setBinding v m)
  dsimp only
  split
  · exact (fits_keeps b).of seen (frame_platReply _ _ m)
  · split
    · refine (fits_keeps b).of (M := [.plat, .buffer]) ?_ (frame_platReply _ _ _)
      split
      · exact bound _
      · exact fits_applyPending _ (bound _)
    · refine (fits_keeps b).of (M := [.plat, .buffer]) (fits_takeEvidence _ _ ?_) (frame_platReply _ _ _)
      split
      · exact fits_closeBound _ (bound _)
      · exact bound _

theorem fits_evidenceReplied (c : Code) (e : Evidence) (s : State) (h : Fits b s) :
    Fits b (platReply c .empty (takeEvidence e s)) :=
  (fits_keeps b).of (fits_takeEvidence e s h) (frame_platReply _ _ _)

theorem fits_checkinMessage (w : BindingWord) (s : State) (h : Fits b s) : Fits b (checkinMessage w s) := by
  have armed := (fits_keeps b).of ((fits_keeps b).of h (frame_arm s)) (frame_platReply .accepted .empty _)
  unfold checkinMessage
  dsimp only
  split
  · exact (fits_keeps b).of h (frame_platReply _ _ s)
  · exact (fits_keeps b).of h (frame_platReply _ _ s)
  · split
    · exact armed
    · exact fits_evidenceReplied _ _ s h
  · split
    · exact fits_evidenceReplied _ _ s h
    · split
      · exact fits_evidenceReplied _ _ s h
      · exact armed

theorem fits_sleepClose (r : Fin 16) (s : State) (h : Fits b s) : Fits b (sleepClose r s) := by
  unfold sleepClose
  split
  · dsimp only
    refine fits_orderlyClose r _ _ ?_
    split
    · exact fits_setMark r true h
    · exact h
  · exact h

theorem fits_sleepMessage (s : State) (h : Fits b s) : Fits b (sleepMessage s) := by
  have asleep : ∀ v, Fits b { s with watch := { s.watch with sleep := .asleep, supervision := v, checkin := 0 } } :=
    fun v => fits_keeps b (s := s) (Frame.within (L := [.sensors]) ⟨rfl, rfl, le_rfl⟩) h
  unfold sleepMessage
  split
  · exact (fits_keeps b).of h (frame_platReply _ _ s)
  · split
    · exact (fits_keeps b).of h (frame_platReply _ _ s)
    · exact (fits_keeps b).of ((fits_keeps b).of (keeps_foldl (f := fun s r => sleepClose r s)
        (fun s r => fits_sleepClose r s) (List.finRange 16) _ (asleep _)) (frame_modPlat _ _)) (frame_settleWaiters _)

theorem fits_wakeMessage (s : State) (h : Fits b s) : Fits b (wakeMessage s) := by
  have awake : Fits b { s with watch := { s.watch with sleep := .awake } } :=
    fits_keeps b (s := s) (Frame.within (L := [.sensors]) ⟨rfl, rfl, le_rfl⟩) h
  have one : ∀ (s : State) r, Fits b s → Fits b (wakeRange r s) := by
    intro s r h
    have marked := fits_setMark r false h
    unfold wakeRange
    split
    · dsimp only
      split
      · exact fits_autoOpenOrPend _ r _ marked
      · exact marked
    · exact h
  have pass : ∀ m, Fits b m → Fits b (platFinish .ok
      ((List.finRange 16).foldl (fun s r => wakeRange r s) m).store.touched
      ((List.finRange 16).foldl (fun s r => wakeRange r s) m)) := fun m hm =>
    (fits_keeps b).of (keeps_foldl one (List.finRange 16) m hm) (frame_platFinish _ _ _)
  unfold wakeMessage
  split
  · exact (fits_keeps b).of h (frame_platReply _ _ s)
  · refine pass _ ?_
    split
    · exact (fits_keeps b).of awake (frame_arm _)
    · exact awake

theorem fits_alertMessage (severity : Byte) (s : State) (h : Fits b s) : Fits b (alertMessage severity s) := by
  unfold alertMessage
  split
  · exact fits_evidenceReplied _ _ s h
  · exact (fits_keeps b).of h (frame_platReply _ _ s)

theorem fits_tokenDerived (key : CredKey) (s : State) (h : Fits b s) : Fits b (tokenDerived key s) := by
  unfold tokenDerived
  split
  · exact h
  · split
    · split
      · exact (fits_keeps b).of ((fits_keeps b).of h (frame_startErase _ s)) (frame_platFinish _ _ _)
      · exact (fits_keeps b).of (fits_takeEvidence _ s h) (frame_platFinish _ _ _)
    · exact h

theorem fits_bindingExpires (s : State) (h : Fits b s) : Fits b (bindingExpires s) := by
  have stopped : Fits b { s with watch := { s.watch with deadline := none } } :=
    fits_keeps b (s := s) (Frame.within (L := [.sensors]) ⟨rfl, rfl, le_rfl⟩) h
  have absent : ∀ p : Prop, [Decidable p] → ∀ m, Fits b m →
      Fits b (if p then takeEvidence .bindingAbsent (setBinding .absent m) else m) := by
    intro p _ m hm
    split
    · exact fits_takeEvidence _ _ ((fits_keeps b).of hm (frame_setBinding _ m))
    · exact hm
  have armed : ∀ m, Fits b m → Fits b (if m.watch.supervision = .waiting then arm m else m) := by
    intro m hm
    split
    · exact (fits_keeps b).of hm (frame_arm m)
    · exact hm
  unfold bindingExpires
  split
  · exact h
  · exact armed _ (absent _ _ stopped)

/-! ## The drive link -/

theorem fits_driveLinkReset (s : State) (h : Fits b s) : Fits b (driveLinkReset s) := by
  have orders := (fits_keeps b).of h (frame_resetOrders s)
  have tags := keeps_foldl (f := resetTag) (fun s t h => by
    unfold resetTag
    split
    · rename_i x hx
      exact fits_depart h hx rfl rfl rfl rfl rfl (fun _ => rfl) trivial
    · rename_i c e he
      exact fits_keeps b (s := freeTag t s) (Frame.within (L := [.units]) ⟨rfl, rfl, le_rfl⟩)
        (fits_freed h t fun y hy => by rw [he] at hy; cases hy)
    · rename_i x he
      exact fits_keeps b (s := freeTag t s) (Frame.within (L := [.units]) ⟨rfl, rfl, le_rfl⟩)
        (fits_freed h t fun y hy => by rw [he] at hy; cases hy)
    · exact h) (List.finRange 32) _ orders
  have emptied : ∀ m, Fits b m → Fits b { m with adm := { m.adm with hold := [] } } := fun m hm =>
    ⟨hm.1.congr rfl rfl (fun r hd hh => ⟨hd, hh, rfl, rfl⟩) rfl, fun hb => ⟨(fun g hg => nomatch hg), (hm.2 hb).2⟩⟩
  have entries : Fits b (resetEntries (resetOrders s)) := emptied _ tags
  have drains := keeps_foldl (f := fun s k => drainSlot k s) (fun s k => fits_drainSlot k s) (List.finRange 18) _ entries
  rw [driveLinkReset_eq]
  exact keeps_foldl (f := fun s r => closeIfDrained r s) (fun s r => fits_closeIfDrained r s) (List.finRange 16) _ drains

theorem fits_linkHello (s : State) (h : Fits b s) : Fits b (linkHello s) := by
  have up : ∀ m : State, Frame [.up] m { m with drive := { m.drive with up := true } } := fun _ => ⟨rfl, rfl, le_rfl⟩
  have reset : Fits b (if s.drive.up then driveLinkReset s else s) := by
    split
    · exact fits_driveLinkReset s h
    · exact h
  exact (fits_keeps b).of ((fits_keeps b).of ((fits_keeps b).of ((fits_keeps b).of reset (up _)) (frame_pushFrame _ _))
    (frame_chooseWindow _)) (frame_issueScrubs _)

theorem fits_takeFrame (c : Instr) (s : State) (h : Fits false s) : Fits false (takeFrame c s) := by
  unfold takeFrame
  split
  · exact fits_linkHello s h
  · split
    · unfold handFrame
      split
      · exact (fits_keeps false).of h (frame_pushFrame _ s)
      · exact slotsOk_takeDescriptor _ _ _ _ s h
      · exact (fits_keeps false).of h (frame_unitArrives _ _ _ s)
      · exact fits_stopTransfer _ s h
      · exact fits_orderDone _ _ s h
      · split
        · exact fits_takeRequest _ s h
        · exact h
    · exact h

/-! ## Work that waited -/

theorem fits_startScrub (s : State) (h : Fits b s) : Fits b (startScrub s) :=
  (fits_keeps b).of h (frame_startScrub s)

/-- The work that waited keeps the slots in order; step 2 of an erase does where step 1 has been made. -/
theorem fits_runCont (c : Cont) (hc : c = .eraseNext 2 → b = true) (s : State) (h : Fits b s) : Fits b (runCont c s) := by
  cases c with
  | eraseEntered => exact fits_eraseEntered s h
  | scrubHalf => exact (fits_keeps b).of h (frame_noticeSec _ s)
  | scrubEnd r => exact fits_finishErase r s h
  | rekeyWindow => exact (fits_keeps b).of h (frame_chooseWindow s)
  | rekeyClosing => exact fits_closingSteps s h
  | rekeyEnded r => exact fits_rekeyEnded r s h
  | eraseNext k =>
    simp only [runCont]
    rw [eraseNext_eq]
    split
    · exact eraseThen_keeps (fits_keeps b).mono fits_haltWork k s h
    · split
      · rename_i e
        subst e
        obtain rfl := hc rfl
        exact eraseThen_keeps (fits_keeps true).mono fits_zeroizeWork 2 s h
      · split
        · exact eraseThen_keeps (fits_keeps b).mono fits_destroyWork k s h
        · split
          · exact fits_startScrub s h
          · exact fits_finishErase _ s h

/-! ### After step 1 of an erase -/

/-- Refusing descriptors leaves what was not HELD as it was. -/
theorem refuseHeldWhere_not_held (p : Extent → Bool) (c : Code) (r : Option (Fin 16)) (l : List (Fin 32)) (s : State)
    (t : Fin 32) (h : ∀ c e, s.adm.table[t] ≠ .held c e) :
    ∀ k e, (l.foldl (fun s t =>
      match s.adm.table[t] with
      | .held _ e => if p e then refuseHeld c r t s else s
      | _ => s) s).adm.table[t] ≠ .held k e := by
  refine keeps_foldl (Inv := fun s => ∀ k e, s.adm.table[t] ≠ .held k e) (fun s u h => ?_) l s h
  split
  · split
    · intro k e
      have table : (refuseHeld c r u s).adm.table = s.adm.table.set u .free := by
        rw [refuseHeld, (frame_pushFrame _ _).table]
        rfl
      rw [table_set_get table]
      split
      · exact fun x => by cases x
      · exact h k e
    · exact h
  · exact h

/-- R56, R160: when every held descriptor has been refused none of the hold list is HELD. -/
theorem refuseAll_not_held (c : Code) (r : Option (Fin 16)) (s : State) :
    ∀ t ∈ s.adm.hold, ∀ k e, (refuseHeldWhere (fun _ => true) c r s).adm.table[t] ≠ .held k e := by
  have pass : ∀ (l : List (Fin 32)) (m : State), ∀ t ∈ l, ∀ k e, (l.foldl (fun s t =>
      match s.adm.table[t] with
      | .held _ e => if (fun _ => true) e then refuseHeld c r t s else s
      | _ => s) m).adm.table[t] ≠ .held k e := by
    intro l
    induction l with
    | nil => exact fun m t ht => by cases ht
    | cons u l ih =>
      intro m t ht
      rw [List.foldl_cons]
      by_cases hl : t ∈ l
      · exact ih _ t hl
      · obtain rfl : t = u := (List.mem_cons.mp ht).resolve_right hl
        refine refuseHeldWhere_not_held (fun _ => true) c r l _ t ?_
        split
        · intro k e
          have table : (refuseHeld c r t m).adm.table = m.adm.table.set t .free := by
            rw [refuseHeld, (frame_pushFrame _ _).table]
            rfl
          rw [if_pos rfl, table_set_get table, if_pos rfl]
          exact fun x => by cases x
        · rename_i none
          exact none
  exact pass s.adm.hold s

/-- Refusals put nothing into the hold list. -/
theorem refuseHeldWhere_hold (p : Extent → Bool) (c : Code) (r : Option (Fin 16)) (s : State) :
    ∀ t ∈ (refuseHeldWhere p c r s).adm.hold, t ∈ s.adm.hold := by
  refine keeps_foldl (Inv := fun m => ∀ t ∈ m.adm.hold, t ∈ s.adm.hold) (fun m u h => ?_) _ s fun t ht => ht
  split
  · split
    · intro t ht
      have hold : (refuseHeld c r u m).adm.hold = m.adm.hold.filter fun v => v != u := by
        rw [refuseHeld, (frame_pushFrame _ _).hold]
        rfl
      rw [hold] at ht
      exact h t (List.mem_filter.mp ht).1
    · exact h
  · exact h

/-- What an abort makes of the table. -/
theorem abortTag_table (t : Fin 32) (s : State) :
    (∃ x, s.adm.table[t] = .admitted x ∧ (abortTag t s).adm.table = s.adm.table.set t (.aborting x))
      ∨ (∀ x, s.adm.table[t] ≠ .admitted x) ∧ abortTag t s = s := by
  unfold abortTag
  split
  · rename_i x hx
    exact .inl ⟨x, hx, (frame_leaveAdmitted x _).table⟩
  · rename_i none
    exact .inr ⟨none, rfl⟩

/-- R51: what the aborts make of each entry. -/
theorem abortWhere_table (p : Entry → Bool) (s : State) (t : Fin 32) :
    (abortWhere p s).adm.table[t] = match s.adm.table[t] with
      | .admitted x => if p (.admitted x) then .aborting x else .admitted x
      | e => e := by
  have one : ∀ (m : State) (u : Fin 32), (if p m.adm.table[u] then abortTag u m else m).adm.table[t]
      = if t = u then (match m.adm.table[u] with
          | .admitted x => if p (.admitted x) then .aborting x else .admitted x
          | e => e) else m.adm.table[t] := by
    intro m u
    rcases abortTag_table u m with ⟨x, hx, table⟩ | ⟨none, same⟩
    · rw [hx]
      by_cases hp : p (.admitted x) = true
      · rw [if_pos hp, table_set_get table]
        simp [hp]
      · rw [if_neg hp]
        split
        · rename_i e
          rw [e, hx]
          simp [hp]
        · rfl
    · rw [same, ite_self]
      split
      · rename_i e
        subst e
        generalize m.adm.table[t] = v at none ⊢
        cases v with
        | admitted x => exact absurd rfl (none x)
        | _ => rfl
      · rfl
  have pass : ∀ (l : List (Fin 32)) (_ : l.Nodup) (m : State),
      (l.foldl (fun s t => if p s.adm.table[t] then abortTag t s else s) m).adm.table[t]
        = if t ∈ l then (match m.adm.table[t] with
            | .admitted x => if p (.admitted x) then .aborting x else .admitted x
            | e => e) else m.adm.table[t] := by
    intro l
    induction l with
    | nil => exact fun _ m => by simp
    | cons u l ih =>
      intro hl m
      obtain ⟨hu, hl⟩ := List.nodup_cons.mp hl
      rw [List.foldl_cons, ih hl, one]
      by_cases e : t = u
      · subst e
        simp [hu]
      · simp [e]
  exact (pass _ (List.nodup_finRange 32) s).trans (if_pos (List.mem_finRange t))

/-- R160: after step 1 of an erase nothing is ADMITTED, and no descriptor of the hold list is HELD. -/
theorem quiet_haltWork (s : State) : Quiet (haltWork s) := by
  have adm : (haltWork s).adm = (abortWhere (fun _ => true) (refuseHeldWhere (fun _ => true) .erasing none s)).adm := by
    have discarded := (frame_discardRekey (abortWhere (fun _ => true) (refuseHeldWhere (fun _ => true) .erasing none s))).adm
    unfold haltWork
    dsimp only
    generalize discardRekey _ = m at discarded ⊢
    split
    · exact discarded
    · exact discarded
  rw [Quiet, adm, (frame_abortWhere _ _).hold]
  constructor
  · intro g hg c e
    have := refuseAll_not_held .erasing none s g (refuseHeldWhere_hold _ _ _ s g hg)
    rw [abortWhere_table]
    generalize (refuseHeldWhere (fun _ => true) .erasing none s).adm.table[g] = v at this ⊢
    cases v with
    | held c' e' => exact absurd rfl (this c' e')
    | admitted x => exact fun x => by cases x
    | free => exact fun x => by cases x
    | aborting x => exact fun x => by cases x
  · intro g x
    rw [abortWhere_table]
    generalize (refuseHeldWhere (fun _ => true) .erasing none s).adm.table[g] = v
    cases v <;> exact fun x => by cases x

/-- What step 2 of an erase needs, wherever it waits. -/
def HaltMade (s : State) : Prop := Quiet s ∨ ∀ w ∈ s.store.waits, w.job ≠ .eraseNext 2

/-- Only step 1 makes step 2 wait, and after step 1 the part is quiet. -/
theorem haltMade_runCont (c : Cont) (s : State) (h : SlotsOk s) (hs : HaltMade s) (hc : c = .eraseNext 2 → Quiet s) :
    HaltMade (runCont c s) := by
  have quiet : Quiet s → HaltMade (runCont c s) := fun q => .inl ((fits_runCont c (fun _ => rfl) s ⟨h, fun _ => q⟩).2 rfl)
  rcases hs with q | idle
  · exact quiet q
  have same : ∀ t : State, t.store.waits = s.store.waits → HaltMade t := fun t e => .inr (by rw [e]; exact idle)
  have added : ∀ (ids : List Nat) (job : Cont) (t : State), job ≠ .eraseNext 2 → t.store.waits = s.store.waits →
      HaltMade (addWait ids job t) := by
    intro ids job t hj e
    refine .inr fun w hw => ?_
    rw [addWait_waits, e] at hw
    rcases List.mem_append.mp hw with hw | hw
    · exact idle w hw
    · obtain rfl := List.mem_singleton.mp hw
      exact hj
  cases c with
  | scrubHalf => exact same _ (frame_noticeSec _ s).waits
  | scrubEnd r => exact same _ (frame_finishErase r s).waits
  | rekeyWindow => exact same _ (frame_chooseWindow s).waits
  | rekeyClosing => exact same _ (frame_closingSteps s).waits
  | rekeyEnded r => exact same _ (frame_rekeyEnded r s).waits
  | eraseEntered =>
    have entered := frame_withTouched (frame_enterWatch { s.copies.watch with state := .erasing })
      { s with erase := { s.erase with starting := none } }
    have reached := frame_withTouched (L := [.cIncidents, .requests, .secQueue, .platQueue, .marks])
      fun s => (frame_addIncident (.eraseStep 0) s).andThen (frame_noticeBoth (.eraseStep 0) _)
    simp only [runCont]
    rw [eraseEntered_eq]
    dsimp only
    exact added _ _ _ (by decide) ((frame_platAnswerDue _).waits.trans ((reached _).waits.trans
      ((frame_eraseTold _ _).waits.trans entered.waits)))
  | eraseNext k =>
    simp only [runCont]
    rw [eraseNext_eq]
    split
    · exact .inl ((quiet_haltWork _).congr (eraseThen_adm k haltWork s))
    · split
      · rename_i e
        exact .inl ((eraseThen_keeps (fits_keeps true).mono fits_zeroizeWork k s ⟨h, fun _ => hc (by rw [e])⟩).2 rfl)
      · split
        · rename_i e
          refine .inr fun w hw => ?_
          rw [eraseThen_waits, (frame_destroyWork _).waits, eraseReached_waits] at hw
          rcases List.mem_append.mp hw with hw | hw
          · exact idle w hw
          · obtain rfl := List.mem_singleton.mp hw
            simp [e]
        · split
          · have reached := frame_withTouched (frame_reachStep 4) s
            unfold startScrub
            dsimp only
            split
            · split
              · exact added _ _ _ (by simp) reached.waits
              · exact same _ ((frame_issueScrubs _).waits.trans reached.waits)
            · exact same _ reached.waits
          · exact same _ (frame_finishErase _ s).waits

theorem fits_secDue (s : State) (h : Fits b s) : Fits b (secDue s) := by
  unfold secDue
  split
  · split
    · split
      · exact (fits_keeps b).of h (frame_chargeWritten _ s)
      · rename_i p _
        have changed : Fits b { s with copies := { s.copies with policy := p } } :=
          fits_keeps b (s := s) (Frame.within (L := [.cPolicy]) ⟨rfl, rfl, le_rfl⟩) h
        exact (fits_keeps b).of (fits_decayExpires _ (fits_checkinExpires _ (fits_evaluate _ _ changed)))
          (frame_secFinish _ _ _)
      · exact (fits_keeps b).of (fits_enterWatch _ s h) (frame_secFinish _ _ _)
      · exact (fits_keeps b).of h (frame_secAnswerDue s)
      · exact h
    · exact h
  · exact h

/-- R184: the completion of a write, and what waited for it. -/
theorem fits_storeCompletes (s : State) (h : Fits false s) (hm : HaltMade s) : Fits false (storeCompletes s) := by
  unfold storeCompletes
  split
  · exact h
  · have halt : HaltMade (completeWrite s) := by
      rcases hm with q | none
      · exact .inl (q.congr (frame_completeWrite s).adm)
      · unfold completeWrite
        split
        · exact .inr none
        · refine .inr fun w hw => ?_
          obtain ⟨v, hv, rfl⟩ := List.mem_map.mp hw
          exact none v hv
    have work := runReady_induct (Inv := fun s => SlotsOk s ∧ HaltMade s) (p := fun c => !isWindow c)
      (fun c w rest m _ hw hj hr hs => by
        have taken : SlotsOk { m with store := { m.store with waits := rest } } :=
          hs.1.congr rfl rfl (fun r hd hh => ⟨hd, hh, rfl, rfl⟩) rfl
        have quiet : c = .eraseNext 2 → Quiet { m with store := { m.store with waits := rest } } := by
          rintro rfl
          exact hs.2.resolve_right fun none => none w hw hj
        refine ⟨?_, haltMade_runCont c _ taken (hs.2.imp (fun q => q) fun none v hv => none v (hr v hv)) quiet⟩
        by_cases e : c = .eraseNext 2
        · exact (fits_runCont (b := true) c (fun _ => rfl) _ ⟨taken, fun _ => quiet e⟩).1
        · exact (fits_runCont (b := false) c (fun x => absurd x e) _ ⟨taken, fun x => by cases x⟩).1)
      (completeWrite s).store.waits.length (completeWrite s) ⟨((fits_keeps false).of h (frame_completeWrite s)).1, halt⟩
    have worked : Fits false _ := ⟨work.1, fun x => by cases x⟩
    refine runReady_keeps (p := isWindow) (fits_keeps false).mono (fun c m hc hm => ?_) _ _
      ((fits_keeps false).of (fits_secDue _ worked) (frame_platAnswerDue _))
    obtain rfl : c = .rekeyWindow := by simpa [isWindow] using hc
    exact (fits_keeps false).of hm (frame_chooseWindow m)

/-! ## A cold start -/

/-- No range holds anything where none does and nothing opens. -/
theorem fits_deriveStates (damage : List Damage) (s : State) (h : Fits b s) : Fits b (deriveStates damage s) := by
  have runs := keeps_foldl (f := fun s r => setRun r (if s.copies.ranges[r].erased then .erased else .locked) s)
    (fun s r h => h.of_slotsOk (h.1.unheld r (by split <;> rfl)) rfl) (List.finRange 16) s h
  have fits := fun p => (fits_keeps b).of ((fits_keeps b).of runs (frame_reconcileRekey _)) (frame_removeWraps p _)
  exact (fits_keeps b).of ((fits_keeps b).of (fits _) (frame_disableLoaded _))
    (Frame.foldl (f := fun s d => addIncident (damageKind d) s) (fun s d => frame_addIncident (damageKind d) s)
      (damageOrder damage) _)

theorem fits_resumeErase (s : State) (h : Fits true s) : Fits true (resumeErase s) := by
  have entered := fun w => fits_enterWatch w s h
  have erasing : ∀ w : WatchRec, Fits true (if s.copies.watch.state = .erasing then s else enterWatch w s) := by
    intro w
    split
    · exact h
    · exact entered w
  unfold resumeErase
  split
  · exact h
  · split
    · split
      · exact h
      · exact entered _
    · dsimp only
      split
      · exact fits_startScrub _ (erasing _)
      · exact fits_runCont (.eraseNext 3) (fun x => by cases x) _ (fits_haltWork _ (erasing _))

theorem fits_evaluateLoaded (s : State) (h : Fits b s) : Fits b (evaluateLoaded s) := by
  unfold evaluateLoaded
  split
  · exact fits_evaluate false s h
  · exact h

theorem fits_autoOpenAll (s : State) (h : Fits b s) : Fits b (autoOpenAll s) := by
  unfold autoOpenAll
  split
  · exact keeps_foldl (fun s r => fits_autoOpenOrPend _ r s) _ s h
  · exact h

/-- R187, step 1: nothing is admitted, no slot is in use and no range is open. -/
theorem fits_powerUp (nv : Records) (s : State) : Fits true (powerUp nv s) := by
  have free : ∀ (g : Fin 32), (powerUp nv s).adm.table[g] = .free := fun g => by simp [powerUp]
  have none : ∀ (g : Fin 32) x, (powerUp nv s).adm.table[g] ≠ .admitted x := fun g x h => by
    rw [free g] at h
    cases h
  refine ⟨(slotsOk_iff _).mpr ⟨fun k => ?_, fun r hd hh => ?_, fun g => by rw [free g]; trivial⟩, fun _ => ⟨?_, none⟩⟩
  · rw [pinsOn_zero none]
    simp [powerUp, slotPins]
  · simp [powerUp, heldBy] at hh
  · intro g hg
    cases hg

theorem fits_startUp (damage : List Damage) (levels : BitVec 4) (s : State) (h : Fits true s) :
    Fits true (startUp damage levels s).state :=
  startUp_keeps (fits_keeps true).mono (fun s h => (fits_keeps true).of h (frame_loadRecords damage s))
    (fits_deriveStates damage) fits_resumeErase fits_evaluateLoaded (fun s h => (fits_keeps true).of h (frame_exhaust s))
    fits_autoOpenAll (fun c s => fits_runCont c (fun _ => rfl) s) s h

theorem fits_coldStart (damage : List Damage) (levels : BitVec 4) (cut : Option Nat) (s : State) :
    Fits true (coldStart damage levels cut s) := by
  unfold coldStart
  dsimp only
  split
  · exact fits_startUp damage levels _ (fits_powerUp _ s)
  · exact fits_powerUp _ _

/-! ## O15 -/

theorem fits_tick (s : State) (h : Fits false s) : Fits false (tick s) := by
  have closes := keeps_foldl (f := fun s r => setRun r (tickRun s.ranges[r].run) s) (fun s r h => by
    refine fits_setRun r h fun g hg => ⟨g, ?_, rfl, rfl⟩
    generalize s.ranges[r].run = run at hg ⊢
    cases run <;> exact hg) (List.finRange 16) s h
  have downs := keeps_foldl (f := fun s n => setHoldDown n (countDown s.watch.holdDowns[n]) s) (fun s n h =>
    fits_keeps false (s := s) (Frame.within (L := [.sensors]) ⟨rfl, rfl, le_rfl⟩) h) (List.finRange 4) _ closes
  unfold tick
  split
  · exact h
  · exact fits_keeps false (s := tickHoldDowns (tickCloses s)) (Frame.within
      (L := [.uptime, .holdoff, .order, .orders, .sensors, .decay]) ⟨rfl, rfl, le_rfl⟩) downs

theorem fits_scrubExpires (num : Nat) (s : State) (h : Fits b s) : Fits b (scrubExpires num s) := by
  unfold scrubExpires
  split
  · split
    · exact fits_scrubCompletes _ _ s h
    · exact h
  · exact h

theorem fits_edge (n : Fin 4) (level : Bool) (s : State) (h : Fits b s) :
    Fits b (if s.phase = .running then takeEdge n level s else s) := by
  split
  · exact fits_takeEdge n level s h
  · exact h

theorem fits_effect (c : Instr) (s : State) (h : Fits false s) (hm : HaltMade s) : Fits false (effect c s) := by
  have quiet : Keeps (Fits false) [.inbound, .requests] := (fits_keeps false).mono
  have message : ∀ {m : Instr} {x : Bool} {f : State → State}, (∀ s, Fits false s → Fits false (f s)) →
      Fits false (writeTransaction m x f s) := fun hf => writeTransaction_keeps (fits_keeps false).mono _ _ hf s h
  have framed : ∀ {m : Instr} {x : Bool} {f : State → State} {M : List Field} (_ : ∀ s, Frame M s (f s))
      (_ : M ⊆ slotFields := by decide +kernel), Fits false (writeTransaction m x f s) :=
    fun hf hM => message fun s h => (fits_keeps false).of h (hf s) hM
  cases c
  case linkResetIndication => exact resetIndication_keeps quiet fits_takeFrame fits_driveLinkReset s h
  case migrationOrderDeadlineExpiry => exact (fits_keeps false).of h (frame_migrationExpires s)
  case migrateOrderSend => exact (fits_keeps false).of h (frame_sendMigrateOrder s)
  case scrubOrderDeadlineExpiry num =>
    exact fits_scrubExpires num s h
  case derivationComplete =>
    exact derivationEnds_keeps (fits_keeps false).mono fits_secDerived fits_tokenDerived s h
  case storeWriteComplete => exact fits_storeCompletes s h hm
  case closeComplete r => exact fits_closeIfDrained r s h
  case closeDeadlineExpiry r => exact fits_closeExpires r s h
  case slotDrainComplete k => exact fits_drainSlot k s h
  case holdoffExpiry => exact (fits_keeps false).of h (frame_holdoffExpires s)
  case bindingDeadlineExpiry => exact fits_bindingExpires s h
  case checkinTimerExpiry => exact fits_checkinExpires s h
  case watchLineEdge n level => exact fits_edge n level s h
  case holdDownExpiry n => exact (fits_keeps false).of (M := [.sensors]) h (.ite ⟨rfl, rfl, le_rfl⟩ (.refl _ s))
  case bind w => exact message (fits_bindMessage w)
  case checkin w => exact message (fits_checkinMessage w)
  case sleep => exact message fits_sleepMessage
  case wake => exact message fits_wakeMessage
  case alert severity => exact message (fits_alertMessage severity)
  case remoteErase token => exact framed (frame_remoteEraseMessage token)
  case platformFetch => exact framed frame_fetchMessage
  case platformSetMask m => exact framed (frame_platMaskMessage m)
  case platformMalformedMessage kind => exact framed (M := []) (fun s => .refl _ s)
  case platformRead => exact (fits_keeps false).of h (frame_readTransaction s)
  case platformLinkReset => exact (fits_keeps false).of h (frame_platformReset s)
  case decayTimerExpiry => exact fits_decayExpires s h
  case outboundFrameSent => exact (fits_keeps false).of h (frame_frameLeaves s)
  all_goals exact arrive_keeps quiet fits_takeFrame _ s h

/-- Settles O15: the rules of a range's change and an entry's change, operation by operation; step 2 of an erase, which empties
every slot, finds nothing ADMITTED, for only step 1 makes it wait. -/
theorem slotsHoldTheirPins : Obligations.SlotsHoldTheirPins := by
  intro s h hw
  have fits : Fits false s := ⟨h, fun x => by cases x⟩
  have made : HaltMade s := by
    by_cases e : ∃ w ∈ s.store.waits, w.job = .eraseNext 2
    · obtain ⟨w, hm, hj⟩ := e
      obtain ⟨hold, none⟩ := hw w hm hj
      exact .inl ⟨(fun g hg => by rw [hold] at hg; cases hg), none⟩
    · exact .inr fun w hm hj => e ⟨w, hm, hj⟩
  unfold step
  split
  · exact ⟨(fun f hf => nomatch hf), fun t ht => by cases ht; exact (fits_tick s fits).1⟩
  · rename_i c rest _
    have cleared : Fits false (clearTouched { s with pending := rest }) := ⟨h, fun x => by cases x⟩
    constructor
    · intro f hf
      by_cases hu : c = .cipherUnitTake
      · subst hu
        have some_unit := takeUnit_isSome cleared.1
        simp only [exec, execCipherUnitTake] at hf
        split at hf
        · cases hf
        · rename_i none
          rw [none] at some_unit
          cases some_unit
      · by_cases hc : ∃ d l n, c = .coldStart d l n
        · obtain ⟨d, l, n, rfl⟩ := hc
          cases hf
        · rw [exec_eq_event (fun d l n e => hc ⟨d, l, n, e⟩) hu] at hf
          cases hf
    · intro t ht
      rcases exec_cases ht with ⟨d, l, n, -, rfl⟩ | ⟨-, u, hu, rfl⟩ | ⟨-, rfl⟩
      · exact ((fits_keeps true).of (fits_coldStart d l n _) (frame_clearTouched _)).1
      · exact ((fits_keeps false).of (drainInbound_keeps (fits_keeps false).mono fits_takeFrame _
          (slotsOk_takeUnit cleared hu)) (frame_clearTouched _)).1
      · exact ((fits_keeps false).of (fits_effect c _ cleared made) (frame_clearTouched _)).1

end Sys2Proof.Machine
end


-- ==== Sys2Proof/Proofs/Seconds.lean ====
section
/-! PROOF. What a second of uptime does to each range and each hold-down timer: O2. -/

-- As in the tests: each theorem that waits for the kernel in parallel would keep a thread.
set_option Elab.async false

namespace Sys2Proof.Machine

/-- A pass over the ranges that counts each close deadline down meets each range once. -/
theorem tickCloses_over (l : List (Fin 16)) (hl : l.Nodup) (s : State) (q : Fin 16) :
    (l.foldl (fun s r => setRun r (tickRun s.ranges[r].run) s) s).ranges[q]
      = if q ∈ l then ⟨tickRun s.ranges[q].run, s.ranges[q].sleepMark⟩ else s.ranges[q] := by
  induction l generalizing s with
  | nil => rfl
  | cons r l ih =>
    obtain ⟨fresh, hl⟩ := List.nodup_cons.mp hl
    rw [List.foldl_cons, ih hl]
    by_cases hq : q = r
    · subst hq; simp [fresh]
    · have other : (setRun r (tickRun s.ranges[r].run) s).ranges[q] = s.ranges[q] := by
        rw [ranges_set_get (t := setRun r _ s) rfl q, if_neg hq]
      rw [other]
      simp [hq]

theorem tickCloses_ranges (s : State) (q : Fin 16) :
    (tickCloses s).ranges[q] = ⟨tickRun s.ranges[q].run, s.ranges[q].sleepMark⟩ := by
  unfold tickCloses
  rw [tickCloses_over _ (List.nodup_finRange 16)]
  simp

/-- A pass over the hold-down timers meets each once, and changes nothing else. -/
theorem tickHoldDowns_over (l : List (Fin 4)) (hl : l.Nodup) (s : State) :
    ∃ v, l.foldl (fun s n => setHoldDown n (countDown s.watch.holdDowns[n]) s) s
        = { s with watch := { s.watch with holdDowns := v } }
      ∧ ∀ n : Fin 4, v[n] = if n ∈ l then s.watch.holdDowns[n].map (· - 1) else s.watch.holdDowns[n] := by
  induction l generalizing s with
  | nil => exact ⟨_, rfl, fun n => rfl⟩
  | cons r l ih =>
    obtain ⟨fresh, hl⟩ := List.nodup_cons.mp hl
    obtain ⟨v, hv, each⟩ := ih hl (setHoldDown r (countDown s.watch.holdDowns[r]) s)
    refine ⟨v, hv, fun n => ?_⟩
    by_cases hn : n = r
    · subst hn; simp [each, fresh, setHoldDown, countDown]
    · simp [each, hn, setHoldDown, Fin.val_inj, Ne.symm hn]

theorem tickCloses_rest (s : State) : tickCloses s = { s with ranges := (tickCloses s).ranges } := by
  have pass : ∀ (l : List (Fin 16)) (s : State),
      ∃ v, l.foldl (fun s r => setRun r (tickRun s.ranges[r].run) s) s = { s with ranges := v } := by
    intro l
    induction l with
    | nil => exact fun s => ⟨_, rfl⟩
    | cons r l ih => exact fun s => ih (setRun r (tickRun s.ranges[r].run) s)
  obtain ⟨v, hv⟩ := pass (List.finRange 16) s
  rw [tickCloses, hv]

theorem tickHoldDowns_eq (s : State) : ∃ v, tickHoldDowns s = { s with watch := { s.watch with holdDowns := v } }
    ∧ ∀ n : Fin 4, v[n] = s.watch.holdDowns[n].map (· - 1) := by
  obtain ⟨v, hv, each⟩ := tickHoldDowns_over _ (List.nodup_finRange 4) s
  exact ⟨v, hv, fun n => by rw [each, if_pos (List.mem_finRange n)]⟩

/-- Once start-up has passed its step 2, a second moves the running timers as R189 and the rules it names say. -/
theorem tick_eq {s : State} (h : s.phase ≠ .starting) : ∃ v,
    tick s = { s with
      uptime := s.uptime + 1
      ranges := (tickCloses s).ranges
      cred := { s.cred with holdoff := s.cred.holdoff.map (· - 1) }
      rekey := { s.rekey with order := s.rekey.order.map fun o => { o with deadline := o.deadline - 1 } }
      erase := { s.erase with orders := s.erase.orders.map fun o => { o with deadline := o.deadline - 1 } }
      watch := { s.watch with
        deadline := s.watch.deadline.map (· - 1)
        checkin := if s.watch.supervision = .armed then s.watch.checkin + 1 else s.watch.checkin
        decay := s.watch.decay.map (· + 1)
        holdDowns := v } }
      ∧ ∀ n : Fin 4, v[n] = s.watch.holdDowns[n].map (· - 1) := by
  obtain ⟨v, hv, each⟩ := tickHoldDowns_eq (tickCloses s)
  have rest := tickCloses_rest s
  refine ⟨v, ?_, fun n => ?_⟩
  · rw [tick, if_neg h, hv]
    generalize (tickCloses s).ranges = ranges at rest ⊢
    rw [rest]
    rfl
  · rw [each, rest]

/-- Settles O2: the two passes meet each range and each timer once, and the rest of the second is one record update. -/
theorem idleStepPassesOneSecond : Obligations.IdleStepPassesOneSecond := by
  intro s hq
  have stepped : step s = .next (tick s) := by unfold step; rw [hq]
  rw [stepped]
  refine ⟨fun h => by rw [tick, if_pos h], fun h => ⟨_, rfl, ?_⟩⟩
  obtain ⟨v, ticked, each⟩ := tick_eq h
  rw [ticked]
  exact ⟨rfl, fun r => (tickCloses_ranges s r).trans (by cases s.ranges[r].run <;> rfl), each⟩

end Sys2Proof.Machine
end


-- ==== Sys2Proof/Proofs/WrapTable.lean ====
section
/-! PROOF. What the operations on the wrap table leave in each record (R15 to R17), and that a write once asked for stays
noted. -/

-- As in the tests: each theorem that waits for the kernel in parallel would keep a thread.
set_option Elab.async false

namespace Sys2Proof.Machine

/-! ## The working copies after a write -/

theorem putRange_copies (r : Fin 16) (v : RangeRec) (s : State) :
    (putRange r v s).copies = { s.copies with ranges := s.copies.ranges.set r v } := rfl

theorem putCred_copies (c : Fin 8) (v : CredRec) (s : State) :
    (putCred c v s).copies = { s.copies with creds := s.copies.creds.set c v } := rfl

theorem putWrap_copies (k : Fin 64) (v : Option WrapEntry) (s : State) :
    (putWrap k v s).copies = { s.copies with wraps := s.copies.wraps.set k v } := rfl

/-! ## Finding entries -/

theorem isEntryOf_iff (who : Holder) (r : Fin 16) (e : Option WrapEntry) :
    isEntryOf who r e = true ↔ ∃ x, e = some x ∧ x.holder = who ∧ x.range = r := by
  cases e <;> simp [isEntryOf]

theorem findWrap_some {who : Holder} {r : Fin 16} {recs : Records} {k : Fin 64} (h : findWrap who r recs = some k) :
    ∃ e, recs.wraps[k] = some e ∧ e.holder = who ∧ e.range = r :=
  (isEntryOf_iff who r _).mp (List.find?_some (p := fun k : Fin 64 => isEntryOf who r recs.wraps[k]) h)

theorem findWrap_none {who : Holder} {r : Fin 16} {recs : Records} :
    findWrap who r recs = none ↔ ∀ (k : Fin 64) e, recs.wraps[k] = some e → ¬(e.holder = who ∧ e.range = r) := by
  simp only [findWrap, List.find?_eq_none, List.mem_finRange, true_imp_iff, isEntryOf_iff, not_exists]
  exact ⟨fun h k e he hx => h k e ⟨he, hx⟩, fun h k e he => h k e he.1 he.2⟩

/-- A search of a whole table ends at a record with the property if there is one. -/
theorem freeWrap_some {recs : Records} {k : Fin 64} (h : freeWrap recs = some k) : recs.wraps[k] = none :=
  Option.isNone_iff_eq_none.mp (List.find?_some (p := fun k : Fin 64 => recs.wraps[k].isNone) h)

theorem freeWrap_eq_none (recs : Records) : freeWrap recs = none ↔ 64 ≤ wrapCount recs := by
  have all : freeWrap recs = none ↔ ∀ k : Fin 64, recs.wraps[k].isSome = true := by
    simp only [freeWrap, List.find?_eq_none, List.mem_finRange, true_imp_iff, Option.isNone_iff_eq_none,
      Option.isSome_iff_ne_none, ne_eq]
  have len : (List.finRange 64).length = 64 := List.length_finRange
  rw [all, wrapCount]
  constructor
  · intro h
    rw [List.filter_eq_self.mpr fun k _ => h k, len]
  · intro h k
    have whole := (List.filter_sublist (p := fun k : Fin 64 => recs.wraps[k].isSome) (l := List.finRange 64)).eq_of_length_le
      (len.trans_le h)
    exact List.filter_eq_self.mp whole k (List.mem_finRange k)

/-! ## Stale entries -/

/-- The table holds no stale entry (R15). -/
def NoneStale (recs : Records) : Prop := ∀ (i : Fin 64) x, recs.wraps[i] = some x → isStale recs x = false

theorem purgeStale_eq_self {s : State} (h : NoneStale s.copies) (who : Holder) (r : Fin 16) : purgeStale who r s = s := by
  unfold purgeStale
  split
  · split
    · rename_i e he
      rw [h _ e he]
      rfl
    · rfl
  · rfl

theorem purgeStale_of_none {who : Holder} {r : Fin 16} {s : State} (h : findWrap who r s.copies = none) :
    purgeStale who r s = s := by
  unfold purgeStale
  rw [h]

/-! ## Removal -/

/-- R17: one record of a removal. -/
def removeOne (p : WrapEntry → Bool) (s : State) (k : Fin 64) : State :=
  if s.copies.wraps[k].any p then putWrap k none s else s

theorem removeWraps_eq (p : WrapEntry → Bool) (s : State) : removeWraps p s = (List.finRange 64).foldl (removeOne p) s := by
  unfold removeWraps
  congr 1
  funext s k
  unfold removeOne
  cases s.copies.wraps[k] <;> rfl

theorem putWrap_wraps (k i : Fin 64) (e : Option WrapEntry) (s : State) :
    (putWrap k e s).copies.wraps[i] = if i = k then e else s.copies.wraps[i] := by
  have set : (putWrap k e s).copies.wraps = s.copies.wraps.set k e := rfl
  by_cases h : i = k
  · subst h; simp [set]
  · have : (k : Nat) ≠ i := fun x => h (Fin.ext x.symm)
    simp [set, h, this]

theorem removeOne_wraps (p : WrapEntry → Bool) (s : State) (k i : Fin 64) :
    (removeOne p s k).copies.wraps[i] = if i = k ∧ s.copies.wraps[i].any p = true then none else s.copies.wraps[i] := by
  unfold removeOne
  by_cases hi : i = k
  · subst hi
    split
    · rename_i h
      rw [putWrap_wraps, if_pos rfl, if_pos ⟨rfl, h⟩]
    · rename_i h
      exact (if_neg fun x => h x.2).symm
  · rw [if_neg (show ¬(i = k ∧ s.copies.wraps[i].any p = true) from fun x => hi x.1)]
    split
    · rw [putWrap_wraps, if_neg hi]
    · rfl

theorem removeOne_over (p : WrapEntry → Bool) (l : List (Fin 64)) (s : State) (i : Fin 64) :
    (l.foldl (removeOne p) s).copies.wraps[i]
      = if i ∈ l ∧ s.copies.wraps[i].any p = true then none else s.copies.wraps[i] := by
  induction l generalizing s with
  | nil => simp
  | cons k l ih =>
    rw [List.foldl_cons, ih, removeOne_wraps]
    generalize s.copies.wraps[i] = e
    by_cases hi : i = k
    · subst hi
      cases h : e.any p <;> simp [h]
    · simp [hi]

/-- R17: a removal empties exactly the records whose entries it names. -/
theorem removeWraps_wraps (p : WrapEntry → Bool) (s : State) (i : Fin 64) :
    (removeWraps p s).copies.wraps[i] = if s.copies.wraps[i].any p = true then none else s.copies.wraps[i] := by
  rw [removeWraps_eq, removeOne_over]
  simp [List.mem_finRange]

theorem removeHolder_over (who : Holder) (l : List (Fin 16)) (s : State) (i : Fin 64) :
    (l.foldl (fun s r => removeWraps (fun e => decide (e.holder = who) && decide (e.range = r)) s) s).copies.wraps[i]
      = if s.copies.wraps[i].any (fun e => decide (e.holder = who) && decide (e.range ∈ l)) = true then none
        else s.copies.wraps[i] := by
  induction l generalizing s with
  | nil =>
    rw [List.foldl_nil]
    generalize s.copies.wraps[i] = e
    cases e <;> simp
  | cons r l ih =>
    rw [List.foldl_cons, ih, removeWraps_wraps]
    generalize s.copies.wraps[i] = x
    cases x with
    | none => simp
    | some e => by_cases hw : e.holder = who <;> by_cases hr : e.range = r <;> simp [hw, hr]

theorem removeHolderWraps_wraps (who : Holder) (s : State) (i : Fin 64) :
    (removeHolderWraps who s).copies.wraps[i]
      = if s.copies.wraps[i].any (fun e => decide (e.holder = who)) = true then none else s.copies.wraps[i] := by
  rw [removeHolderWraps, removeHolder_over]
  simp [List.mem_finRange]

theorem frame_removeEntry (who : Holder) (r : Fin 16) (s : State) : Frame wrapFields s (removeEntry who r s) :=
  frame_removeWraps _ s

theorem removeEntry_wraps (who : Holder) (r : Fin 16) (s : State) (i : Fin 64) :
    (removeEntry who r s).copies.wraps[i]
      = if s.copies.wraps[i].any (fun e => decide (e.holder = who ∧ e.range = r)) = true then none
        else s.copies.wraps[i] := by
  simp only [removeEntry, Bool.decide_and]
  rw [removeWraps_wraps]

/-! ## Adding an entry -/

section Added

variable {who : Holder} {under : WrapUnder} {r : Fin 16} {a : Access} {key : Key} {s : State}

theorem addWrap_replaces (h : NoneStale s.copies) {k : Fin 64} {e : WrapEntry} (hk : findWrap who r s.copies = some k)
    (he : s.copies.wraps[k] = some e) :
    addWrap who under r a key s = (.replaced, putWrap k (some { e with access := a }) s) := by
  unfold addWrap
  simp only [purgeStale_eq_self h, hk, he]

theorem addWrap_creates {k : Fin 64} (hn : findWrap who r s.copies = none) (hk : freeWrap s.copies = some k) :
    addWrap who under r a key s = (.created, putWrap k (some ⟨who, r, a, s.copies.ranges[r].salt, ⟨key, under⟩⟩) s) := by
  unfold addWrap
  simp only [purgeStale_of_none hn, hn, hk]

theorem addWrap_full (hn : findWrap who r s.copies = none) (hk : freeWrap s.copies = none) :
    addWrap who under r a key s = (.tableFull, s) := by
  unfold addWrap
  simp only [purgeStale_of_none hn, hn, hk]

/-- The entry that `addWrap` makes or changes. -/
theorem addWrap_cases (h : NoneStale s.copies) :
    (∃ k e, findWrap who r s.copies = some k ∧ s.copies.wraps[k] = some e
      ∧ addWrap who under r a key s = (.replaced, putWrap k (some { e with access := a }) s))
    ∨ (∃ k, findWrap who r s.copies = none ∧ freeWrap s.copies = some k
      ∧ addWrap who under r a key s
        = (.created, putWrap k (some ⟨who, r, a, s.copies.ranges[r].salt, ⟨key, under⟩⟩) s))
    ∨ (findWrap who r s.copies = none ∧ freeWrap s.copies = none ∧ addWrap who under r a key s = (.tableFull, s)) := by
  cases hk : findWrap who r s.copies with
  | some k =>
    obtain ⟨e, he, -⟩ := findWrap_some hk
    exact .inl ⟨k, e, rfl, he, addWrap_replaces h hk he⟩
  | none =>
    cases hf : freeWrap s.copies with
    | some k => exact .inr (.inl ⟨k, rfl, rfl, addWrap_creates hk hf⟩)
    | none => exact .inr (.inr ⟨rfl, rfl, addWrap_full hk hf⟩)

end Added

/-! ## Writes asked for -/

/-- The command has asked for a write. -/
def Noted (s : State) : Prop := s.store.touched ≠ []

theorem noted_keeps : Keeps Noted (allFields.filter (· ≠ .requests)) := by
  intro s t f h
  have : t.store.touched = s.store.touched := by
    rw [← f.eq]
    simp only [overlay, if_neg (show Field.requests ∉ allFields.filter (· ≠ .requests) by decide +kernel)]
  rwa [Noted, this]

theorem noted_requestWrite (b : Block) (w : RecWrite) (st : Store) : (requestWrite b w st).touched ≠ [] := by
  rcases requestWrite_touched b w st with ⟨id, h⟩
  simp [h]

theorem noted_putBy (b : Block) (w : RecWrite) (s : State) : Noted (putBy b w s) := noted_requestWrite _ _ _

theorem noted_put (w : RecWrite) (s : State) : Noted (put w s) := noted_requestWrite _ _ _

theorem noted_purgeStale (who : Holder) (r : Fin 16) (s : State) (h : Noted s) : Noted (purgeStale who r s) := by
  unfold purgeStale
  split
  · split
    · split
      · exact noted_put _ s
      · exact h
    · exact h
  · exact h

theorem noted_removeWraps (p : WrapEntry → Bool) (s : State) (h : Noted s) : Noted (removeWraps p s) := by
  rw [removeWraps_eq]
  refine keeps_foldl (fun s k hs => ?_) _ s h
  unfold removeOne
  split
  · exact noted_put _ s
  · exact hs

theorem noted_removeEntry (who : Holder) (r : Fin 16) (s : State) (h : Noted s) : Noted (removeEntry who r s) :=
  noted_removeWraps _ s h

theorem noted_removeHolderWraps (who : Holder) (s : State) (h : Noted s) : Noted (removeHolderWraps who s) :=
  keeps_foldl (f := fun s _ => removeWraps _ s) (fun s _ hs => noted_removeWraps _ s hs) _ s h

theorem noted_addWrap (who : Holder) (under : WrapUnder) (r : Fin 16) (a : Access) (key : Key) (s : State) (h : Noted s) :
    Noted (addWrap who under r a key s).2 := by
  have purged := noted_purgeStale who r s h
  unfold addWrap
  dsimp only
  split
  · split
    · exact noted_put _ _
    · exact purged
  · split
    · exact noted_put _ _
    · exact purged

theorem noted_ownerEntries (c : Fin 8) (under : CredKey) (r : Fin 16) (key : Key) (s : State) (h : Noted s) :
    Noted (ownerEntries c under r key s) := by
  unfold ownerEntries
  have owned := noted_addWrap (.slot c) (.cred under) r .full key s h
  generalize (addWrap (.slot c) (.cred under) r .full key s).2 = m at owned ⊢
  dsimp only
  split
  · exact noted_addWrap _ _ _ _ _ m owned
  · exact owned

end Sys2Proof.Machine
end


-- ==== Sys2Proof/Proofs/Verdicts.lean ====
section
/-! PROOF. A test that succeeds while the watch is at rest (R69): the state its request's own effect begins in, and the
answer that then waits for the writes; the requests that touch no range by themselves: O38, O39. -/

-- As in the tests: each theorem that waits for the kernel in parallel would keep a thread.
set_option Elab.async false

namespace Sys2Proof.Machine

/-! ## Frames of working copies and store -/

/-- The working copies and the store. -/
abbrev recordParts : List Field :=
  [.cFactory, .cRanges, .cCreds, .cWraps, .cCharged, .cPolicy, .cDigest, .cToken, .cWatch, .cRekey, .cJournal, .cIncidents,
    .cBoot, .nv, .requests, .waits]

theorem Frame.records {s t : State} (f : Frame recordParts s t) : t = { s with copies := t.copies, store := t.store } := by
  conv_lhs => rw [← f.eq]
  simp [overlay, recordParts]

theorem Frame.store {L : List Field} {s t : State} (h : Frame L s t)
    (hf : ∀ f ∈ ([.nv, .requests, .waits] : List Field), f ∉ L := by decide +kernel) : t.store = s.store := by
  simp only [List.forall_mem_cons] at hf
  rw [← h.eq]
  simp only [overlay, hf, if_false]

theorem Frame.wrapsOnly {s t : State} (f : Frame wrapFields s t) : t.copies = { s.copies with wraps := t.copies.wraps } := by
  conv_lhs => rw [← f.eq]
  simp [overlay, wrapFields]

theorem Frame.wraps_of {s t : State} (f : Frame wrapFields s t) {recs : Records} (h : recs = t.copies) :
    recs.wraps = t.copies.wraps ∧ recs = { s.copies with wraps := recs.wraps } := by
  subst h
  exact ⟨rfl, f.wrapsOnly⟩

theorem putCred_after_wraps {s t : State} (f : Frame wrapFields s t) {c : Fin 8} {v : CredRec} {recs : Records}
    (h : recs = (putCred c v t).copies) :
    recs.wraps = t.copies.wraps ∧ recs = { s.copies with creds := s.copies.creds.set c v, wraps := recs.wraps } := by
  subst h
  refine ⟨rfl, ?_⟩
  rw [putCred_copies]
  conv_lhs => rw [f.wrapsOnly]

/-! ## The watch at rest -/

theorem evaluate_atRest {s : State} (h : AtRest s) : evaluate false s = s := by
  obtain ⟨hw, h1, h2, h3⟩ := h
  unfold evaluate
  simp only [hw]
  rw [if_neg (by omega), if_neg (by omega), if_neg (by omega), if_neg (by simp)]
  simp

theorem setScore_atRest {s : State} (h : AtRest s) : setScore 0 s = s := by
  rw [setScore, show ({ s.copies.watch with score := 0 } : WatchRec) = s.copies.watch by rw [h.1]]

theorem lowerScore_atRest {s : State} (h : AtRest s) (step : Nat) : lowerScore step s = s := by
  have score : s.copies.watch.score = 0 := by rw [h.1]
  unfold lowerScore
  simp only [score, Nat.zero_sub, ne_eq, not_true_eq_false, decide_false, setScore_atRest h, evaluate_atRest h]

theorem reportSuccess_atRest {s : State} (h : AtRest s) (role : Role) : reportSuccess role s = s := by
  have settled : s.copies.watch.state = .settled := by rw [h.1]
  unfold reportSuccess
  rw [settled]
  exact lowerScore_atRest h _

/-! ## The verdict -/

/-- R69, steps 1 and 2, with the watch at rest: the state in which the request's own effect begins. -/
def atVerdict (c : Fin 8) (key : CredKey) (s : State) : State :=
  { s with
    copies := countsReset c s.copies
    store := (putCred c { s.copies.creds[c] with ownCount := 0 } (put (.charged 0) s)).store
    cred := { s.cred with holdoff := none }
    cmd := { s.cmd with sec := s.cmd.sec.map fun j => { j with keys := [key] } }
    derive := { job := s.derive.waiting.head?, waiting := s.derive.waiting.tail } }

theorem noted_atVerdict (c : Fin 8) (key : CredKey) (s : State) : Noted (atVerdict c key s) := noted_requestWrite _ _ _

theorem atVerdict_atRest {c : Fin 8} {key : CredKey} {s : State} (h : AtRest s) : AtRest (atVerdict c key s) := h

theorem successResets_atRest {s : State} (h : AtRest s) (c : Fin 8) (key : CredKey) :
    successResets c key { s with derive := { job := s.derive.waiting.head?, waiting := s.derive.waiting.tail } }
      = atVerdict c key s :=
  reportSuccess_atRest (s := atVerdict c key s) h _

section Verdict

variable {req : Instr} {c : Fin 8} {key : CredKey} {s : State}

/-- The request in progress at its verdict. -/
theorem Succeeds.job (h : Succeeds req c key s) : ∃ lost, s.cmd.sec = some ⟨req, lost, .testing, [], [], false⟩ :=
  h.1.2.2.1

theorem Succeeds.atVerdict_sec (h : Succeeds req c key s) :
    ∃ lost, (atVerdict c key s).cmd.sec = some ⟨req, lost, .testing, [key], [], false⟩ := by
  obtain ⟨lost, hj⟩ := h.job
  exact ⟨lost, by rw [atVerdict, hj]; rfl⟩

/-- R69: with the watch at rest a success verdict runs its request's effect. -/
theorem exec_succeeds (h : Succeeds req c key s) (hr : AtRest s) (hw : verdictWithheld req c .settled = none) :
    exec .derivationComplete s = .next (clearTouched (requestEffect req c key (atVerdict c key s))) := by
  obtain ⟨⟨hb, ⟨j, hj, channel, hk⟩, ⟨lost, hs⟩, hc⟩, hv⟩ := h
  obtain ⟨⟨c', secret⟩, cred, rfl⟩ := Option.map_eq_some_iff.mp hc
  have settled : s.copies.watch.state = .settled := by rw [hr.1]
  have resets := successResets_atRest hr c' key
  refine (event_of_between hb).trans (congrArg (fun m => Host.Outcome.next (clearTouched m)) ?_)
  unfold derivationEnds
  simp only [hj, channel, hk, secDerived, hs, verdict, cred]
  rw [if_pos hv]
  unfold successVerdict
  simp only [resets, settled, hw]

/-! ## The answer -/

theorem secFinish_waits {m : State} {k : Code} {b : AnswerBody} {j : SecJob} (hj : m.cmd.sec = some j) (hn : Noted m) :
    secFinish k b m = { m with cmd := { m.cmd with sec := some { j with
      phase := .answering k b
      writes := j.writes ++ m.store.touched
      awaitsErase := j.awaitsErase || eraseStartedHere m } } } := by
  have waits : ¬(j.writes ++ m.store.touched = [] ∧ (j.awaitsErase || eraseStartedHere m) = false) :=
    fun x => hn (List.append_eq_nil_iff.mp x.1).2
  unfold secFinish secAnswerDue
  simp only [modSec, hj, Option.map_some, if_neg waits]

/-- An effect that ends in an answer: the answer waits for the writes, and the rest of the state is the effect's. -/
theorem next_secFinish (h : Succeeds req c key s) (hr : AtRest s) (hw : verdictWithheld req c .settled = none)
    {k : Code} {b : AnswerBody} {m : State} (he : requestEffect req c key (atVerdict c key s) = secFinish k b m)
    (hs : m.cmd.sec = (atVerdict c key s).cmd.sec) (hn : Noted m) {P : State → Prop}
    (hp : ∀ st j, j.req = req → j.phase = .answering k b → P { m with store := st, cmd := { m.cmd with sec := some j } }) :
    Next (exec .derivationComplete s) P := by
  obtain ⟨lost, hj⟩ := h.atVerdict_sec
  refine ⟨_, exec_succeeds h hr hw, ?_⟩
  rw [he, secFinish_waits (hs.trans hj) hn]
  exact hp _ _ rfl rfl

/-- An effect that changes records alone (R69). -/
theorem next_records (h : Succeeds req c key s) (hr : AtRest s) (hw : verdictWithheld req c .settled = none)
    {k : Code} {b : AnswerBody} {m : State} (he : requestEffect req c key (atVerdict c key s) = secFinish k b m)
    (f : Frame recordParts (atVerdict c key s) m) (hn : Noted m) {P : State → Prop}
    (hp : ∀ t, OnlyRecords s t → t.copies = m.copies → Answering req k b t → P t) :
    Next (exec .derivationComplete s) P := by
  refine next_secFinish h hr hw he f.sec hn fun st j hreq hphase => hp _ ?_ rfl ⟨j, rfl, hreq, hphase⟩
  unfold OnlyRecords
  conv_lhs => rw [f.records]
  rfl

end Verdict

/-! ## Counts and wraps at the verdict -/

theorem countsReset_creds (c q : Fin 8) (recs : Records) :
    (countsReset c recs).creds[q]
      = if q = c then { recs.creds[c] with ownCount := 0 } else recs.creds[q] := by
  have set : (countsReset c recs).creds = recs.creds.set c { recs.creds[c] with ownCount := 0 } := rfl
  by_cases h : q = c
  · subst h; simp [set]
  · have : (c : Nat) ≠ q := fun x => h (Fin.ext x.symm)
    simp [set, h, this]

theorem countsReset_state (c q : Fin 8) (recs : Records) : (countsReset c recs).creds[q].state = recs.creds[q].state := by
  rw [countsReset_creds]
  split
  · rename_i h; rw [h]
  · rfl

theorem countsReset_verifier (c q : Fin 8) (recs : Records) :
    (countsReset c recs).creds[q].verifier = recs.creds[q].verifier := by
  rw [countsReset_creds]
  split
  · rename_i h; rw [h]
  · rfl

/-! ## Credentials -/

/-- Settles O38: each effect is a few writes of records, and the answer waits for them. -/
theorem credentialsEnabledAndRemoved : Obligations.CredentialsEnabledAndRemoved := by
  intro id cb target secret c key s hr q recs
  have state : (atVerdict c key s).copies.creds[q].state = s.copies.creds[q].state := countsReset_state c q s.copies
  refine ⟨fun h => ?_, fun h filled => ?_⟩
  · have effect : requestEffect (.enableCredential id cb secret target) c key (atVerdict c key s)
      = enableEffect q (atVerdict c key s) := rfl
    unfold enableEffect at effect
    cases hq : s.copies.creds[q].state with
    | empty =>
      simp only [state, hq] at effect
      exact next_records h hr rfl effect (.refl _ _) (noted_atVerdict c key s) fun t only copies answer =>
        ⟨only, fun _ => ⟨copies, answer⟩, fun x => absurd rfl x⟩
    | disabled =>
      simp only [state, hq] at effect
      exact next_records h hr rfl effect (frame_put _ _ .cCreds).within (noted_put _ _) fun t only copies answer =>
        ⟨only, (fun x => nomatch x), fun _ => ⟨copies, answer⟩⟩
    | active =>
      simp only [state, hq] at effect
      split at effect
      · rename_i none
        have same : recs.creds.set q { recs.creds[q] with state := .active, ownCount := 0 } = recs.creds := by
          have : ({ recs.creds[q] with state := .active, ownCount := 0 } : CredRec) = recs.creds[q] := by
            rw [← hq, ← state, ← none]
            rfl
          rw [this]
          exact Vector.set_getElem_self _
        exact next_records h hr rfl effect (.refl _ _) (noted_atVerdict c key s) fun t only copies answer =>
          ⟨only, (fun x => nomatch x), fun _ => ⟨by rw [same]; exact copies, answer⟩⟩
      · exact next_records h hr rfl effect (frame_put _ _ .cCreds).within (noted_put _ _) fun t only copies answer =>
          ⟨only, (fun x => nomatch x), fun _ => ⟨copies, answer⟩⟩
  · have effect : requestEffect (.removeCredential id cb secret target) c key (atVerdict c key s)
      = removeEffect q (atVerdict c key s) := rfl
    unfold removeEffect at effect
    rw [if_neg (by rwa [state])] at effect
    have removed := frame_removeHolderWraps (.slot q) (atVerdict c key s)
    have left := removeHolderWraps_wraps (.slot q) (atVerdict c key s)
    generalize removeHolderWraps (.slot q) (atVerdict c key s) = m at effect removed left
    refine next_records h hr rfl effect ((frame_put _ _ .cCreds).after removed) (noted_put _ _) fun t only copies answer => ?_
    obtain ⟨wraps, rest⟩ := putCred_after_wraps removed copies
    exact ⟨only, rest, fun k => by rw [wraps]; exact left k, answer⟩

/-! ## Wrap entries, token and incidents -/

theorem noneStale_atVerdict {c : Fin 8} {key : CredKey} {s : State} (h : NoneStale s.copies) :
    NoneStale (atVerdict c key s).copies := h

section Grant

variable {c : Fin 8} {key : CredKey} {who : Holder} {r : Fin 16} {a : Access} {second : Secret} {s : State}

/-- R93, R94: the checks of a GRANT, in a table without stale entries. -/
theorem grantEffect_eq (h : NoneStale s.copies) : grantEffect c key who r a second s =
    if mayHold who s = false then secFinish .notActive .empty s
    else if (rangeDefined s.copies r && isOpen s.ranges[r].run) = false then secFinish .notOpen .empty s
    else if findWrap who r s.copies = none ∧ 64 ≤ wrapCount s.copies then secFinish .tableFull .empty s
    else match who with
      | .device => addGrant .device (deviceWrap s) r a s
      | .slot t =>
        if t = c then addGrant who (.cred key) r a s
        else secSecond (jobAgainst .security second s.copies.creds[t].verifier) s := by
  unfold grantEffect
  simp only [purgeStale_eq_self h, Bool.not_eq_true', Option.isNone_iff_eq_none] <;> rfl

theorem mayHold_eq_false (who : Holder) (s : State) :
    mayHold who s = false ↔ ∃ q, who = .slot q ∧ s.copies.creds[q].state = .empty := by
  cases who <;> simp [mayHold]

theorem grantEffect_notOpen (h : NoneStale s.copies) (may : ¬mayHold who s = false)
    (hr : (rangeDefined s.copies r && isOpen s.ranges[r].run) = false) :
    grantEffect c key who r a second s = secFinish .notOpen .empty s := by
  rw [grantEffect_eq h, if_neg may, if_pos hr]

theorem grantEffect_tableFull (h : NoneStale s.copies) (may : ¬mayHold who s = false)
    (hr : (rangeDefined s.copies r && isOpen s.ranges[r].run) = true) (hn : findWrap who r s.copies = none)
    (full : 64 ≤ wrapCount s.copies) : grantEffect c key who r a second s = secFinish .tableFull .empty s := by
  rw [grantEffect_eq h, if_neg may, hr, if_neg Bool.true_eq_false_eq_False, if_pos ⟨hn, full⟩]

/-- R93, R94: a GRANT to DEVICE or to the presenter that passes the checks adds its entry. -/
theorem grantEffect_adds (h : NoneStale s.copies) (hm : ∀ q, who = .slot q → s.copies.creds[q].state ≠ .empty)
    (hr : (rangeDefined s.copies r && isOpen s.ranges[r].run) = true)
    (room : findWrap who r s.copies = none → wrapCount s.copies < 64) (hw : who = .device ∨ who = .slot c) :
    grantEffect c key who r a second s
      = addGrant who (if who = .device then .device s.deviceKey else .cred key) r a s := by
  have may : ¬mayHold who s = false := fun x => by
    obtain ⟨q, hq, he⟩ := (mayHold_eq_false who s).mp x
    exact hm q hq he
  have fits : ¬(findWrap who r s.copies = none ∧ 64 ≤ wrapCount s.copies) := fun x => by
    have := room x.1
    omega
  rw [grantEffect_eq h, if_neg may, hr, if_neg Bool.true_eq_false_eq_False, if_neg fits]
  rcases hw with rfl | rfl
  · rfl
  · simp

theorem addGrant_eq {under : WrapUnder} {hd : Held} (h : s.ranges[r].run = .opened hd) {k : Code} {t : State}
    (hk : k ≠ .tableFull) (added : addWrap who under r a hd.key s = (k, t)) :
    addGrant who under r a s = secFinish .ok (.code k) t := by
  unfold addGrant
  rw [h]
  simp only [added]

/-- R94: its answer names what became of the entry. -/
theorem grantEffect_ends (h : NoneStale s.copies) (hm : ∀ q, who = .slot q → s.copies.creds[q].state ≠ .empty)
    (hr : (rangeDefined s.copies r && isOpen s.ranges[r].run) = true)
    (room : findWrap who r s.copies = none → wrapCount s.copies < 64) (hw : who = .device ∨ who = .slot c)
    {hd : Held} (hop : s.ranges[r].run = .opened hd) {k : Code} {t : State} (hk : k ≠ .tableFull)
    (added : addWrap who (if who = .device then .device s.deviceKey else .cred key) r a hd.key s = (k, t)) :
    grantEffect c key who r a second s = secFinish .ok (.code k) t :=
  (grantEffect_adds h hm hr room hw).trans (addGrant_eq hop hk added)

end Grant

/-- Settles O39: each effect is one write at most. -/
theorem entriesTokenAndIncidentsAdministered : Obligations.EntriesTokenAndIncidentsAdministered := by
  intro id cb secret c key s hr recs
  refine ⟨?_, fun target range h => ?_, fun h => ?_, fun pos h => ?_, fun h => ?_⟩
  · intro target range access second req who r h fresh refused answers
    have stale := noneStale_atVerdict (c := c) (key := key) fresh
    have effect : requestEffect req c key (atVerdict c key s)
      = grantEffect c key who r (accessOf access) second (atVerdict c key s) := rfl
    have filled : ∀ q : Fin 8, (atVerdict c key s).copies.creds[q].state = s.copies.creds[q].state :=
      fun q => countsReset_state c q s.copies
    have refuses : ∀ k, grantEffect c key who r (accessOf access) second (atVerdict c key s)
        = secFinish k .empty (atVerdict c key s) → refused k := fun k e =>
      next_records h hr rfl (effect.trans e) (.refl _ _) (noted_atVerdict c key s) fun t only copies answer =>
        ⟨only, copies, answer⟩
    have may : (∀ q, who = .slot q → s.copies.creds[q].state ≠ .empty) → ¬mayHold who (atVerdict c key s) = false :=
      fun hm x => by
        obtain ⟨q, hq, he⟩ := (mayHold_eq_false _ _).mp x
        exact hm q hq ((filled q).symm.trans he)
    refine ⟨fun ⟨q, hq, he⟩ => refuses _ ?_, fun hm => ⟨fun hc => refuses _ ?_, fun hd hop hdef => ?_⟩⟩
    · rw [grantEffect_eq stale, if_pos ((mayHold_eq_false _ _).mpr ⟨q, hq, (filled q).trans he⟩)]
    · exact grantEffect_notOpen stale (may hm) (Bool.and_eq_false_iff.mpr hc)
    have opened : (rangeDefined s.copies r && isOpen s.ranges[r].run) = true := by rw [hdef, hop]; rfl
    refine ⟨fun hn full => refuses _ ?_, fun hw => ?_⟩
    · exact grantEffect_tableFull stale (may hm) opened hn full
    have held : ∀ q, who = .slot q → (atVerdict c key s).copies.creds[q].state ≠ .empty :=
      fun q hq he => hm q hq ((filled q).symm.trans he)
    have run : (atVerdict c key s).ranges[r].run = .opened hd := hop
    have answer : ∀ (k : Code) (i : Fin 64) (e : WrapEntry), k ≠ .tableFull →
        (findWrap who r (atVerdict c key s).copies = none → wrapCount (atVerdict c key s).copies < 64) →
        addWrap who (if who = .device then .device (atVerdict c key s).deviceKey else .cred key) r (accessOf access) hd.key
          (atVerdict c key s) = (k, putWrap i (some e) (atVerdict c key s)) → answers k i e := by
      intro k i e hk room added
      have ends := grantEffect_ends (second := second) stale held opened room hw run hk added
      exact next_records h hr rfl (effect.trans ends) (frame_putWrap i _ _).within (noted_put _ _)
        fun t only copies answer => ⟨only, copies, answer⟩
    refine ⟨fun i e hi he => ?_, fun i hn room hf => ?_⟩
    · exact answer _ _ _ (by decide) (fun x => nomatch x.symm.trans hi) (addWrap_replaces stale hi he)
    · refine answer _ _ _ (by decide) (fun _ => room) ((addWrap_creates (s := atVerdict c key s) hn hf).trans ?_)
      rfl
  · have effect : requestEffect (.revoke id cb secret target range) c key (atVerdict c key s)
      = secFinish .ok .empty (removeEntry (holderOf target) (rangeIx range) (atVerdict c key s)) := rfl
    have removed := frame_removeEntry (holderOf target) (rangeIx range) (atVerdict c key s)
    have left := removeEntry_wraps (holderOf target) (rangeIx range) (atVerdict c key s)
    have noted := noted_removeEntry (holderOf target) (rangeIx range) _ (noted_atVerdict c key s)
    generalize removeEntry (holderOf target) (rangeIx range) (atVerdict c key s) = m at effect removed left noted
    refine next_records h hr rfl effect removed.within noted fun t only copies answer => ?_
    obtain ⟨wraps, rest⟩ := removed.wraps_of copies
    refine ⟨only, rest, fun k => ?_, answer⟩
    rw [wraps]
    exact left k
  · have effect : requestEffect (.setRemoteToken id cb secret []) c key (atVerdict c key s)
      = secFinish .ok .empty (put (.token none) (atVerdict c key s)) := rfl
    exact next_records h hr rfl effect (frame_put _ _ .cToken).within (noted_put _ _) fun t only copies answer =>
      ⟨only, copies, answer⟩
  · have effect : requestEffect (.readIncidents id cb secret pos) c key (atVerdict c key s)
      = readIncidentsEffect pos.toNat (atVerdict c key s) := rfl
    exact next_records h hr rfl effect (.refl _ _) (noted_atVerdict c key s) fun t only copies answer =>
      ⟨only, copies, answer⟩
  · have effect : requestEffect (.clearIncidents id cb secret) c key (atVerdict c key s)
      = secFinish .ok .empty (put (.incidents []) (atVerdict c key s)) := rfl
    exact next_records h hr rfl effect (frame_put _ _ .cIncidents).within (noted_put _ _) fun t only copies answer =>
      ⟨only, copies, answer⟩

end Sys2Proof.Machine
end


-- ==== Sys2Proof/Proofs/SecondDerivations.lean ====
section
/-! PROOF. The requests that derive a second key (R71): what asks for the derivation, and what follows its end: O33, O42. -/

-- As in the tests: each theorem that waits for the kernel in parallel would keep a thread.
set_option Elab.async false

namespace Sys2Proof.Machine

/-! ## Asking for a second derivation -/

theorem requestDerivation_eq (j : DerivJob) (s : State) : requestDerivation j s = { s with
    derive := if s.derive.job = none then { s.derive with job := some j }
      else { s.derive with waiting := s.derive.waiting ++ [j] } } := by
  unfold requestDerivation
  cases h : s.derive.job <;> simp

/-- R71: with the engine idle the second derivation starts at once. -/
theorem secSecond_idle {j : DerivJob} {s : State} {q : SecJob} (hj : s.derive.job = none) (hq : s.cmd.sec = some q) :
    secSecond j s = { s with
      derive := { s.derive with job := some j }
      cmd := { s.cmd with sec := some { q with phase := .second, writes := q.writes ++ s.store.touched } } } := by
  rw [secSecond, requestDerivation_eq, modSec, hq]
  simp only [hj, if_true]
  rfl

/-! ## The end of a second derivation -/

/-- R71: the state in which the second derivation's key reaches the request. -/
def atSecond (key : CredKey) (s : State) : State :=
  { s with
    derive := { job := s.derive.waiting.head?, waiting := s.derive.waiting.tail }
    cmd := { s.cmd with sec := s.cmd.sec.map fun j => { j with keys := j.keys ++ [key] } } }

section Second

variable {req : Instr} {lost : Bool} {keys : List CredKey} {j : DerivJob} {s : State}

theorem exec_second (hb : Between s) (hj : s.derive.job = some j) (hc : j.channel = .security)
    (hs : s.cmd.sec = some ⟨req, lost, .second, keys, [], false⟩) :
    exec .derivationComplete s = .next (clearTouched (secondDerived req keys (derived j) (atSecond (derived j) s))) := by
  refine (event_of_between hb).trans (congrArg (fun m => Host.Outcome.next (clearTouched m)) ?_)
  unfold derivationEnds
  simp only [hj, hc, secDerived, hs]
  rfl

theorem atSecond_sec {key : CredKey} (hs : s.cmd.sec = some ⟨req, lost, .second, keys, [], false⟩) :
    (atSecond key s).cmd.sec = some ⟨req, lost, .second, keys ++ [key], [], false⟩ := by
  rw [atSecond, hs]
  rfl

/-- An effect that has asked for writes: its answer waits for them. -/
theorem next_second (hb : Between s) (hj : s.derive.job = some j) (hc : j.channel = .security)
    (hs : s.cmd.sec = some ⟨req, lost, .second, keys, [], false⟩) {k : Code} {b : AnswerBody} {m : State}
    (he : secondDerived req keys (derived j) (atSecond (derived j) s) = secFinish k b m)
    (hm : m.cmd.sec = (atSecond (derived j) s).cmd.sec) (hn : Noted m) {P : State → Prop}
    (hp : ∀ st q, q.req = req → q.phase = .answering k b → P { m with store := st, cmd := { m.cmd with sec := some q } }) :
    Next (exec .derivationComplete s) P := by
  refine ⟨_, exec_second hb hj hc hs, ?_⟩
  rw [he, secFinish_waits (hm.trans (atSecond_sec hs)) hn]
  exact hp _ _ rfl rfl

end Second

/-! ## An answer at once -/

theorem mem_joinQueue (cap : Nat) (e : NoticeEntry) (q : List NoticeEntry) : e ∈ joinQueue cap e q := by
  unfold joinQueue
  split
  · exact List.mem_append_right _ (List.mem_singleton_self e)
  · split
    · exact List.mem_singleton_self e
    · exact List.mem_cons_of_mem _ (List.mem_append_right _ (List.mem_singleton_self e))

/-- R87, R176: a request that owes no write is answered, or told lost, in the same event. -/
theorem secFinish_atOnce {k : Code} {b : AnswerBody} {m : State} {j : SecJob} (hj : m.cmd.sec = some j) (hw : j.writes = [])
    (he : j.awaitsErase = false) (hn : m.store.touched = []) :
    (secFinish k b m).copies = m.copies ∧ (secFinish k b m).store = m.store
      ∧ AnswerLeft j.req j.lost k b m (secFinish k b m) := by
  have f := frame_secFinish k b m
  have quiet : eraseStartedHere m = false := by
    unfold eraseStartedHere
    rw [hn]
    cases m.erase.starting <;> rfl
  have reply : secFinish k b m = secReply k b { m with cmd := { m.cmd with sec := some { j with phase := .answering k b } } } := by
    obtain ⟨req, lost, phase, keys, writes, awaits⟩ := j
    subst hw he
    unfold secFinish secAnswerDue
    simp only [modSec, hj, Option.map_some, hn, quiet, List.append_nil, Bool.or_false, and_self, if_true]
  refine ⟨f.copies, f.store, ?_⟩
  rw [reply]
  unfold secReply
  by_cases gone : j.lost = true ∨ m.drive.up = false
  · simp only [if_pos gone]
    refine ⟨rfl, fun h1 h2 => ?_, fun _ => ⟨_, mem_joinQueue _ _ _, rfl⟩⟩
    rw [h1, h2] at gone
    simp at gone
  · simp only [if_neg gone]
    obtain ⟨h1, h2⟩ := not_or.mp gone
    refine ⟨?_, fun _ hu => ?_, fun h => absurd h gone⟩
    · rw [(frame_pushFrame _ _).sec]
    · unfold pushFrame
      simp only [hu, if_true]
      exact List.mem_append_right _ (List.mem_singleton_self _)

/-- A second derivation that changes nothing: the request is answered in the event of its end. -/
theorem next_second_atOnce {req : Instr} {lost : Bool} {keys : List CredKey} {j : DerivJob} {s : State} (hb : Between s)
    (hj : s.derive.job = some j) (hc : j.channel = .security)
    (hs : s.cmd.sec = some ⟨req, lost, .second, keys, [], false⟩) {k : Code} {b : AnswerBody}
    (he : secondDerived req keys (derived j) (atSecond (derived j) s) = secFinish k b (atSecond (derived j) s)) :
    Next (exec .derivationComplete s) fun t => t.copies = s.copies ∧ t.store = s.store ∧ AnswerLeft req lost k b s t := by
  obtain ⟨copies, store, left⟩ := secFinish_atOnce (k := k) (b := b) (atSecond_sec (key := derived j) hs) rfl rfl hb
  refine ⟨_, exec_second hb hj hc hs, ?_⟩
  rw [he, clearTouched_of_between (by rw [Between, store]; exact hb)]
  exact ⟨copies, store, left⟩

/-! ## A request that the channel takes at once -/

/-- R174: the request in progress, as the channel has taken it. -/
def taken (req : Instr) (s : State) : State :=
  { s with cmd := { s.cmd with sec := some ⟨req, false, .taken, [], [], false⟩ } }

theorem event_request {req : Instr} {s : State} (h : ChannelTakes s) (hs : stalls req s = false)
    (hf : takeFrame req s = if s.drive.up then takeRequest req s else s) (hb : badKind req = false)
    (hp : channelPasses req s.copies.watch.state = true) :
    event (arrive req) s = .next (clearTouched (beginRequest req (taken req s))) := by
  rw [event_arrive h.1 hs, hf, if_pos h.1.2.1, takeRequest, h.2, hb]
  simp only [Option.isSome_none, Bool.false_eq_true, if_false, hp, if_true]
  rfl

theorem secReply_taken {req : Instr} {k : Code} {b : AnswerBody} {s : State} (h : ChannelTakes s) :
    clearTouched (secReply k b (taken req s)) = sent (.secAnswer (requestId req) (answerKind req) k b) s := by
  have idle : ({ s.cmd with sec := none } : CommandProcessor) = s.cmd := by rw [← h.2]
  have reply : secReply k b (taken req s) = sent (.secAnswer (requestId req) (answerKind req) k b) s := by
    rw [secReply_sent (s := taken req s) (j := ⟨req, false, .taken, [], [], false⟩) rfl rfl h.1.2.1]
    change sent _ { s with cmd := { s.cmd with sec := none } } = _
    rw [idle]
  rw [reply, clearTouched_of_between (between_sent h.1.2.2.2)]

/-! ## TAKE_OWNERSHIP -/

/-- R16, R89: the owner's entry of an OPEN range. -/
def ownEntry (key : CredKey) (recs : Records) (r : Fin 16) (h : Held) : WrapEntry :=
  ⟨.slot 0, r, .full, recs.ranges[r].salt, ⟨h.key, .cred key⟩⟩

/-- What the pass of R89, step 7, leaves of the wrap table and answers, over ranges without an owner's entry. -/
structure Owned (key : CredKey) (l : List (Fin 16)) (s t : State) (res : List (Fin 16 × Code)) : Prop where
  kept : ∀ (k : Fin 64) e, s.copies.wraps[k] = some e → t.copies.wraps[k] = some e
  added : ∀ (k : Fin 64) e, t.copies.wraps[k] = some e →
    s.copies.wraps[k] = some e ∨ ∃ r h, s.ranges[r].run = .opened h ∧ e = ownEntry key s.copies r h
  told : ∀ r ∈ l, ∀ h, s.ranges[r].run = .opened h →
    ((r, .ok) ∈ res ∧ ∃ k : Fin 64, t.copies.wraps[k] = some (ownEntry key s.copies r h))
      ∨ ((r, .tableFull) ∈ res ∧ freeWrap t.copies = none)

theorem freeWrap_of_kept {recs recs' : Records}
    (kept : ∀ (k : Fin 64) e, recs.wraps[k] = some e → recs'.wraps[k] = some e) (h : freeWrap recs = none) :
    freeWrap recs' = none := by
  cases hf : freeWrap recs' with
  | none => rfl
  | some k =>
    cases hk : recs.wraps[k] with
    | none =>
      have := List.find?_eq_none.mp h k (List.mem_finRange k)
      simp [hk] at this
    | some e => exact absurd ((kept k e hk).symm.trans (freeWrap_some hf)) (by simp)

theorem ownOpenRanges_owned (key : CredKey) (l : List (Fin 16)) (hl : l.Nodup) (s : State)
    (hn : ∀ r ∈ l, findWrap (.slot 0) r s.copies = none) :
    Owned key l s (ownOpenRanges key l s).2 (ownOpenRanges key l s).1 := by
  induction l generalizing s with
  | nil => exact ⟨fun _ _ h => h, fun _ _ h => .inl h, fun r h => nomatch h⟩
  | cons r l ih =>
    obtain ⟨fresh, hl⟩ := List.nodup_cons.mp hl
    have none_r := hn r List.mem_cons_self
    have none_l : ∀ q ∈ l, findWrap (.slot 0) q s.copies = none := fun q hq => hn q (List.mem_cons_of_mem r hq)
    unfold ownOpenRanges
    split
    · rename_i h hop
      cases hf : freeWrap s.copies with
      | none =>
        rw [addWrap_full none_r hf]
        obtain ⟨kept, added, told⟩ := ih hl s none_l
        refine ⟨kept, added, fun q hq h' hq' => ?_⟩
        rcases List.mem_cons.mp hq with rfl | hq
        · exact .inr ⟨List.mem_cons_self, freeWrap_of_kept kept hf⟩
        · exact (told q hq h' hq').imp (fun x => ⟨List.mem_cons_of_mem _ x.1, x.2⟩)
            (fun x => ⟨List.mem_cons_of_mem _ x.1, x.2⟩)
      | some k =>
        rw [addWrap_creates none_r hf]
        have free := freeWrap_some hf
        have wraps : ∀ i : Fin 64, (putWrap k (some (ownEntry key s.copies r h)) s).copies.wraps[i]
            = if i = k then some (ownEntry key s.copies r h) else s.copies.wraps[i] :=
          fun i => putWrap_wraps k i _ s
        have still : ∀ (i : Fin 64) e, s.copies.wraps[i] = some e →
            (putWrap k (some (ownEntry key s.copies r h)) s).copies.wraps[i] = some e := fun i e he => by
          rw [wraps, if_neg (fun x => by rw [x, free] at he; cases he), he]
        obtain ⟨kept, added, told⟩ := ih hl (putWrap k (some (ownEntry key s.copies r h)) s) fun q hq =>
          findWrap_none.mpr fun i e he both => by
            rw [wraps] at he
            split at he
            · cases he
              exact fresh ((show r = q from both.2) ▸ hq)
            · exact findWrap_none.mp (none_l q hq) i e he both
        refine ⟨fun i e he => kept i e (still i e he), fun i e he => ?_, fun q hq h' hq' => ?_⟩
        · rcases added i e he with old | new
          · rw [wraps] at old
            split at old
            · cases old
              exact .inr ⟨r, h, hop, rfl⟩
            · exact .inl old
          · exact .inr new
        · rcases List.mem_cons.mp hq with rfl | hq
          · cases hop.symm.trans hq'
            exact .inl ⟨List.mem_cons_self, k, kept k _ (by rw [wraps, if_pos rfl])⟩
          · exact (told q hq h' hq').imp (fun x => ⟨List.mem_cons_of_mem _ x.1, x.2⟩)
              (fun x => ⟨List.mem_cons_of_mem _ x.1, x.2⟩)
    · rename_i closed
      obtain ⟨kept, added, told⟩ := ih hl s none_l
      refine ⟨kept, added, fun q hq h' hq' => ?_⟩
      rcases List.mem_cons.mp hq with rfl | hq
      · exact absurd hq' (closed h')
      · exact told q hq h' hq'

theorem noted_ownOpenRanges (key : CredKey) (l : List (Fin 16)) (s : State) (h : Noted s) :
    Noted (ownOpenRanges key l s).2 := by
  induction l generalizing s with
  | nil => exact h
  | cons r l ih =>
    unfold ownOpenRanges
    split
    · exact ih _ (noted_addWrap _ _ r _ _ s h)
    · exact ih s h

/-- R89, step 6: slot 0 has taken the owner's verifier. -/
def ownerMade (key : CredKey) (s : State) : State := putCred 0 ⟨.active, some (verifierOf key), 0⟩ (atSecond key s)

theorem ownershipTaken_eq (key : CredKey) {s : State} (ha : alive s.copies.watch.state = true) : ownershipTaken key s
    = secFinish .ok
        (.rangeResults (ownOpenRanges key (List.finRange 16) (putCred 0 ⟨.active, some (verifierOf key), 0⟩ s)).1)
        (ownOpenRanges key (List.finRange 16) (putCred 0 ⟨.active, some (verifierOf key), 0⟩ s)).2 := by
  unfold ownershipTaken
  rw [if_neg (by simp [ha])]

/-- Settles O33: the pass over the OPEN ranges, with the owner's record before it and the answer after it. -/
theorem takeOwnershipDerivesTheOwner : Obligations.TakeOwnershipDerivesTheOwner := by
  refine ⟨?_, ?_⟩
  · intro id secret s h ha c
    have run : exec c s = .next (clearTouched (beginOwnership secret (taken c s))) := event_request h rfl rfl rfl ha
    rw [run]
    unfold beginOwnership secretFits
    refine ⟨fun size => ?_, fun lo hi => ⟨fun owned => ?_, ?_⟩⟩
    · rw [if_pos (by simp; omega), secReply_taken h]
      rfl
    · rw [if_neg (by simp; omega), if_pos (show (taken c s).copies.creds[(0 : Fin 8)].state ≠ .empty from owned),
        secReply_taken h]
      rfl
    · intro free j
      rw [if_neg (by simp; omega), if_neg (show ¬(taken c s).copies.creds[(0 : Fin 8)].state ≠ .empty from not_not.mpr free)]
      have quiet : s.store.touched = [] := h.1.2.2.2
      simp only [secNewVerifier, secSecond, requestDerivation_eq, drawSalt, modSec, taken, Option.map_some, quiet,
        List.append_nil]
      refine congrArg Host.Outcome.next (clearTouched_of_between (s := _) quiet)
  · intro id secret lost j s hb hj hc hs key
    refine ⟨fun dead => ?_, ?_⟩
    · have effect : secondDerived (.takeOwnership id secret) [] key (atSecond key s)
        = secFinish .notNow .empty (atSecond key s) := by
        unfold secondDerived ownershipTaken
        exact if_pos (by simpa [atSecond] using dead)
      obtain ⟨t, ran, copies, store, idle, -⟩ := next_second_atOnce hb hj hc hs effect
      exact ⟨t, ran, copies, store, idle⟩
    · intro ha hn owner
      have effect : secondDerived (.takeOwnership id secret) [] key (atSecond key s)
          = secFinish .ok (.rangeResults (ownOpenRanges key (List.finRange 16) (ownerMade key s)).1)
            (ownOpenRanges key (List.finRange 16) (ownerMade key s)).2 := ownershipTaken_eq key (s := atSecond key s) ha
      have passed := ownOpenRanges_owned key (List.finRange 16) (List.nodup_finRange 16) (ownerMade key s) fun r _ => hn r
      have made := frame_ownOpenRanges key (List.finRange 16) (ownerMade key s)
      have noted := noted_ownOpenRanges key (List.finRange 16) (ownerMade key s) (noted_put _ _)
      generalize ownOpenRanges key (List.finRange 16) (ownerMade key s) = x at effect passed made noted
      obtain ⟨l, m⟩ := x
      obtain ⟨kept, added, told⟩ := passed
      have wraps := (made.wraps_of rfl).2
      refine next_second hb hj hc hs effect made.sec noted fun st q hreq hphase => ?_
      refine ⟨wraps, made.ranges, made.slots, made.watch, ?_, ?_, l, ⟨q, rfl, hreq, hphase⟩, ?_⟩
      · exact kept
      · exact added
      · exact fun r h hop => told r (List.mem_finRange r) h hop

end Sys2Proof.Machine
end


-- ==== Sys2Proof/Proofs/SecretsReplaced.lean ====
section
/-! PROOF. CHANGE_SECRET, SET_SECRET, SET_REMOTE_TOKEN and GRANT with a second secret (R72, R90, R94, R106): O42. -/

-- As in the tests: each theorem that waits for the kernel in parallel would keep a thread.
set_option Elab.async false

namespace Sys2Proof.Machine

/-! ## The second derivation asked for -/

section Asked

variable {req : Instr} {c : Fin 8} {key : CredKey} {s m : State} {job : DerivJob}

/-- R71: an effect that asks for a second derivation, with the engine's queue empty. -/
theorem next_secSecond (h : Succeeds req c key s) (hr : AtRest s) (hw : verdictWithheld req c .settled = none)
    (hd : s.derive.waiting = []) (he : requestEffect req c key (atVerdict c key s) = secSecond job m)
    (hs : m.cmd.sec = (atVerdict c key s).cmd.sec) (hm : m.derive = (atVerdict c key s).derive) {P : State → Prop}
    (hp : ∀ t, t.copies = m.copies → t.draws = m.draws → t.derive = ⟨some job, []⟩ → t.ranges = m.ranges →
      t.slots = m.slots → t.watch = m.watch →
      (∃ j, t.cmd.sec = some j ∧ j.req = req ∧ j.phase = .second ∧ j.keys = [key]) → P t) :
    Next (exec .derivationComplete s) P := by
  obtain ⟨lost, hj⟩ := h.atVerdict_sec
  have idle : m.derive = ⟨none, []⟩ := by
    rw [hm, atVerdict, hd]
    rfl
  refine ⟨_, exec_succeeds h hr hw, ?_⟩
  rw [he, secSecond_idle (by rw [idle]) (hs.trans hj), idle]
  exact hp _ rfl rfl rfl rfl rfl rfl ⟨_, rfl, rfl, rfl, rfl⟩

theorem secNewVerifier_eq (new : Secret) {s m : State} (f : Frame wrapFields s m) : secNewVerifier new m
    = secSecond ⟨.security, new, ⟨s.draws⟩, s.copies.policy.workFactor⟩ (drawSalt m).2 := by
  rw [← f.draws, ← f.cPolicy]
  rfl

/-- R59, R71: an effect that derives a new secret, at most after the removal of entries. -/
theorem next_newVerifier (h : Succeeds req c key s) (hr : AtRest s) (hw : verdictWithheld req c .settled = none)
    (hd : s.derive.waiting = []) (f : Frame wrapFields (atVerdict c key s) m) {new : Secret}
    (he : requestEffect req c key (atVerdict c key s) = secNewVerifier new m) {P : State → Prop}
    (hp : ∀ t, t.copies = m.copies → t.draws = s.draws + 1 →
      t.derive.job = some ⟨.security, new, ⟨s.draws⟩, s.copies.policy.workFactor⟩ → t.derive.waiting = [] →
      t.ranges = s.ranges → t.slots = s.slots → t.watch = s.watch →
      (∃ j, t.cmd.sec = some j ∧ j.req = req ∧ j.phase = .second ∧ j.keys = [key]) → P t) :
    Next (exec .derivationComplete s) P := by
  have asks := secNewVerifier_eq new f
  refine next_secSecond h hr hw hd (he.trans asks) f.sec f.derive fun t copies draws derive ranges slots watch asked => ?_
  exact hp t copies (draws.trans (congrArg (· + 1) f.draws)) (congrArg Derivation.job derive)
    (congrArg Derivation.waiting derive) (ranges.trans f.ranges) (slots.trans f.slots) (watch.trans f.watch) asked

end Asked

/-! ## Rewrapping -/

/-- R16: no two entries are of one holder and one range. -/
def OneEach (recs : Records) : Prop :=
  ∀ (i k : Fin 64) x y, recs.wraps[i] = some x → recs.wraps[k] = some y → x.holder = y.holder → x.range = y.range → i = k

/-- R72: what rewrapping makes of an entry, over the ranges of `l`. -/
def rewrapped (q : Fin 8) (old new : CredKey) (l : List (Fin 16)) (e : WrapEntry) : WrapEntry :=
  if e.holder = .slot q ∧ e.range ∈ l ∧ e.wrapped.under = .cred old then { e with wrapped := ⟨e.wrapped.key, .cred new⟩ }
  else e

section Rewrap

variable {q : Fin 8} {old new : CredKey} {r : Fin 16} {l : List (Fin 16)} {e : WrapEntry}

theorem rewrapped_cons (h : ¬(e.holder = .slot q ∧ e.range = r ∧ e.wrapped.under = .cred old)) :
    rewrapped q old new (r :: l) e = rewrapped q old new l e := by
  unfold rewrapped
  refine if_congr ⟨fun ⟨h1, h2, h3⟩ => ⟨h1, ?_, h3⟩, fun ⟨h1, h2, h3⟩ => ⟨h1, List.mem_cons_of_mem r h2, h3⟩⟩ rfl rfl
  rcases List.mem_cons.mp h2 with h2 | h2
  · exact absurd ⟨h1, h2, h3⟩ h
  · exact h2

theorem rewrapped_of_notMem (h : e.range ∉ l) : rewrapped q old new l e = e := if_neg fun x => h x.2.1

theorem rewrapped_of_mem (h1 : e.holder = .slot q) (h2 : e.range ∈ l) (h3 : e.wrapped.under = .cred old) :
    rewrapped q old new l e = { e with wrapped := ⟨e.wrapped.key, .cred new⟩ } := if_pos ⟨h1, h2, h3⟩

section Equations

variable {s : State} {k : Fin 64}

theorem rewrapFrom_absent (h : findWrap (.slot q) r s.copies = none) :
    rewrapFrom q old new (r :: l) s = rewrapFrom q old new l s := by
  rw [rewrapFrom]
  simp only [purgeStale_of_none h, h]

theorem rewrapFrom_found (fresh : NoneStale s.copies) (h : findWrap (.slot q) r s.copies = some k)
    (he : s.copies.wraps[k] = some e) (hu : e.wrapped.under = .cred old) :
    rewrapFrom q old new (r :: l) s
      = rewrapFrom q old new l (putWrap k (some { e with wrapped := ⟨e.wrapped.key, .cred new⟩ }) s) := by
  have unwraps : unwrap e (.cred old) = some e.wrapped.key := if_pos hu
  rw [rewrapFrom]
  simp only [purgeStale_eq_self fresh, h, he, unwraps]

theorem rewrapFrom_fails (fresh : NoneStale s.copies) (h : findWrap (.slot q) r s.copies = some k)
    (he : s.copies.wraps[k] = some e) (hu : e.wrapped.under ≠ .cred old) :
    rewrapFrom q old new (r :: l) s = (r :: (rewrapFrom q old new l s).1, (rewrapFrom q old new l s).2) := by
  have fails : unwrap e (.cred old) = none := if_neg hu
  rw [rewrapFrom]
  simp only [purgeStale_eq_self fresh, h, he, fails]

end Equations

/-- An entry whose wrapped key alone is replaced leaves the table without stale entries, and one each. -/
theorem noneStale_putWrap {s : State} {k : Fin 64} {e : WrapEntry} (h : NoneStale s.copies)
    (hs : e.salt = s.copies.ranges[e.range].salt) : NoneStale (putWrap k (some e) s).copies := by
  intro i x hx
  rw [putWrap_wraps] at hx
  split at hx
  · cases hx
    simp [isStale, putWrap_copies, hs]
  · exact h i x hx

theorem oneEach_putWrap {s : State} {k : Fin 64} {e e' : WrapEntry} (h : OneEach s.copies) (he : s.copies.wraps[k] = some e)
    (hw : e'.holder = e.holder) (hr : e'.range = e.range) : OneEach (putWrap k (some e') s).copies := by
  have origin : ∀ (i : Fin 64) x, (putWrap k (some e') s).copies.wraps[i] = some x →
      ∃ y, s.copies.wraps[i] = some y ∧ x.holder = y.holder ∧ x.range = y.range := by
    intro i x hx
    rw [putWrap_wraps] at hx
    split at hx
    · rename_i hi
      cases hx
      exact ⟨e, hi ▸ he, hw, hr⟩
    · exact ⟨x, hx, rfl, rfl⟩
  intro i j x y hx hy holder range
  obtain ⟨x', hx', h1, h2⟩ := origin i x hx
  obtain ⟨y', hy', h3, h4⟩ := origin j y hy
  exact h i j x' y' hx' hy' (h1.symm.trans (holder.trans h3)) (h2.symm.trans (range.trans h4))

/-- R72, step 3: the pass rewraps exactly the credential's entries that unwrap under the old key. -/
theorem rewrapFrom_wraps (q : Fin 8) (old new : CredKey) (l : List (Fin 16)) (hl : l.Nodup) (s : State)
    (fresh : NoneStale s.copies) (one : OneEach s.copies) (i : Fin 64) :
    (rewrapFrom q old new l s).2.copies.wraps[i] = s.copies.wraps[i].map (rewrapped q old new l) := by
  induction l generalizing s with
  | nil =>
    have all : rewrapped q old new [] = id := funext fun e => rewrapped_of_notMem List.not_mem_nil
    rw [all, Option.map_id]
    rfl
  | cons r l ih =>
    obtain ⟨absent, hl⟩ := List.nodup_cons.mp hl
    have skip : (∀ e, s.copies.wraps[i] = some e → ¬(e.holder = .slot q ∧ e.range = r ∧ e.wrapped.under = .cred old)) →
        s.copies.wraps[i].map (rewrapped q old new l) = s.copies.wraps[i].map (rewrapped q old new (r :: l)) := fun h =>
      Option.map_congr fun e he => (rewrapped_cons (h e he)).symm
    cases found : findWrap (.slot q) r s.copies with
    | none =>
      rw [rewrapFrom_absent found, ih hl s fresh one, skip fun e he x => findWrap_none.mp found i e he ⟨x.1, x.2.1⟩]
    | some k =>
      obtain ⟨e, he, holder, range⟩ := findWrap_some found
      by_cases under : e.wrapped.under = .cred old
      · have salt : e.salt = s.copies.ranges[e.range].salt := by simpa [isStale] using fresh k e he
        have rest := ih hl (putWrap k (some { e with wrapped := ⟨e.wrapped.key, .cred new⟩ }) s)
          (noneStale_putWrap fresh salt) (oneEach_putWrap one he rfl rfl)
        rw [rewrapFrom_found fresh found he under, rest, putWrap_wraps]
        by_cases hi : i = k
        · subst hi
          rw [if_pos rfl, he, Option.map_some, Option.map_some, rewrapped_of_notMem (by rw [range]; exact absent),
            rewrapped_of_mem holder (by rw [range]; exact List.mem_cons_self) under]
        · rw [if_neg hi, skip fun x hx is => hi (one i k x e hx he (is.1.trans holder.symm) (is.2.1.trans range.symm))]
      · rw [rewrapFrom_fails fresh found he under]
        refine (ih hl s fresh one).trans (skip fun x hx is => ?_)
        have same : i = k := one i k x e hx he (is.1.trans holder.symm) (is.2.1.trans range.symm)
        subst same
        cases hx.symm.trans he
        exact under is.2.2

end Rewrap

/-- R71, R94: a GRANT to another slot that passes its checks derives the second secret. -/
theorem grantEffect_asks {c q : Fin 8} {key : CredKey} {r : Fin 16} {a : Access} {second : Secret} {s : State}
    (h : NoneStale s.copies) (filled : s.copies.creds[q].state ≠ .empty)
    (hr : (rangeDefined s.copies r && isOpen s.ranges[r].run) = true)
    (room : (findWrap (.slot q) r s.copies).isSome = true ∨ wrapCount s.copies < 64) (hqc : q ≠ c) :
    grantEffect c key (.slot q) r a second s = secSecond (jobAgainst .security second s.copies.creds[q].verifier) s := by
  have may : ¬mayHold (.slot q) s = false := fun x => by
    obtain ⟨q', hq', he⟩ := (mayHold_eq_false _ s).mp x
    cases hq'
    exact filled he
  have fits : ¬(findWrap (.slot q) r s.copies = none ∧ 64 ≤ wrapCount s.copies) := fun x => by
    rcases room with found | less
    · rw [x.1] at found
      cases found
    · omega
  rw [grantEffect_eq h, if_neg may, hr, if_neg Bool.true_eq_false_eq_False, if_neg fits]
  exact if_neg hqc

/-- R72: the pass over the entries is done, and the credential's record follows. -/
theorem next_newRecord {req : Instr} {lost : Bool} {keys : List CredKey} {j : DerivJob} {s m : State} (hb : Between s)
    (hj : s.derive.job = some j) (hc : j.channel = .security)
    (hs : s.cmd.sec = some ⟨req, lost, .second, keys, [], false⟩) (f : Frame wrapFields (atSecond (derived j) s) m)
    {q : Fin 8} {v : CredRec} {b : AnswerBody}
    (he : secondDerived req keys (derived j) (atSecond (derived j) s) = secFinish .ok b (putCred q v m)) {P : State → Prop}
    (hp : ∀ t, t.copies.wraps = m.copies.wraps →
      t.copies = { s.copies with creds := s.copies.creds.set q v, wraps := t.copies.wraps } → Answering req .ok b t → P t) :
    Next (exec .derivationComplete s) P := by
  refine next_second hb hj hc hs he f.sec (noted_put _ _) fun st p hreq hphase => ?_
  obtain ⟨wraps, rest⟩ := putCred_after_wraps f (c := q) (v := v) rfl
  exact hp _ wraps rest ⟨p, rfl, hreq, hphase⟩

theorem secretChanged_eq (c : Fin 8) (old new : CredKey) (s : State) : secretChanged c old new s
    = secFinish .ok (.rangeList (rewrapFrom c old new (List.finRange 16) s).1)
        (putCred c { (rewrapFrom c old new (List.finRange 16) s).2.copies.creds[c] with verifier := some (verifierOf new) }
          (rewrapFrom c old new (List.finRange 16) s).2) := by
  unfold secretChanged
  dsimp only

section Granted

variable {q : Fin 8} {r : Fin 16} {a : Access} {key : CredKey} {s : State}

theorem grantDerived_mismatch (h : verifies s.copies.creds[q].verifier key = false) :
    grantDerived q r a key s = secFinish .targetMismatch .empty s := if_neg (by rw [h]; exact Bool.false_ne_true)

theorem grantDerived_eq (h : verifies s.copies.creds[q].verifier key = true) :
    grantDerived q r a key s = addGrant (.slot q) (.cred key) r a s := if_pos h

theorem addGrant_notOpen {who : Holder} {under : WrapUnder} (h : isOpen s.ranges[r].run = false) :
    addGrant who under r a s = secFinish .notOpen .empty s := by
  unfold addGrant
  split
  · rename_i hop
    rw [hop] at h
    cases h
  · rfl

theorem addGrant_full {who : Holder} {under : WrapUnder} {hd : Held} (h : s.ranges[r].run = .opened hd)
    (hn : findWrap who r s.copies = none) (hf : freeWrap s.copies = none) :
    addGrant who under r a s = secFinish .tableFull .empty s := by
  unfold addGrant
  rw [h]
  simp only [addWrap_full hn hf]

end Granted

/-- Settles O42: the verdicts ask for the derivation, and its end is a pass over the entries, a record or an entry. -/
theorem secretsAreReplaced : Obligations.SecretsAreReplaced := by
  refine ⟨?_, ?_⟩
  · intro id cb target secret new c key s hr hd recs derives
    refine ⟨fun h => ?_, fun h => ?_, fun h hne => ?_, ?_⟩
    · exact next_newVerifier h hr rfl hd (.refl _ _) (new := new) rfl
        fun t copies draws job waiting ranges slots watch asked =>
          ⟨copies, draws, job, waiting, ranges, slots, watch, asked⟩
    · have removed := frame_removeHolderWraps (.slot (credIx target)) (atVerdict c key s)
      have left := removeHolderWraps_wraps (.slot (credIx target)) (atVerdict c key s)
      refine next_newVerifier h hr rfl hd removed (new := new) rfl
        fun t copies draws job waiting ranges slots watch asked => ?_
      obtain ⟨wraps, rest⟩ := removed.wraps_of copies
      exact ⟨rest, ⟨draws, job, waiting, ranges, slots, watch, asked⟩, fun k => by rw [wraps]; exact left k⟩
    · exact next_newVerifier h hr rfl hd (.refl _ _) (new := new) (if_neg (by simpa using hne))
        fun t copies draws job waiting ranges slots watch asked =>
          ⟨copies, draws, job, waiting, ranges, slots, watch, asked⟩
    · intro range access q v h hq hqc filled hv fresh hdef hop room
      have effect : requestEffect (.grant id cb secret target range access new) c key (atVerdict c key s)
        = grantEffect c key (.slot q) (rangeIx range) (accessOf access) new (atVerdict c key s) := by
        rw [← hq]
        rfl
      have asks := grantEffect_asks (key := key) (a := accessOf access) (second := new)
        (noneStale_atVerdict (c := c) (key := key) fresh)
        (by rw [atVerdict, countsReset_state]; exact filled) (by rw [Bool.and_eq_true]; exact ⟨hdef, hop⟩) room hqc
      have job : jobAgainst .security new (atVerdict c key s).copies.creds[q].verifier = ⟨.security, new, v.salt, v.wf⟩ := by
        rw [atVerdict, countsReset_verifier, hv]
        rfl
      rw [job] at asks
      exact next_secSecond h hr rfl hd (effect.trans asks) rfl rfl fun t copies draws derive ranges slots watch asked =>
        ⟨copies, draws, congrArg Derivation.job derive, congrArg Derivation.waiting derive, ranges, slots, watch,
          asked⟩
  · intro id cb target secret new lost j old s hb hj hc key
    refine ⟨?_, ?_, fun hs => ?_, ?_⟩
    · intro hs fresh one q
      have passed := rewrapFrom_wraps q old key (List.finRange 16) (List.nodup_finRange 16) (atSecond key s) fresh one
      have made := frame_rewrapFrom q old key (List.finRange 16) (atSecond key s)
      have ends := secretChanged_eq q old key (atSecond key s)
      rw [made.cCreds] at ends
      refine next_newRecord hb hj hc hs made ends fun t wraps rest answer => ?_
      refine ⟨rest, fun k => ?_, _, answer⟩
      rw [wraps]
      refine (passed k).trans (Option.map_congr fun e _ => ?_)
      simp only [rewrapped, List.mem_finRange, true_and]
    · intro hs q
      exact next_second hb hj hc hs rfl rfl (noted_put _ _) fun st p hreq hphase => ⟨rfl, p, rfl, hreq, hphase⟩
    · exact next_second hb hj hc hs rfl rfl (noted_put _ _) fun st p hreq hphase => ⟨rfl, p, rfl, hreq, hphase⟩
    · intro range access hs q r req refused
      have effect : secondDerived req [old] key (atSecond key s) = grantDerived q r (accessOf access) key (atSecond key s) := rfl
      have refuses : ∀ k, grantDerived q r (accessOf access) key (atSecond key s) = secFinish k .empty (atSecond key s) →
        refused k := fun k e => next_second_atOnce hb hj hc hs (effect.trans e)
      refine ⟨fun wrong => refuses _ (grantDerived_mismatch wrong), fun right => ?_⟩
      have grants := grantDerived_eq (r := r) (a := accessOf access) (s := atSecond key s) right
      refine ⟨fun shut => refuses _ (grants.trans (addGrant_notOpen (s := atSecond key s) shut)), ?_⟩
      · intro fresh h hop
        have run : (atSecond key s).ranges[r].run = .opened h := hop
        have adds : ∀ (k : Code) (i : Fin 64) (e : WrapEntry), k ≠ .tableFull →
            addWrap (.slot q) (.cred key) r (accessOf access) h.key (atSecond key s) = (k, putWrap i (some e) (atSecond key s)) →
            Next (exec .derivationComplete s) fun t =>
              t.copies = { s.copies with wraps := s.copies.wraps.set i (some e) } ∧ Answering req .ok (.code k) t :=
          fun k i e hk added =>
            next_second hb hj hc hs ((effect.trans grants).trans (addGrant_eq run hk added)) rfl (noted_put _ _)
              fun st p hreq hphase => ⟨rfl, p, rfl, hreq, hphase⟩
        refine ⟨fun i e hi he => adds _ i _ (by decide) (addWrap_replaces (s := atSecond key s) fresh hi he), fun none => ⟨fun full => refuses _ ?_,
          fun i free => adds _ i _ (by decide) (addWrap_creates (s := atSecond key s) none free)⟩⟩
        exact grants.trans (addGrant_full run none full)

end Sys2Proof.Machine
end


-- ==== Sys2Proof/Proofs/RequestUnderWay.lean ====
section
/-! PROOF. While a success verdict's effect runs, its request stays in the test and the writes asked for stay noted,
whatever ranges the effect closes, opens or renews (R69, R87). -/

-- As in the tests: each theorem that waits for the kernel in parallel would keep a thread.
set_option Elab.async false

namespace Sys2Proof.Machine

/-- The request in progress is `req`, at its verdict, and has asked for a write. -/
def UnderWay (req : Instr) (m : State) : Prop := (∃ j, m.cmd.sec = some j ∧ j.req = req ∧ j.phase = .testing) ∧ Noted m

variable {req : Instr}

theorem underWay_keeps : Keeps (UnderWay req) (allFields.filter fun f => f ≠ .requests ∧ f ≠ .sec) := fun _ _ f h =>
  ⟨by rw [f.sec]; exact h.1, noted_keeps.of h.2 f⟩

theorem underWay_atVerdict {c : Fin 8} {key : CredKey} {s : State} (h : Succeeds req c key s) :
    UnderWay req (atVerdict c key s) := by
  obtain ⟨lost, hj⟩ := h.atVerdict_sec
  exact ⟨⟨_, hj, rfl, rfl⟩, noted_atVerdict c key s⟩

/-- An effect that ends in an answer leaves the rest as it had made it. -/
theorem next_answering {c : Fin 8} {key : CredKey} {s : State} (h : Succeeds req c key s) (hr : AtRest s)
    (hw : verdictWithheld req c .settled = none) {k : Code} {b : AnswerBody} {m : State}
    (he : requestEffect req c key (atVerdict c key s) = secFinish k b m) (hu : UnderWay req m) {P : State → Prop}
    (hp : ∀ t, Frame [.sec, .requests] m t → Answering req k b t → P t) : Next (exec .derivationComplete s) P := by
  obtain ⟨⟨j, hj, hreq, -⟩, noted⟩ := hu
  refine ⟨_, exec_succeeds h hr hw, ?_⟩
  rw [he, secFinish_waits hj noted]
  exact hp _ ⟨rfl, rfl, le_rfl⟩ ⟨_, rfl, hreq, rfl⟩

/-! ## Operations that ask for writes -/

/-- A write asked for, and nothing of the request changed. -/
theorem UnderWay.of_noted {L : List Field} {s t : State} (h : UnderWay req s) (f : Frame L s t)
    (n : Noted s → Noted t) (hf : .sec ∉ L := by decide +kernel) : UnderWay req t :=
  ⟨by rw [f.sec hf]; exact h.1, n h.2⟩

theorem underWay_put (w : RecWrite) (s : State) (h : UnderWay req s) : UnderWay req (put w s) := ⟨h.1, noted_put w s⟩

theorem underWay_modSec {f : SecJob → SecJob} (hf : ∀ j, (f j).req = j.req ∧ (f j).phase = j.phase) {s : State}
    (h : UnderWay req s) : UnderWay req (modSec f s) := by
  obtain ⟨⟨j, hj, hreq, hphase⟩, noted⟩ := h
  exact ⟨⟨f j, by rw [modSec, hj]; rfl, (hf j).1.trans hreq, (hf j).2.trans hphase⟩, noted⟩

theorem underWay_awaitWrites (ids : List Nat) (s : State) (h : UnderWay req s) : UnderWay req (awaitWrites ids s) :=
  underWay_modSec (fun j => by split <;> exact ⟨rfl, rfl⟩) h

theorem underWay_settleWaiters (s : State) (h : UnderWay req s) : UnderWay req (settleWaiters s) := by
  obtain ⟨⟨j, hj, hreq, hphase⟩, noted⟩ := h
  have same : settleSec s = s := by
    unfold settleSec
    rw [hj]
    exact if_neg fun x => by
      rw [hphase] at x
      cases x.1
  rw [settleWaiters_eq, same]
  exact underWay_keeps.of ⟨⟨j, hj, hreq, hphase⟩, noted⟩ (frame_settlePlat s)

theorem underWay_pauseRekey (r : Fin 16) (s : State) (h : UnderWay req s) : UnderWay req (pauseRekey r s) := by
  have withdrawn := underWay_keeps.of h (frame_withdrawWindow s)
  unfold pauseRekey
  split
  · split
    · dsimp only
      split
      · exact withdrawn
      · exact underWay_put _ _ withdrawn
    · exact h
  · split
    · split
      · exact underWay_keeps (s := s) (Frame.within (L := [.seen]) ⟨rfl, rfl, le_rfl⟩) h
      · exact h
    · exact h

theorem underWay_discardRekey (s : State) (h : UnderWay req s) : UnderWay req (discardRekey s) := by
  unfold discardRekey
  split
  · exact h
  · exact underWay_put _ _ h

/-- The writes that were noted before stay noted. -/
theorem noted_withTouched (f : State → State) {s : State} (h : Noted s) : Noted (withTouched f s).2 :=
  fun x => h (List.append_eq_nil_iff.mp x).1

/-! ## Closes, aborts and refusals -/

theorem underWay_closeFinish (r : Fin 16) (s : State) (h : UnderWay req s) : UnderWay req (closeFinish r s) := by
  unfold closeFinish
  split
  · exact h
  · rename_i hd _
    have dropped := underWay_keeps.of (underWay_keeps.of h (frame_retireHeld hd s)) (frame_setRun r .locked _)
    have paused := dropped.of_noted (frame_withTouched (frame_pauseRekey r) _) (noted_withTouched (pauseRekey r))
    dsimp only
    refine underWay_settleWaiters _ ?_
    split
    · exact underWay_awaitWrites _ _ paused
    · exact paused

theorem underWay_closeIfDrained (r : Fin 16) (s : State) (h : UnderWay req s) : UnderWay req (closeIfDrained r s) := by
  rw [closeIfDrained_eq]
  split
  · exact underWay_closeFinish r s h
  · exact h

theorem underWay_leaveAdmitted (x : Xfer) (s : State) (h : UnderWay req s) : UnderWay req (leaveAdmitted x s) := by
  have unpinned := underWay_keeps.of h
    (Frame.foldl (f := fun s k => unpinSlot k s) (fun s k => frame_setSlot k _ s) (slotsNamed x.segs) s)
  have closed := keeps_foldl (f := fun s r => closeIfDrained r s) (fun s r => underWay_closeIfDrained r s)
    (rangesNamed x.segs) _ unpinned
  unfold leaveAdmitted
  dsimp only
  split
  · exact underWay_keeps.of closed (frame_sendMigrateOrder _)
  · exact closed

theorem underWay_abortTag (t : Fin 32) (s : State) (h : UnderWay req s) : UnderWay req (abortTag t s) := by
  unfold abortTag
  split
  · exact underWay_leaveAdmitted _ _ (underWay_keeps.of h (frame_setEntry t _ s))
  · exact h

theorem underWay_abortWhere (p : Entry → Bool) (s : State) (h : UnderWay req s) : UnderWay req (abortWhere p s) := by
  refine keeps_foldl (fun s t hs => ?_) _ s h
  split
  · exact underWay_abortTag t s hs
  · exact hs

theorem underWay_refuseHeldWhere (p : Extent → Bool) (c : Code) (r : Option (Fin 16)) (s : State) (h : UnderWay req s) :
    UnderWay req (refuseHeldWhere p c r s) := underWay_keeps.of h (frame_refuseHeldWhere p c r s)

theorem underWay_immediateClose (r : Fin 16) (s : State) (h : UnderWay req s) : UnderWay req (immediateClose r s) := by
  have aborted := underWay_abortWhere (admittedIn r) s h
  unfold immediateClose
  split
  · exact h
  · refine underWay_closeFinish r _ ?_
    split
    · exact underWay_refuseHeldWhere _ _ _ _ aborted
    · exact aborted

theorem underWay_closeAllAtOnce (s : State) (h : UnderWay req s) : UnderWay req (closeAllAtOnce s) :=
  keeps_foldl (f := fun s r => immediateClose r s) (fun s r => underWay_immediateClose r s) _ _
    (underWay_keeps.of h (frame_withdrawWindow s))

/-! ## Renewal, deletion and opening -/

theorem underWay_letGo (r : Fin 16) (s : State) (h : UnderWay req s) : UnderWay req (letGo r s) := by
  have dropped := underWay_keeps.of h (frame_dropRuntime r s)
  unfold letGo
  split
  · exact underWay_discardRekey _ dropped
  · exact underWay_pauseRekey r _ dropped

theorem underWay_freshKeys (r : Fin 16) (upd : RangeRec → RangeRec) (s : State) (h : UnderWay req s) :
    UnderWay req (freshKeys r upd s) :=
  h.of_noted (frame_freshKeys r upd s) fun _ => noted_keeps.of (noted_removeWraps _ _ (noted_put _ _)) (frame_setMark r _ _)

theorem underWay_renewRange (r : Fin 16) (upd : RangeRec → RangeRec) (s : State) (h : UnderWay req s) :
    UnderWay req (renewRange r upd s).2.2 := by
  rw [renewRange_eq]
  have settled := underWay_settleWaiters _ (underWay_keeps.of (underWay_freshKeys r upd _ (underWay_letGo r s h))
    (frame_reopen r (letGo r s).draws _))
  dsimp only
  split
  · exact underWay_keeps.of settled (frame_releaseHold _)
  · exact settled

theorem underWay_removeWraps (p : WrapEntry → Bool) (s : State) (h : UnderWay req s) : UnderWay req (removeWraps p s) :=
  h.of_noted (frame_removeWraps p s) (noted_removeWraps p s)

theorem underWay_deleteRange (r : Fin 16) (s : State) (h : UnderWay req s) : UnderWay req (deleteRange r s) := by
  have dropped := underWay_keeps.of h (frame_dropRuntime r s)
  unfold deleteRange
  exact underWay_settleWaiters _ (underWay_keeps.of (underWay_removeWraps _ _ (underWay_put _ _ dropped)) (frame_setMark r _ _))

theorem underWay_ownerEntries (c : Fin 8) (under : CredKey) (r : Fin 16) (key : Key) (s : State) (h : UnderWay req s) :
    UnderWay req (ownerEntries c under r key s) :=
  h.of_noted (frame_ownerEntries c under r key s) (noted_ownerEntries c under r key s)

theorem underWay_resumeRekey (r : Fin 16) (s : State) (h : UnderWay req s) : UnderWay req (resumeRekey r s) := by
  unfold resumeRekey
  split
  · split
    · refine underWay_keeps.of ?_ (frame_chooseWindow _)
      split
      · exact underWay_put _ _ h
      · exact h
    · exact h
  · exact h

theorem underWay_openRange (r : Fin 16) (key : Key) (a : Access) (s : State) (h : UnderWay req s) :
    UnderWay req (openRange r key a s).2 := by
  unfold openRange
  split
  · exact underWay_keeps.of (underWay_keeps.of h (frame_setRun r _ s)) (frame_setMark r _ _)
  · exact h
  · exact h
  · split
    · exact h
    · split
      · exact h
      · rename_i hk
        exact underWay_resumeRekey r _ (underWay_keeps.of (underWay_keeps.of (underWay_keeps.of h (frame_takeSlots hk))
          (frame_setRun r _ _)) (frame_setMark r _ _))

end Sys2Proof.Machine
end


-- ==== Sys2Proof/Proofs/Renewal.lean ====
section
/-! PROOF. What a renewal leaves of runtime part, slots, entries and wrap table (R25), what an abort that finds nothing does,
and the entries a renewed range is given (R97, R100). -/

-- As in the tests: each theorem that waits for the kernel in parallel would keep a thread.
set_option Elab.async false

namespace Sys2Proof.Machine

/-! ## Aborts -/

theorem abortTag_eq_self {t : Fin 32} {s : State} (h : ∀ x, s.adm.table[t] ≠ .admitted x) : abortTag t s = s := by
  unfold abortTag
  split
  · rename_i x hx
    exact absurd hx (h x)
  · rfl

/-- An abort that names no ADMITTED entry does nothing. -/
theorem abortWhere_eq_self {p : Entry → Bool} {s : State}
    (h : ∀ (g : Fin 32) x, s.adm.table[g] = .admitted x → p (.admitted x) = false) : abortWhere p s = s := by
  refine keeps_foldl (Inv := fun m => m = s) (fun m t hm => ?_) _ s rfl
  subst hm
  split
  · rename_i hp
    refine abortTag_eq_self fun x hx => ?_
    rw [hx, h t x hx] at hp
    cases hp
  · rfl

theorem drained_iff (r : Fin 16) (s : State) :
    drained r s = true ↔ ∀ (g : Fin 32) x, s.adm.table[g] = .admitted x → admittedIn r (.admitted x) = false := by
  simp only [drained, List.all_eq_true, List.mem_finRange, true_imp_iff, Bool.not_eq_true']
  constructor
  · intro h g x hx
    rw [← hx]
    exact h g
  · intro h g
    cases hg : s.adm.table[g] with
    | admitted x => exact h g x hg
    | _ => rfl

theorem abortWhere_of_drained {r : Fin 16} {s : State} (h : drained r s = true) : abortWhere (admittedIn r) s = s :=
  abortWhere_eq_self ((drained_iff r s).mp h)

/-! ## The runtime part lets go -/

theorem dropRuntime_ranges (r : Fin 16) (s : State) :
    (dropRuntime r s).ranges = s.ranges.set r ⟨.locked, s.ranges[r].sleepMark⟩ := by
  unfold dropRuntime
  split
  · rename_i h _
    rw [setRun, (frame_retireHeld h s).ranges]
  · rfl

theorem dropRuntime_slots_held {r : Fin 16} {s : State} {h : Held} (hh : heldBy s.ranges[r].run = some h) :
    SlotsRetired h s (dropRuntime r s) := by
  unfold dropRuntime
  rw [hh]
  exact (retireHeld_slots h s).2

theorem dropRuntime_slots_none {r : Fin 16} {s : State} (hh : heldBy s.ranges[r].run = none) :
    (dropRuntime r s).slots = s.slots := by
  unfold dropRuntime
  rw [hh]
  rfl

theorem letGo_eq_frame (r : Fin 16) (s : State) : Frame discardFields (dropRuntime r s) (letGo r s) :=
  .ite (frame_discardRekey _) (frame_pauseRekey r _).within

theorem ranges_set_set (r : Fin 16) (v w : RangeRt) (s : State) : (s.ranges.set r v).set r w = s.ranges.set r w := by
  ext i hi
  by_cases h : (r : Nat) = i <;> simp [h]

/-- R25: before the range is opened again it is LOCKED, with a clear mark. -/
theorem freshKeys_ranges (r : Fin 16) (upd : RangeRec → RangeRec) (s : State) :
    (freshKeys r upd (letGo r s)).ranges = s.ranges.set r ⟨.locked, false⟩ := by
  have before : ∀ m : State, m.ranges = s.ranges.set r ⟨.locked, s.ranges[r].sleepMark⟩ →
      (setMark r false m).ranges = s.ranges.set r ⟨.locked, false⟩ := by
    intro m h
    have run : m.ranges[r].run = .locked := by rw [ranges_set_get h, if_pos rfl]
    change m.ranges.set r ⟨m.ranges[r].run, false⟩ = _
    rw [run, h, ranges_set_set]
  refine before _ ?_
  rw [removeRangeWraps, (frame_removeWraps _ _).ranges, putRange, (frame_put _ _ .cRanges).ranges]
  change (letGo r s).ranges = _
  rw [(letGo_eq_frame r s).ranges, dropRuntime_ranges]

theorem freshKeys_slots (r : Fin 16) (upd : RangeRec → RangeRec) (s : State) :
    (freshKeys r upd (letGo r s)).slots = (dropRuntime r s).slots := by
  rw [(frame_freshKeys r upd _).slots, (letGo_eq_frame r s).slots]

/-! ## The range is opened again -/

theorem emptySlots_congr {s t : State} (h : t.slots = s.slots) : emptySlots t = emptySlots s := by
  unfold emptySlots
  rw [h]

theorem reopen_none {r : Fin 16} {n : Nat} {s : State} (h : emptySlots s = []) : reopen r n s = (false, s) := by
  have : allocOne r ⟨n + 1⟩ s = none := by
    unfold allocOne
    rw [h]
  unfold reopen
  rw [this]

theorem reopen_some {r : Fin 16} {n : Nat} {s : State} {k : Fin 18} {l : List (Fin 18)} (h : emptySlots s = k :: l) :
    reopen r n s = (true, setRun r (.opened ⟨.readWrite, ⟨n⟩, k, none⟩) (setSlot k (.live r ⟨n + 1⟩ 0) s)) := by
  have : allocOne r ⟨n + 1⟩ s = some (k, setSlot k (.live r ⟨n + 1⟩ 0) s) := by
    unfold allocOne
    rw [h]
  unfold reopen
  rw [this]

/-- A release of the hold list changes no slot but by its pins. -/
theorem live_releaseHold {o : Fin 16} {m : Key} {k : Fin 18} {s : State} (h : ∃ n, s.slots[k] = .live o m n) :
    ∃ n, (releaseHold s).slots[k] = .live o m n := by
  refine keeps_foldl (Inv := fun s => ∃ n, s.slots[k] = .live o m n) (fun s t h => ?_) _ s h
  unfold releaseOne
  split
  · split
    · rw [(frame_refuseHeld _ _ t s).slots]
      exact h
    · rename_i segs _
      obtain ⟨n, hn⟩ := h
      unfold admitEntry
      dsimp only
      rw [(frame_pushFrame _ _).slots, (pinPass segs _).2 k]
      split
      · exact ⟨n + 1, by
          change pinnedSlot s.slots[k] = _
          rw [hn]
          rfl⟩
      · exact ⟨n, hn⟩
  · exact h

/-- A release changes no entry but the HELD ones. -/
theorem table_releaseHold {g : Fin 32} {e : Entry} {s : State} (h : s.adm.table[g] = e) (hn : ∀ c x, e ≠ .held c x) :
    (releaseHold s).adm.table[g] = e := by
  refine keeps_foldl (Inv := fun s => s.adm.table[g] = e) (fun s t h => ?_) _ s h
  unfold releaseOne
  split
  · rename_i c x held
    have other : g ≠ t := fun x => by
      rw [x, held] at h
      exact hn _ _ h.symm
    split
    · unfold refuseHeld
      rw [(frame_pushFrame _ _).table]
      exact (setEntry_get t g _ s).trans ((if_neg other).trans h)
    · rename_i segs _
      unfold admitEntry
      dsimp only
      rw [(frame_pushFrame _ _).table, (pinPass segs _).1]
      exact (setEntry_get t g _ _).trans ((if_neg other).trans h)
  · exact h

/-! ## The whole renewal -/

/-- What a renewal of `r` in `s` leaves of the runtime part and the slots: opened in slot `k`, or LOCKED. -/
structure Renewed (r : Fin 16) (s t : State) (got : Bool) : Prop where
  none : emptySlots (dropRuntime r s) = [] → got = false ∧ t.ranges = s.ranges.set r ⟨.locked, false⟩
    ∧ (rekeyOn r s.copies = false → t.slots = (dropRuntime r s).slots)
  some : ∀ k l, emptySlots (dropRuntime r s) = k :: l →
    got = true ∧ t.ranges = s.ranges.set r ⟨.opened ⟨.readWrite, ⟨s.draws⟩, k, .none⟩, false⟩
      ∧ (rekeyOn r s.copies = false → t.slots = (dropRuntime r s).slots.set k (.live r ⟨s.draws + 1⟩ 0))
      ∧ ∃ n, t.slots[k] = .live r ⟨s.draws + 1⟩ n

theorem Renewed.cases {r : Fin 16} {s t : State} {got : Bool} (h : Renewed r s t got) :
    (got = true ∧ ∃ k : Fin 18, t.ranges = s.ranges.set r ⟨.opened ⟨.readWrite, ⟨s.draws⟩, k, .none⟩, false⟩
      ∧ ∃ n, t.slots[k] = .live r ⟨s.draws + 1⟩ n)
    ∨ (got = false ∧ t.ranges = s.ranges.set r ⟨.locked, false⟩) := by
  cases e : emptySlots (dropRuntime r s) with
  | nil =>
    obtain ⟨h1, h2, -⟩ := h.none e
    exact .inr ⟨h1, h2⟩
  | cons k l =>
    obtain ⟨h1, h2, -, h4⟩ := h.some k l e
    exact .inl ⟨h1, k, h2, h4⟩

theorem renewRange_renewed (r : Fin 16) (upd : RangeRec → RangeRec) (s : State) :
    Renewed r s (renewRange r upd s).2.2 (renewRange r upd s).2.1 := by
  have named : rekeyOn r (dropRuntime r s).copies = rekeyOn r s.copies := by rw [(frame_dropRuntime r s).copies]
  have draws : (letGo r s).draws = s.draws := (frame_letGo r s).draws
  have ranges := freshKeys_ranges r upd s
  have slots := freshKeys_slots r upd s
  have empties : emptySlots (freshKeys r upd (letGo r s)) = emptySlots (dropRuntime r s) := emptySlots_congr slots
  rw [renewRange_eq, named, draws]
  generalize freshKeys r upd (letGo r s) = f at ranges slots empties ⊢
  have told : ∀ m : State, (if rekeyOn r s.copies = true then releaseHold (settleWaiters m) else settleWaiters m).ranges
      = m.ranges := fun m => by
    split
    · rw [(frame_releaseHold _).ranges, (frame_settleWaiters m).ranges]
    · rw [(frame_settleWaiters m).ranges]
  have kept : ∀ m : State, rekeyOn r s.copies = false →
      (if rekeyOn r s.copies = true then releaseHold (settleWaiters m) else settleWaiters m).slots = m.slots := fun m h => by
    rw [h, if_neg Bool.false_ne_true, (frame_settleWaiters m).slots]
  refine ⟨fun e => ?_, fun k l e => ?_⟩
  · rw [reopen_none (empties.trans e)]
    exact ⟨rfl, (told f).trans ranges, fun h => (kept f h).trans slots⟩
  · rw [reopen_some (empties.trans e)]
    have live : (setRun r (.opened ⟨.readWrite, ⟨s.draws⟩, k, .none⟩) (setSlot k (.live r ⟨s.draws + 1⟩ 0) f)).slots[k]
        = .live r ⟨s.draws + 1⟩ 0 := (setSlot_get k k _ f).trans (if_pos rfl)
    have opened : (setRun r (.opened ⟨.readWrite, ⟨s.draws⟩, k, .none⟩) (setSlot k (.live r ⟨s.draws + 1⟩ 0) f)).ranges
        = s.ranges.set r ⟨.opened ⟨.readWrite, ⟨s.draws⟩, k, .none⟩, false⟩ := by
      have mark : f.ranges[r].sleepMark = false := by rw [ranges_set_get ranges, if_pos rfl]
      change f.ranges.set r ⟨_, f.ranges[r].sleepMark⟩ = _
      rw [mark, ranges, ranges_set_set]
    have filled : (setRun r (.opened ⟨.readWrite, ⟨s.draws⟩, k, .none⟩) (setSlot k (.live r ⟨s.draws + 1⟩ 0) f)).slots
        = (dropRuntime r s).slots.set k (.live r ⟨s.draws + 1⟩ 0) := by
      change f.slots.set k _ = _
      rw [slots]
    refine ⟨rfl, (told _).trans opened, fun h => (kept _ h).trans filled, ?_⟩
    have live' : ∃ n, (settleWaiters (setRun r (.opened ⟨.readWrite, ⟨s.draws⟩, k, .none⟩)
        (setSlot k (.live r ⟨s.draws + 1⟩ 0) f))).slots[k] = .live r ⟨s.draws + 1⟩ n :=
      ⟨0, by rw [(frame_settleWaiters _).slots]; exact live⟩
    dsimp only
    by_cases hn : rekeyOn r s.copies = true
    · rw [if_pos hn]
      exact live_releaseHold live'
    · rw [if_neg hn]
      exact live'

theorem renewRange_key (r : Fin 16) (upd : RangeRec → RangeRec) (s : State) : (renewRange r upd s).1 = ⟨s.draws⟩ := by
  rw [renewRange_eq, (frame_letGo r s).draws]

/-- R17, R25: the range's wrap entries go, and no other. -/
theorem renewRange_wraps (r : Fin 16) (upd : RangeRec → RangeRec) (s : State) (i : Fin 64) :
    (renewRange r upd s).2.2.copies.wraps[i]
      = if s.copies.wraps[i].any (fun e => decide (e.range = r)) = true then none else s.copies.wraps[i] := by
  have fresh : (freshKeys r upd (letGo r s)).copies.wraps[i]
      = if s.copies.wraps[i].any (fun e => decide (e.range = r)) = true then none else s.copies.wraps[i] := by
    have kept : ∀ v : RangeRec, ∀ m : State, (putRange r v m).copies.wraps = m.copies.wraps := fun _ _ => rfl
    rw [freshKeys, (frame_setMark r false _).cWraps, removeRangeWraps, removeWraps_wraps, kept]
    change (if (letGo r s).copies.wraps[i].any _ = true then none else (letGo r s).copies.wraps[i]) = _
    rw [(frame_letGo r s).cWraps]
  have kept : ∀ {m t : State} {x : Option WrapEntry}, t.copies.wraps = m.copies.wraps → m.copies.wraps[i] = x →
      t.copies.wraps[i] = x := fun h hm => by
    rw [h]
    exact hm
  have settled := kept (((frame_settleWaiters _).cWraps.trans (frame_reopen r (letGo r s).draws _).cWraps)) fresh
  rw [renewRange_eq]
  dsimp only
  split
  · exact kept (frame_releaseHold _).cWraps settled
  · exact settled

/-- R25, R53: an entry that is not HELD stays. -/
theorem renewRange_table {r : Fin 16} {upd : RangeRec → RangeRec} {s : State} {g : Fin 32} {e : Entry}
    (h : s.adm.table[g] = e) (hn : ∀ c x, e ≠ .held c x) : (renewRange r upd s).2.2.adm.table[g] = e := by
  rw [renewRange_eq]
  dsimp only
  have settled : (settleWaiters (reopen r (letGo r s).draws (freshKeys r upd (letGo r s))).2).adm.table[g] = e := by
    rw [(frame_settleWaiters _).table, (frame_reopen r _ _).table, (frame_freshKeys r upd _).table, (frame_letGo r s).table]
    exact h
  split
  · exact table_releaseHold settled hn
  · exact settled

/-- R25, R123: no rekey of the range stands after it. -/
theorem rekeyOn_letGo (r : Fin 16) (s : State) : rekeyOn r (letGo r s).copies = false := by
  unfold letGo
  split
  · unfold discardRekey
    split
    · rename_i h
      unfold rekeyOn
      rw [h]
    · rfl
  · rename_i h
    generalize dropRuntime r s = m at h ⊢
    have same : (pauseRekey r m).copies.rekey = m.copies.rekey := by
      unfold pauseRekey
      split
      · rename_i k hk
        have : k.range ≠ r := fun x => h (by unfold rekeyOn; rw [hk]; exact decide_eq_true x)
        rw [if_neg this]
      · split
        · split <;> rfl
        · rfl
    unfold rekeyOn at h ⊢
    rw [same]
    exact Bool.eq_false_iff.mpr h

theorem rekeyOn_renewRange (r : Fin 16) (upd : RangeRec → RangeRec) (s : State) :
    rekeyOn r (renewRange r upd s).2.2.copies = false := by
  have kept : ∀ {m t : State}, t.copies.rekey = m.copies.rekey → rekeyOn r m.copies = false → rekeyOn r t.copies = false := by
    intro m t h hm
    unfold rekeyOn at hm ⊢
    rw [h]
    exact hm
  rw [renewRange_eq]
  dsimp only
  have settled := kept (((frame_settleWaiters _).cRekey.trans (frame_reopen r (letGo r s).draws _).cRekey).trans
    (frame_freshKeys r upd (letGo r s)).cRekey) (rekeyOn_letGo r s)
  split
  · exact kept (frame_releaseHold _).cRekey settled
  · exact settled

end Sys2Proof.Machine
end


-- ==== Sys2Proof/Proofs/RangesRenewed.lean ====
section
/-! PROOF. The entries of a renewed range (R97, R100, R170), and DEFINE_RANGE, DELETE_RANGE, ERASE_RANGE and
SET_RANGE_ATTRIBUTES (R96 to R100): O41, O43. -/

-- As in the tests: each theorem that waits for the kernel in parallel would keep a thread.
set_option Elab.async false

namespace Sys2Proof.Machine

/-! ## Counting entries -/

/-- A property that is one of two which exclude each other holds as often as both together. -/
theorem length_filter_either {α : Type} {p q r : α → Bool} (l : List α) (h : ∀ a, p a = (q a || r a))
    (x : ∀ a, q a = true → r a = false) : (l.filter p).length = (l.filter q).length + (l.filter r).length := by
  induction l with
  | nil => rfl
  | cons a l ih =>
    cases hq : q a with
    | true => simp [h, hq, x a hq, ih]; omega
    | false => cases hr : r a <;> simp [h, hq, hr, ih]; omega

/-- R17: what is left in a table from which a range's entries have gone. -/
theorem wrapCount_removed {recs recs' : Records} {r : Fin 16}
    (h : ∀ i : Fin 64, recs'.wraps[i] = if recs.wraps[i].any (fun e => decide (e.range = r)) = true then none else recs.wraps[i]) :
    wrapCount recs = wrapCount recs' + wrapCountOf r recs := by
  refine length_filter_either _ (fun i => ?_) (fun i hi => ?_)
  · rw [h]
    generalize recs.wraps[i] = e
    cases e with
    | none => rfl
    | some e => by_cases hr : e.range = r <;> simp [hr]
  · rw [h] at hi
    generalize recs.wraps[i] = e at hi
    cases e with
    | none => rfl
    | some e =>
      by_cases hr : e.range = r
      · simp [hr] at hi
      · simp [hr]

theorem wrapCount_putWrap {k : Fin 64} {e : WrapEntry} {s : State} (h : s.copies.wraps[k] = none) :
    wrapCount (putWrap k (some e) s).copies = wrapCount s.copies + 1 := by
  have one : ∀ k : Fin 64, ((List.finRange 64).filter fun i => decide (i = k)).length = 1 := by decide +kernel
  rw [← one k]
  refine length_filter_either _ (fun i => ?_) (fun i hi => ?_)
  · rw [putWrap_wraps]
    by_cases hk : i = k <;> simp [hk]
  · refine decide_eq_false fun x => ?_
    rw [x, h] at hi
    cases hi

theorem freeWrap_of_room {recs : Records} (h : wrapCount recs < 64) : ∃ k, freeWrap recs = some k := by
  cases e : freeWrap recs with
  | some k => exact ⟨k, rfl⟩
  | none => exact absurd ((freeWrap_eq_none recs).mp e) (by omega)

/-! ## The owner's entry and the DEVICE entry -/

/-- R97: the owner FULL entry of a range under its range key. -/
def ownerOf (c : Fin 8) (under : CredKey) (r : Fin 16) (key : Key) (recs : Records) : WrapEntry :=
  ⟨.slot c, r, .full, recs.ranges[r].salt, ⟨key, .cred under⟩⟩

/-- R97: the DEVICE FULL entry of a range under its range key. -/
def deviceOf (r : Fin 16) (key : Key) (s : State) : WrapEntry :=
  ⟨.device, r, .full, s.copies.ranges[r].salt, ⟨key, .device s.deviceKey⟩⟩

section Entries

variable {c : Fin 8} {under : CredKey} {r : Fin 16} {key : Key} {s : State}

/-- An entry added where there was none. -/
theorem addWrap_absent {who : Holder} {u : WrapUnder} (h : findWrap who r s.copies = none) :
    (∃ k, freeWrap s.copies = some k
      ∧ (addWrap who u r .full key s).2 = putWrap k (some ⟨who, r, .full, s.copies.ranges[r].salt, ⟨key, u⟩⟩) s)
    ∨ (freeWrap s.copies = none ∧ (addWrap who u r .full key s).2 = s) := by
  cases e : freeWrap s.copies with
  | some k => exact .inl ⟨k, rfl, by rw [addWrap_creates h e]⟩
  | none => exact .inr ⟨rfl, by rw [addWrap_full h e]⟩

/-- Between `s` and `t` entries of the list, and no others, have been added in free records. -/
structure Added (l : List WrapEntry) (s t : State) : Prop where
  only : ∀ (i : Fin 64) w, t.copies.wraps[i] = some w → s.copies.wraps[i] = some w ∨ w ∈ l
  kept : ∀ (i : Fin 64) w, s.copies.wraps[i] = some w → t.copies.wraps[i] = some w
  made : wrapCount s.copies + l.length ≤ 64 → ∀ w ∈ l, ∃ i : Fin 64, t.copies.wraps[i] = some w
  count : wrapCount t.copies ≤ wrapCount s.copies + l.length

theorem Added.nil (s : State) : Added [] s s :=
  ⟨fun _ _ h => .inl h, fun _ _ h => h, fun _ _ hw => absurd hw List.not_mem_nil, le_rfl⟩

theorem Added.append {l m : List WrapEntry} {s t u : State} (h : Added l s t) (k : Added m t u) : Added (l ++ m) s u := by
  refine ⟨fun i w hw => ?_, fun i w hw => k.kept i w (h.kept i w hw), fun room w hw => ?_, ?_⟩
  · rcases k.only i w hw with old | new
    · exact (h.only i w old).imp_right (List.mem_append_left m)
    · exact .inr (List.mem_append_right l new)
  · have count := h.count
    simp only [List.length_append] at room
    rcases List.mem_append.mp hw with hl | hm
    · obtain ⟨i, hi⟩ := h.made (by omega) w hl
      exact ⟨i, k.kept i w hi⟩
    · exact k.made (by omega) w hm
  · have := h.count
    have := k.count
    simp only [List.length_append]
    omega

theorem Added.of_addWrap {who : Holder} {u : WrapUnder} (h : findWrap who r s.copies = none) :
    Added [⟨who, r, .full, s.copies.ranges[r].salt, ⟨key, u⟩⟩] s (addWrap who u r .full key s).2 := by
  rcases addWrap_absent (u := u) (key := key) h with ⟨k, free, e⟩ | ⟨full, e⟩
  · rw [e]
    have empty := freeWrap_some free
    refine ⟨fun i w hw => ?_, fun i w hw => ?_, fun _ w hw => ⟨k, ?_⟩, ?_⟩
    · rw [putWrap_wraps] at hw
      split at hw
      · exact .inr (List.mem_singleton.mpr (Option.some.inj hw).symm)
      · exact .inl hw
    · rw [putWrap_wraps, if_neg]
      · exact hw
      · rintro rfl
        rw [empty] at hw
        cases hw
    · rw [putWrap_wraps, if_pos rfl, List.mem_singleton.mp hw]
    · rw [wrapCount_putWrap empty]
      exact le_rfl
  · rw [e]
    have many := (freeWrap_eq_none s.copies).mp full
    refine ⟨fun _ _ hw => .inl hw, fun _ _ hw => hw, fun room => ?_, Nat.le_add_right _ _⟩
    rw [List.length_singleton] at room
    omega

/-- R97, R100, R170: the entries that a range without any is given. -/
theorem ownerEntries_added (h : ∀ who, findWrap who r s.copies = none) :
    Added (if s.copies.ranges[r].attributes.autoOpen = true then [ownerOf c under r key s.copies, deviceOf r key s]
      else [ownerOf c under r key s.copies]) s (ownerEntries c under r key s) := by
  have first : Added [ownerOf c under r key s.copies] s (addWrap (.slot c) (.cred under) r .full key s).2 :=
    .of_addWrap (h _)
  have f := frame_addWrap (.slot c) (.cred under) r .full key s
  unfold ownerEntries
  generalize (addWrap (.slot c) (.cred under) r .full key s).2 = m at first f
  dsimp only
  rw [f.cRanges]
  split
  · have absent : findWrap .device r m.copies = none := findWrap_none.mpr fun i e he x => by
      rcases first.only i e he with old | new
      · exact findWrap_none.mp (h .device) i e old x
      · rw [List.mem_singleton.mp new] at x
        cases x.1
    have second : Added [deviceOf r key m] m (addWrap .device (deviceWrap m) r .full key m).2 := .of_addWrap absent
    have same : deviceOf r key m = deviceOf r key s := by
      unfold deviceOf
      rw [f.cRanges, f.deviceKey]
    rw [same] at second
    exact first.append second
  · exact first

end Entries

/-! ## A renewal and its answer -/

/-- The entries that a renewal with the draws from `n` on gives the range. -/
def renewalEntries (c : Fin 8) (under : CredKey) (r : Fin 16) (n : Nat) (key : Key) (autoOpen : Bool) : List WrapEntry :=
  if autoOpen = true then
    [⟨.slot c, r, .full, ⟨n + 2⟩, ⟨⟨n⟩, .cred under⟩⟩, ⟨.device, r, .full, ⟨n + 2⟩, ⟨⟨n⟩, .device key⟩⟩]
  else [⟨.slot c, r, .full, ⟨n + 2⟩, ⟨⟨n⟩, .cred under⟩⟩]

theorem mem_renewalEntries {c : Fin 8} {under : CredKey} {r : Fin 16} {n : Nat} {key : Key} {autoOpen : Bool}
    {w : WrapEntry} : w ∈ renewalEntries c under r n key autoOpen ↔
      w = ⟨.slot c, r, .full, ⟨n + 2⟩, ⟨⟨n⟩, .cred under⟩⟩
        ∨ autoOpen = true ∧ w = ⟨.device, r, .full, ⟨n + 2⟩, ⟨⟨n⟩, .device key⟩⟩ := by
  unfold renewalEntries
  cases autoOpen <;> simp

/-- What a renewal of `r` in `m`, its entries made, leaves in `t`. -/
structure Renews (c : Fin 8) (under : CredKey) (r : Fin 16) (upd : RangeRec → RangeRec) (m t : State) (got : Bool) :
    Prop where
  records : t.copies.ranges = m.copies.ranges.set r (renewedRec upd m.draws m.copies.ranges[r])
  runtime : Renewed r m t got
  rekey : rekeyOn r t.copies = false
  table : ∀ (g : Fin 32) e, m.adm.table[g] = e → (∀ c x, e ≠ .held c x) → t.adm.table[g] = e
  only : ∀ (i : Fin 64) w, t.copies.wraps[i] = some w → m.copies.wraps[i] = some w ∧ w.range ≠ r
    ∨ w ∈ renewalEntries c under r m.draws m.deviceKey (upd m.copies.ranges[r]).attributes.autoOpen
  kept : ∀ (i : Fin 64) w, m.copies.wraps[i] = some w → w.range ≠ r → t.copies.wraps[i] = some w
  made : roomFor r (upd m.copies.ranges[r]).attributes.autoOpen m.copies = true →
    ∀ w ∈ renewalEntries c under r m.draws m.deviceKey (upd m.copies.ranges[r]).attributes.autoOpen,
      ∃ i : Fin 64, t.copies.wraps[i] = some w

theorem Renewed.congr {r : Fin 16} {s t u : State} {got : Bool} (h : Renewed r s t got) (hr : u.ranges = t.ranges)
    (hs : u.slots = t.slots) : Renewed r s u got := by
  obtain ⟨none, some⟩ := h
  rw [← hr, ← hs] at none
  refine ⟨none, fun k l e => ?_⟩
  have := some k l e
  rw [← hr, ← hs] at this
  exact this

theorem removed_wraps {m u : State} {r : Fin 16}
    (h : ∀ i : Fin 64, u.copies.wraps[i]
      = if m.copies.wraps[i].any (fun e => decide (e.range = r)) = true then none else m.copies.wraps[i]) :
    (∀ (i : Fin 64) w, u.copies.wraps[i] = some w ↔ m.copies.wraps[i] = some w ∧ w.range ≠ r) := by
  intro i w
  rw [h]
  generalize m.copies.wraps[i] = e
  cases e with
  | none => simp
  | some e =>
    by_cases hr : e.range = r
    · simp only [Option.any_some, hr, decide_true, if_true, reduceCtorEq, Option.some.injEq, false_iff, not_and, not_not]
      rintro rfl
      exact hr
    · simp only [Option.any_some, hr, decide_false, Bool.false_eq_true, if_false, Option.some.injEq, iff_self_and]
      rintro rfl
      exact hr

/-- R25, R97, R100: a renewal with its entries, before the answer. -/
theorem renews (c : Fin 8) (under : CredKey) (r : Fin 16) (upd : RangeRec → RangeRec) (m : State) :
    Renews c under r upd m (ownerEntries c under r (renewRange r upd m).1 (renewRange r upd m).2.2)
      (renewRange r upd m).2.1 := by
  have records := renewRange_records r upd m
  have runtime := renewRange_renewed r upd m
  have wraps := renewRange_wraps r upd m
  have table := fun g e => renewRange_table (r := r) (upd := upd) (s := m) (g := g) (e := e)
  have rekey := rekeyOn_renewRange r upd m
  have device := (frame_renewRange r upd m).deviceKey
  rw [renewRange_key]
  generalize (renewRange r upd m).2.1 = got at runtime ⊢
  generalize (renewRange r upd m).2.2 = u at records runtime wraps table rekey device ⊢
  have left := removed_wraps wraps
  have absent : ∀ who, findWrap who r u.copies = none := fun who => findWrap_none.mpr fun i e he x =>
    ((left i e).mp he).2 x.2
  have record : u.copies.ranges[r] = renewedRec upd m.draws m.copies.ranges[r] := by
    rw [records]
    exact Vector.getElem_set_self _
  have attributes : u.copies.ranges[r].attributes = (upd m.copies.ranges[r]).attributes := by rw [record]; rfl
  have salt : u.copies.ranges[r].salt = ⟨m.draws + 2⟩ := by rw [record]; rfl
  have added := ownerEntries_added (c := c) (under := under) (key := ⟨m.draws⟩) absent
  have f := frame_ownerEntries c under r ⟨m.draws⟩ u
  have list : (if u.copies.ranges[r].attributes.autoOpen = true then
        [ownerOf c under r ⟨m.draws⟩ u.copies, deviceOf r ⟨m.draws⟩ u] else [ownerOf c under r ⟨m.draws⟩ u.copies])
      = renewalEntries c under r m.draws m.deviceKey (upd m.copies.ranges[r]).attributes.autoOpen := by
    unfold renewalEntries ownerOf deviceOf
    rw [attributes, salt, device]
  rw [list] at added
  generalize ownerEntries c under r ⟨m.draws⟩ u = t at added f ⊢
  refine ⟨f.cRanges.trans records, runtime.congr f.ranges f.slots, ?_, fun g e hg hn => ?_, fun i w hw => ?_,
    fun i w hw hr => added.kept i w ((left i w).mpr ⟨hw, hr⟩), fun room => added.made ?_⟩
  · unfold rekeyOn at rekey ⊢
    rw [f.cRekey]
    exact rekey
  · rw [f.table]
    exact table g e hg hn
  · exact (added.only i w hw).imp_left (left i w).mp
  · have count := wrapCount_removed wraps
    have le := of_decide_eq_true room
    unfold renewalEntries
    generalize (upd m.copies.ranges[r]).attributes.autoOpen = auto at le ⊢
    cases auto <;> simp at le ⊢ <;> omega

/-- What a renewal after aborts leaves of the records of the state before them. -/
structure RenewsRecords (c : Fin 8) (under : CredKey) (r : Fin 16) (upd : RangeRec → RangeRec) (s t : State) : Prop where
  records : t.copies.ranges = s.copies.ranges.set r (renewedRec upd s.draws s.copies.ranges[r])
  only : ∀ (i : Fin 64) w, t.copies.wraps[i] = some w → s.copies.wraps[i] = some w ∧ w.range ≠ r
    ∨ w ∈ renewalEntries c under r s.draws s.deviceKey (upd s.copies.ranges[r]).attributes.autoOpen
  kept : ∀ (i : Fin 64) w, s.copies.wraps[i] = some w → w.range ≠ r → t.copies.wraps[i] = some w
  made : roomFor r (upd s.copies.ranges[r]).attributes.autoOpen s.copies = true →
    ∀ w ∈ renewalEntries c under r s.draws s.deviceKey (upd s.copies.ranges[r]).attributes.autoOpen,
      ∃ i : Fin 64, t.copies.wraps[i] = some w

theorem Renews.before {c : Fin 8} {under : CredKey} {r : Fin 16} {upd : RangeRec → RangeRec} {s m t : State} {got : Bool}
    (h : Renews c under r upd m t got) (f : Frame abortFields s m) : RenewsRecords c under r upd s t := by
  obtain ⟨records, -, -, -, only, kept, made⟩ := h
  have room : roomFor r (upd s.copies.ranges[r]).attributes.autoOpen m.copies
      = roomFor r (upd s.copies.ranges[r]).attributes.autoOpen s.copies := by
    unfold roomFor wrapCount wrapCountOf
    rw [f.cWraps]
  rw [f.cRanges, f.draws] at records
  rw [f.cRanges, f.draws, f.deviceKey, f.cWraps] at only
  rw [f.cWraps] at kept
  rw [f.cRanges, f.draws, f.deviceKey, room] at made
  exact ⟨records, only, kept, made⟩

theorem renewAndOwn_eq (c : Fin 8) (key : CredKey) (r : Fin 16) (upd : RangeRec → RangeRec) (s : State) :
    renewAndOwn c key r upd s = secFinish .ok (.code (if (renewRange r upd s).2.1 then .ok else .noSlot))
      (ownerEntries c key r (renewRange r upd s).1 (renewRange r upd s).2.2) := by
  unfold renewAndOwn
  dsimp only

/-- R97, R100: an effect that renews a range, from `m` on. -/
theorem next_renews {req : Instr} {c : Fin 8} {key : CredKey} {s m : State} {r : Fin 16} {upd : RangeRec → RangeRec}
    (h : Succeeds req c key s) (hr : AtRest s) (hw : verdictWithheld req c .settled = none)
    (he : requestEffect req c key (atVerdict c key s) = renewAndOwn c key r upd m) (hu : UnderWay req m) {P : State → Prop}
    (hp : ∀ t got, Renews c key r upd m t got → Answering req .ok (.code (if got then .ok else .noSlot)) t → P t) :
    Next (exec .derivationComplete s) P := by
  have made := renews c key r upd m
  refine next_answering h hr hw (he.trans (renewAndOwn_eq c key r upd m))
    (underWay_ownerEntries c key r _ _ (underWay_renewRange r upd m hu)) fun t f answer => hp t _ ?_ answer
  generalize (renewRange r upd m).2.1 = got at made ⊢
  generalize ownerEntries c key r (renewRange r upd m).1 (renewRange r upd m).2.2 = u at made f
  obtain ⟨records, runtime, rekey, table, only, kept, entries⟩ := made
  refine ⟨f.cRanges.trans records, runtime.congr f.ranges f.slots, ?_, ?_, ?_, ?_, ?_⟩
  · unfold rekeyOn at rekey ⊢
    rw [f.cRekey]
    exact rekey
  · rw [f.table]
    exact table
  · rw [f.cWraps]
    exact only
  · rw [f.cWraps]
    exact kept
  · rw [f.cWraps]
    exact entries

/-- A request refused at its verdict changes nothing of its own (R69). -/
theorem next_refused {req : Instr} {c : Fin 8} {key : CredKey} {s : State} {k : Code} (h : Succeeds req c key s)
    (hr : AtRest s) (hw : verdictWithheld req c .settled = none)
    (he : requestEffect req c key (atVerdict c key s) = secFinish k .empty (atVerdict c key s)) :
    Next (exec .derivationComplete s) fun t =>
      OnlyRecords s t ∧ t.copies = countsReset c s.copies ∧ Answering req k .empty t :=
  next_records h hr hw he (.refl _ _) (noted_atVerdict c key s) fun _ only copies answer => ⟨only, copies, answer⟩

/-! ## DEFINE_RANGE -/

section Define

variable {c : Fin 8} {key : CredKey} {r : Fin 16} {e : Extent} {a : Attributes} {s : State}

theorem defineEffect_barred (h : rekeyBars r s.copies = true) :
    defineEffect c key r e a s = secFinish .rekeyActive .empty s := if_pos h

theorem defineEffect_overlaps (h : rekeyBars r s.copies = false) (ho : overlapsOther r e s.copies = true) :
    defineEffect c key r e a s = secFinish .overlap .empty s := by
  rw [defineEffect, h, ho]
  rfl

theorem defineEffect_full (h : rekeyBars r s.copies = false) (ho : overlapsOther r e s.copies = false)
    (room : roomFor r a.autoOpen s.copies = false) : defineEffect c key r e a s = secFinish .tableFull .empty s := by
  rw [defineEffect, h, ho, room]
  rfl

theorem defineEffect_renews (h : rekeyBars r s.copies = false) (ho : overlapsOther r e s.copies = false)
    (room : roomFor r a.autoOpen s.copies = true) : defineEffect c key r e a s
      = renewAndOwn c key r (fun old => { old with extent := some e, attributes := a })
          (abortWhere (fun x => admittedIn r x || admittedOn e x) s) := by
  rw [defineEffect, if_neg (by simp [h]), if_neg (by simp [ho]), if_neg (by simp [room])]

end Define

/-- R51: an ADMITTED entry that an abort names is ABORTING. -/
theorem abortWhere_aborting {p : Entry → Bool} {s : State} {g : Fin 32} {x : Xfer} (h : s.adm.table[g] = .admitted x)
    (hp : p (.admitted x) = true) : (abortWhere p s).adm.table[g] = .aborting x := by
  rw [abortWhere_table, h]
  exact if_pos hp

/-- Settles O41: refused with nothing of its own, or the aborts and a renewal with its entries. -/
theorem defineRangeRenewsTheRange : Obligations.DefineRangeRenewsTheRange := by
  intro id cb range attrs secret start len c key s req r e a h hr recs bars refused
  have refuses : ∀ k, defineEffect c key r e a (atVerdict c key s) = secFinish k .empty (atVerdict c key s) → refused k :=
    fun k he => next_refused h hr rfl he
  refine ⟨fun hb => refuses _ (defineEffect_barred (s := atVerdict c key s) hb),
    fun hb ho => refuses _ (defineEffect_overlaps (s := atVerdict c key s) hb ho),
    fun hb ho full => refuses _ (defineEffect_full (s := atVerdict c key s) hb ho full), fun hb ho room => ?_⟩
  have effect : requestEffect req c key (atVerdict c key s) = _ := defineEffect_renews (s := atVerdict c key s) hb ho room
  have f := frame_abortWhere (fun x => admittedIn r x || admittedOn e x) (atVerdict c key s)
  have aborted := fun g x => abortWhere_aborting (p := fun x => admittedIn r x || admittedOn e x) (s := atVerdict c key s)
    (g := g) (x := x)
  have same : (∀ (g : Fin 32) x, s.adm.table[g] = .admitted x →
      extentsOverlap x.extent e = false ∧ admittedIn r (.admitted x) = false) →
      abortWhere (fun x => admittedIn r x || admittedOn e x) (atVerdict c key s) = atVerdict c key s := fun apart =>
    abortWhere_eq_self fun g x hx => by
      obtain ⟨h1, h2⟩ := apart g x hx
      rw [h2]
      exact h1
  refine next_renews h hr rfl effect (underWay_abortWhere _ _ (underWay_atVerdict h)) fun t got made answer => ?_
  generalize abortWhere (fun x => admittedIn r x || admittedOn e x) (atVerdict c key s) = m at f aborted same made
  have table := made.table
  have runtime := made.runtime
  obtain ⟨records, only, kept, entries⟩ := made.before f
  replace entries := entries room
  refine ⟨records, fun g x hx hp => table g _ (aborted g x hx ?_) (by simp), fun i w hw => ?_, kept, ?_, fun auto => ?_, ?_,
    fun locked apart => ?_⟩
  · rcases hp with on | within
    · exact Bool.or_eq_true_iff.mpr (.inr on)
    · exact Bool.or_eq_true_iff.mpr (.inl within)
  · exact (only i w hw).imp_right mem_renewalEntries.mp
  · exact entries _ (mem_renewalEntries.mpr (.inl rfl))
  · exact entries _ (mem_renewalEntries.mpr (.inr ⟨auto, rfl⟩))
  · refine ⟨_, ?_, answer⟩
    cases got <;> simp
  · rw [same apart] at runtime
    have unheld : heldBy (atVerdict c key s).ranges[r].run = none := (heldBy_eq_none _).mpr (.inl locked)
    have slots : (dropRuntime r (atVerdict c key s)).slots = s.slots := dropRuntime_slots_none unheld
    have free : rekeyOn r (atVerdict c key s).copies = false := (Bool.or_eq_false_iff.mp hb).2
    refine ⟨fun k l empty => ?_, fun full => ?_⟩
    · obtain ⟨rfl, ranges, kept, -⟩ := runtime.some k l ((emptySlots_congr slots).trans empty)
      exact ⟨ranges, (kept free).trans (by rw [slots]; rfl), answer⟩
    · obtain ⟨rfl, ranges, kept⟩ := runtime.none ((emptySlots_congr slots).trans full)
      exact ⟨ranges, (kept free).trans slots, answer⟩

end Sys2Proof.Machine
end


-- ==== Sys2Proof/Proofs/RangesDeleted.lean ====
section
/-! PROOF. DELETE_RANGE, ERASE_RANGE and SET_RANGE_ATTRIBUTES (R98 to R100): O43. -/

-- As in the tests: each theorem that waits for the kernel in parallel would keep a thread.
set_option Elab.async false

namespace Sys2Proof.Machine

/-! ## What aborts keep -/

/-- A property that entries do not bear on is kept by aborts when unpinning and the completion of closes keep it. -/
theorem abortWhere_keeps {Inv : State → Prop} (k : Keeps Inv (allFields.filter fun f => f ≠ .ranges ∧ f ≠ .slots))
    (unpin : ∀ s k, Inv s → Inv (unpinSlot k s)) (close : ∀ s r, Inv s → Inv (closeIfDrained r s)) (p : Entry → Bool)
    {s : State} (h : Inv s) : Inv (abortWhere p s) := by
  refine keeps_foldl (fun s t hs => ?_) _ s h
  split
  · unfold abortTag
    split
    · rename_i x _
      have unpinned := keeps_foldl (f := fun s k => unpinSlot k s) unpin (slotsNamed x.segs) _
        (k.of hs (frame_setEntry t (.aborting x) s))
      have closed := keeps_foldl (f := fun s r => closeIfDrained r s) close (rangesNamed x.segs) _ unpinned
      unfold leaveAdmitted
      dsimp only
      split
      · exact k.of closed (frame_sendMigrateOrder _)
      · exact closed
    · exact hs
  · exact hs

/-- What the completion of a close makes of one slot: nothing, or it is retired. -/
theorem closeIfDrained_slot (r : Fin 16) (k : Fin 18) (s : State) :
    (closeIfDrained r s).slots[k] = s.slots[k] ∨ (closeIfDrained r s).slots[k] = retiredSlot s.slots[k] := by
  rw [closeIfDrained_eq]
  by_cases h : closesNow r s = true
  · obtain ⟨g, _, _, -, hh⟩ := closesNow_held h
    rw [if_pos h, closeFinish_slots hh k]
    split
    · exact .inr rfl
    · exact .inl rfl
  · rw [if_neg h]
    exact .inl rfl

/-! ## Slots that are LIVE no more -/

/-- A slot is LIVE for no range. -/
def NotLive (k : Fin 18) (s : State) : Prop := ∀ o key n, s.slots[k] ≠ .live o key n

theorem notLive_retired (v : Slot) : ∀ o key n, retiredSlot v ≠ .live o key n := by
  intro o key n
  cases v with
  | live o' key' n' => by_cases h : n' = 0 <;> simp [retiredSlot, h]
  | _ => simp [retiredSlot]

theorem notLive_closeIfDrained {k : Fin 18} (r : Fin 16) {s : State} (h : NotLive k s) : NotLive k (closeIfDrained r s) := by
  intro o key n
  rcases closeIfDrained_slot r k s with e | e
  · rw [e]
    exact h o key n
  · rw [e]
    exact notLive_retired _ o key n

theorem notLive_unpinSlot {k : Fin 18} (l : Fin 18) {s : State} (h : NotLive k s) : NotLive k (unpinSlot l s) := by
  intro o key n
  rw [unpinSlot, setSlot_get]
  split
  · rename_i e
    subst e
    have := h
    unfold NotLive at this
    generalize s.slots[k] = v at this
    cases v with
    | empty => simp [unpinnedSlot]
    | live o' key' n' => exact absurd rfl (this o' key' n')
    | draining o' key' n' => by_cases hn : n' ≤ 1 <;> simp [unpinnedSlot, hn]
  · exact h o key n

theorem SlotsRetired.notLive {h : Held} {s t : State} (r : SlotsRetired h s t) :
    NotLive h.current t ∧ ∀ n, h.next = some n → NotLive n t := by
  refine ⟨fun o key n => ?_, fun m hm o key n => ?_⟩
  · rw [r h.current, if_pos (.inl rfl)]
    exact notLive_retired _ o key n
  · rw [r m, if_pos (.inr hm)]
    exact notLive_retired _ o key n

/-- A range still holds what it held, or has let it go and its slots are LIVE no more. -/
def Letting (r : Fin 16) (h : Held) (s : State) : Prop :=
  heldBy s.ranges[r].run = some h
    ∨ heldBy s.ranges[r].run = none ∧ NotLive h.current s ∧ ∀ n, h.next = some n → NotLive n s

theorem letting_keeps (r : Fin 16) (h : Held) : Keeps (Letting r h) (allFields.filter fun f => f ≠ .ranges ∧ f ≠ .slots) := by
  intro s t f hs
  unfold Letting NotLive at *
  rw [f.ranges, f.slots]
  exact hs

theorem letting_closeIfDrained {r : Fin 16} {h : Held} (q : Fin 16) {s : State} (hs : Letting r h s) :
    Letting r h (closeIfDrained q s) := by
  rcases hs with held | ⟨none, current, next⟩
  · by_cases hc : closesNow q s = true
    · by_cases e : r = q
      · subst e
        have retired := closeFinish_slots held
        have ranges := closeFinish_ranges held
        have : closeIfDrained r s = closeFinish r s := by rw [closeIfDrained_eq, if_pos hc]
        rw [this]
        refine .inr ⟨?_, retired.notLive⟩
        rw [ranges_set_get ranges, if_pos rfl]
        rfl
      · left
        rw [closeIfDrained_ranges, if_neg (fun x => e x.1)]
        exact held
    · left
      rw [closeIfDrained_eq, if_neg hc]
      exact held
  · exact .inr ⟨unheld_closeIfDrained r q s none, notLive_closeIfDrained q current,
      fun n hn => notLive_closeIfDrained q (next n hn)⟩

theorem letting_abortWhere {r : Fin 16} {h : Held} (p : Entry → Bool) {s : State} (hs : Letting r h s) :
    Letting r h (abortWhere p s) :=
  abortWhere_keeps (letting_keeps r h) (fun _ k hs => hs.imp_right fun ⟨gone, current, next⟩ =>
    ⟨gone, notLive_unpinSlot k current, fun n hn => notLive_unpinSlot k (next n hn)⟩)
    (fun _ q hs => letting_closeIfDrained q hs) p hs

/-- R13, R27: once the runtime part has let go of a range, the slots it held are LIVE no more. -/
theorem Letting.dropRuntime {r : Fin 16} {h : Held} {s : State} (hs : Letting r h s) :
    NotLive h.current (dropRuntime r s) ∧ ∀ n, h.next = some n → NotLive n (dropRuntime r s) := by
  rcases hs with held | ⟨none, current, next⟩
  · exact (dropRuntime_slots_held held).notLive
  · unfold NotLive
    rw [dropRuntime_slots_none none]
    exact ⟨current, next⟩

/-! ## A deletion -/

/-- R27: what a deletion of `r` in `m` leaves. -/
structure Deleted (r : Fin 16) (m t : State) : Prop where
  records : t.copies.ranges = m.copies.ranges.set r { m.copies.ranges[r] with
    defined := false, extent := none, attributes := Attributes.none, current := none, next := none, erased := false }
  wraps : ∀ i : Fin 64, t.copies.wraps[i]
    = if m.copies.wraps[i].any (fun e => decide (e.range = r)) = true then none else m.copies.wraps[i]
  ranges : t.ranges = m.ranges.set r ⟨.locked, false⟩
  slots : t.slots = (dropRuntime r m).slots
  table : t.adm.table = m.adm.table

theorem deleteRange_deleted (r : Fin 16) (m : State) : Deleted r m (deleteRange r m) := by
  have dropped := frame_dropRuntime r m
  refine ⟨deleteRange_records r m, fun i => ?_, ?_, ?_, (frame_deleteRange r m).table⟩
  · unfold deleteRange
    dsimp only
    have kept : ∀ v : RangeRec, ∀ m : State, (putRange r v m).copies.wraps = m.copies.wraps := fun _ _ => rfl
    rw [(frame_settleWaiters _).cWraps, (frame_setMark r false _).cWraps, removeRangeWraps, removeWraps_wraps, kept,
      dropped.cWraps]
  · have before : ∀ u : State, u.ranges = m.ranges.set r ⟨.locked, m.ranges[r].sleepMark⟩ →
        (setMark r false u).ranges = m.ranges.set r ⟨.locked, false⟩ := by
      intro u h
      have run : u.ranges[r].run = .locked := by rw [ranges_set_get h, if_pos rfl]
      change u.ranges.set r ⟨u.ranges[r].run, false⟩ = _
      rw [run, h, ranges_set_set]
    unfold deleteRange
    dsimp only
    rw [(frame_settleWaiters _).ranges]
    refine before _ ?_
    rw [removeRangeWraps, (frame_removeWraps _ _).ranges, putRange, (frame_put _ _ .cRanges).ranges, dropRuntime_ranges]
  · unfold deleteRange
    dsimp only
    rw [(frame_settleWaiters _).slots, (frame_setMark r false _).slots, removeRangeWraps, (frame_removeWraps _ _).slots, putRange,
      (frame_put _ _ .cRanges).slots]

theorem deleteEffect_barred {r : Fin 16} {s : State} (h : rekeyBars r s.copies = true) :
    deleteEffect r s = secFinish .rekeyActive .empty s := if_pos h

theorem deleteEffect_undefined {r : Fin 16} {s : State} (h : rekeyBars r s.copies = false)
    (hd : rangeDefined s.copies r = false) : deleteEffect r s = secFinish .badValue .empty s := by
  rw [deleteEffect, if_neg (by simp [h]), if_pos (by simp [hd])]

theorem deleteEffect_deletes {r : Fin 16} {s : State} (h : rekeyBars r s.copies = false)
    (hd : rangeDefined s.copies r = true) : deleteEffect r s
      = secFinish .ok .empty (leavePending r (deleteRange r (abortWhere (admittedIn r) s))) := by
  rw [deleteEffect, if_neg (by simp [h]), if_neg (by simp [hd])]

/-- R51: the transfers that an abort names are ABORTING, the other ADMITTED ones stay. -/
theorem abortWhere_admitted (p : Entry → Bool) {s : State} {g : Fin 32} {x : Xfer} (h : s.adm.table[g] = .admitted x) :
    (abortWhere p s).adm.table[g] = if p (.admitted x) = true then .aborting x else .admitted x := by
  rw [abortWhere_table, h]

/-- What DELETE_RANGE leaves of a state: the record and the entries gone, the range LOCKED, its transfers cut and its slots
LIVE no more. -/
structure DeletedFrom (r : Fin 16) (s t : State) : Prop where
  records : t.copies.ranges = s.copies.ranges.set r { s.copies.ranges[r] with
    defined := false, extent := none, attributes := Attributes.none, current := none, next := none, erased := false }
  wraps : ∀ i : Fin 64, t.copies.wraps[i]
    = if s.copies.wraps[i].any (fun e => decide (e.range = r)) = true then none else s.copies.wraps[i]
  run : t.ranges[r] = ⟨.locked, false⟩
  cut : ∀ (g : Fin 32) x, s.adm.table[g] = .admitted x →
    t.adm.table[g] = if admittedIn r (.admitted x) = true then .aborting x else .admitted x
  slots : ∀ h, heldBy s.ranges[r].run = some h → NotLive h.current t ∧ ∀ n, h.next = some n → NotLive n t
  retired : ∀ h, heldBy s.ranges[r].run = some h → drained r s = true → SlotsRetired h s t
  same : heldBy s.ranges[r].run = none → drained r s = true → t.slots = s.slots

theorem deletedFrom_of {r : Fin 16} {s m t : State} (f : Frame abortFields s m) (d : Deleted r m t)
    (cut : ∀ (g : Fin 32) x, s.adm.table[g] = .admitted x →
      m.adm.table[g] = if admittedIn r (.admitted x) = true then .aborting x else .admitted x)
    (letting : ∀ h, heldBy s.ranges[r].run = some h → Letting r h m) (drain : drained r s = true → m = s) :
    DeletedFrom r s t := by
  obtain ⟨records, wraps, ranges, slots, table⟩ := d
  rw [f.cRanges] at records
  rw [f.cWraps] at wraps
  refine ⟨records, wraps, ?_, ?_, fun h hh => ?_, fun h hh hd => ?_, fun hh hd => ?_⟩
  · rw [ranges_set_get ranges, if_pos rfl]
  · rw [table]
    exact cut
  · unfold NotLive
    rw [slots]
    exact (letting h hh).dropRuntime
  · unfold SlotsRetired
    rw [slots, drain hd]
    exact dropRuntime_slots_held hh
  · rw [slots, drain hd]
    exact dropRuntime_slots_none hh

theorem deleteRange_from (r : Fin 16) (s : State) : DeletedFrom r s (deleteRange r (abortWhere (admittedIn r) s)) :=
  deletedFrom_of (frame_abortWhere _ s) (deleteRange_deleted r _) (fun _ _ hx => abortWhere_admitted _ hx)
    (fun _ hh => letting_abortWhere _ (.inl hh)) abortWhere_of_drained

/-! ## ERASE_RANGE -/

section Erase

variable {c : Fin 8} {key : CredKey} {r : Fin 16} {s : State}

theorem eraseRangeEffect_undefined (h : rangeDefined s.copies r = false) :
    eraseRangeEffect c key r s = secFinish .badValue .empty s := by
  rw [eraseRangeEffect, if_pos (by simp [h])]

theorem eraseRangeEffect_full (h : rangeDefined s.copies r = true)
    (room : roomFor r s.copies.ranges[r].attributes.autoOpen s.copies = false) :
    eraseRangeEffect c key r s = secFinish .tableFull .empty s := by
  rw [eraseRangeEffect, if_neg (by simp [h]), if_pos (by rw [room]; rfl)]

theorem eraseRangeEffect_renews (h : rangeDefined s.copies r = true)
    (room : roomFor r s.copies.ranges[r].attributes.autoOpen s.copies = true) :
    eraseRangeEffect c key r s = renewAndOwn c key r id (abortWhere (admittedIn r) s) := by
  rw [eraseRangeEffect, if_neg (by simp [h]), if_neg (by rw [room]; decide)]

end Erase

/-- An OPEN range still holds what it held, in a slot without pins, or one that is EMPTY by now. -/
def Vacating (r : Fin 16) (h : Held) (o : Fin 16) (media : Key) (s : State) : Prop :=
  s.ranges[r].run = .opened h ∧ (s.slots[h.current] = .live o media 0 ∨ s.slots[h.current] = .empty)

theorem vacating_abortWhere {r : Fin 16} {h : Held} {o : Fin 16} {media : Key} (p : Entry → Bool) {s : State}
    (hs : Vacating r h o media s) : Vacating r h o media (abortWhere p s) := by
  refine abortWhere_keeps (fun s t f hs => ?_) (fun s k hs => ?_) (fun s q hs => ?_) p hs
  · unfold Vacating at *
    rw [f.ranges, f.slots]
    exact hs
  · obtain ⟨run, slot⟩ := hs
    refine ⟨run, ?_⟩
    rw [unpinSlot, setSlot_get]
    split
    · rename_i e
      subst e
      rcases slot with e | e
      · rw [e]
        exact .inl rfl
      · rw [e]
        exact .inr rfl
    · exact slot
  · obtain ⟨run, slot⟩ := hs
    refine ⟨?_, ?_⟩
    · rw [closeIfDrained_ranges, if_neg]
      · exact run
      · rintro ⟨rfl, closes⟩
        obtain ⟨_, _, _, closing, -⟩ := closesNow_held closes
        rw [run] at closing
        cases closing
    · rcases closeIfDrained_slot q h.current s with e | e
      · rw [e]
        exact slot
      · rw [e]
        rcases slot with e | e
        · rw [e]
          exact .inr rfl
        · rw [e]
          exact .inr rfl

theorem Vacating.empties {r : Fin 16} {h : Held} {o : Fin 16} {media : Key} {s : State} (hs : Vacating r h o media s) :
    h.current ∈ emptySlots (dropRuntime r s) := by
  obtain ⟨run, slot⟩ := hs
  have retired := dropRuntime_slots_held (r := r) (s := s) (h := h) (by rw [run]; rfl) h.current
  rw [if_pos (.inl rfl)] at retired
  have empty : (dropRuntime r s).slots[h.current] = .empty := by
    rw [retired]
    rcases slot with e | e <;> rw [e] <;> rfl
  exact List.mem_filter.mpr ⟨List.mem_finRange _, decide_eq_true empty⟩

/-- What ERASE_RANGE leaves of the transfers, the runtime part and the slots. -/
structure ErasedFrom (r : Fin 16) (s t : State) (got : Bool) : Prop where
  cut : ∀ (g : Fin 32) x, s.adm.table[g] = .admitted x →
    t.adm.table[g] = if admittedIn r (.admitted x) = true then .aborting x else .admitted x
  run : (got = true ∧ ∃ k : Fin 18, t.ranges[r] = ⟨.opened ⟨.readWrite, ⟨s.draws⟩, k, none⟩, false⟩
      ∧ ∃ n, t.slots[k] = .live r ⟨s.draws + 1⟩ n) ∨ got = false ∧ t.ranges[r] = ⟨.locked, false⟩
  opened : ∀ h o m, s.ranges[r].run = .opened h → s.slots[h.current] = .live o m 0 → got = true
  same : heldBy s.ranges[r].run = none → drained r s = true → rekeyOn r s.copies = false →
    (∀ k l, emptySlots s = k :: l → t.ranges = s.ranges.set r ⟨.opened ⟨.readWrite, ⟨s.draws⟩, k, none⟩, false⟩
      ∧ t.slots = s.slots.set k (.live r ⟨s.draws + 1⟩ 0))
    ∧ (emptySlots s = [] → t.ranges = s.ranges.set r ⟨.locked, false⟩ ∧ t.slots = s.slots)

theorem erasedFrom_of {c : Fin 8} {key : CredKey} {r : Fin 16} {upd : RangeRec → RangeRec} {s m t : State} {got : Bool}
    (f : Frame abortFields s m) (d : Renews c key r upd m t got)
    (cut : ∀ (g : Fin 32) x, s.adm.table[g] = .admitted x →
      m.adm.table[g] = if admittedIn r (.admitted x) = true then .aborting x else .admitted x)
    (vacating : ∀ h o k, s.ranges[r].run = .opened h → s.slots[h.current] = .live o k 0 → Vacating r h o k m)
    (drain : drained r s = true → m = s) : ErasedFrom r s t got := by
  have runtime := d.runtime
  refine ⟨fun g x hx => ?_, ?_, fun h o k hop live => ?_, fun none hd free => ?_⟩
  · refine d.table g _ (cut g x hx) fun c y => ?_
    split <;> simp
  · rw [← f.draws]
    rcases runtime.cases with ⟨hg, k, ranges, live⟩ | ⟨hg, ranges⟩
    · exact .inl ⟨hg, k, by rw [ranges_set_get ranges, if_pos rfl], live⟩
    · exact .inr ⟨hg, by rw [ranges_set_get ranges, if_pos rfl]⟩
  · have mem := (vacating h o k hop live).empties
    cases e : emptySlots (dropRuntime r m) with
    | nil =>
      rw [e] at mem
      cases mem
    | cons k l => exact (runtime.some k l e).1
  · rw [drain hd] at runtime
    have slots : (dropRuntime r s).slots = s.slots := dropRuntime_slots_none none
    refine ⟨fun k l empty => ?_, fun full => ?_⟩
    · obtain ⟨-, ranges, kept, -⟩ := runtime.some k l ((emptySlots_congr slots).trans empty)
      exact ⟨ranges, (kept free).trans (by rw [slots])⟩
    · obtain ⟨-, ranges, kept⟩ := runtime.none ((emptySlots_congr slots).trans full)
      exact ⟨ranges, (kept free).trans slots⟩

/-! ## SET_RANGE_ATTRIBUTES -/

/-- R99: the range's record with its new attributes. -/
def relabelled (r : Fin 16) (a : Attributes) (s : State) : State :=
  putRange r { s.copies.ranges[r] with attributes := a } s

section Attributes

variable {r : Fin 16} {a : Attributes} {s : State}

theorem attributesEffect_undefined (fresh : NoneStale s.copies) (h : rangeDefined s.copies r = false) :
    attributesEffect r a s = secFinish .badValue .empty s := by
  unfold attributesEffect
  rw [purgeStale_eq_self fresh]
  dsimp only
  rw [if_pos (by rw [h]; rfl)]

/-- R99: attributes that leave AUTO_OPEN as it is, or set it where the DEVICE entry stands. -/
theorem attributesEffect_kept (fresh : NoneStale s.copies) (h : rangeDefined s.copies r = true)
    (adds : (a.autoOpen && !s.copies.ranges[r].attributes.autoOpen && (findWrap .device r s.copies).isNone) = false)
    (clears : (s.copies.ranges[r].attributes.autoOpen && !a.autoOpen) = false) :
    attributesEffect r a s = secFinish .ok .empty
      (if (s.copies.ranges[r].attributes.bindingRequired && !a.bindingRequired) = true then leavePending r (relabelled r a s)
        else relabelled r a s) := by
  unfold attributesEffect
  rw [purgeStale_eq_self fresh]
  dsimp only
  rw [adds, clears, if_neg (by rw [h]; decide), if_neg (by simp), if_neg (by simp), if_neg Bool.false_ne_true,
    if_neg Bool.false_ne_true, Bool.false_or]
  rfl

/-- R99: attributes that clear AUTO_OPEN. -/
theorem attributesEffect_clears (fresh : NoneStale s.copies) (h : rangeDefined s.copies r = true)
    (old : s.copies.ranges[r].attributes.autoOpen = true) (new : a.autoOpen = false) :
    attributesEffect r a s = secFinish .ok .empty (leavePending r (removeEntry .device r (relabelled r a s))) := by
  unfold attributesEffect
  rw [purgeStale_eq_self fresh]
  dsimp only
  rw [old, new, if_neg (by rw [h]; decide), if_neg (by simp), if_neg (by simp)]
  simp only [Bool.not_true, Bool.false_and, Bool.false_eq_true, if_false, Bool.not_false, Bool.and_self, if_true,
    Bool.true_or, relabelled]

section Adds

variable (fresh : NoneStale s.copies) (h : rangeDefined s.copies r = true)
  (old : s.copies.ranges[r].attributes.autoOpen = false) (new : a.autoOpen = true)
  (none : findWrap .device r s.copies = none)

include fresh h old new none

theorem attributesEffect_notOpen (shut : isOpen s.ranges[r].run = false) :
    attributesEffect r a s = secFinish .notOpen .empty s := by
  unfold attributesEffect
  rw [purgeStale_eq_self fresh]
  dsimp only
  rw [old, new, none, shut, if_neg (by rw [h]; decide)]
  rfl

theorem attributesEffect_full {hd : Held} (hop : s.ranges[r].run = .opened hd) (full : 64 ≤ wrapCount s.copies) :
    attributesEffect r a s = secFinish .tableFull .empty s := by
  unfold attributesEffect
  rw [purgeStale_eq_self fresh]
  dsimp only
  rw [old, new, none, hop, if_neg (by rw [h]; decide), if_neg (by simp [isOpen]), if_pos (by simp [full])]

/-- R99: attributes that set AUTO_OPEN add the DEVICE FULL entry of the OPEN range. -/
theorem attributesEffect_adds {hd : Held} (hop : s.ranges[r].run = .opened hd) (room : wrapCount s.copies < 64)
    {k : Fin 64} (free : freeWrap s.copies = some k) :
    attributesEffect r a s = secFinish .ok .empty
      (if (s.copies.ranges[r].attributes.bindingRequired && !a.bindingRequired) = true then
        leavePending r (putWrap k (some ⟨.device, r, .full, s.copies.ranges[r].salt, ⟨hd.key, .device s.deviceKey⟩⟩)
          (relabelled r a s))
      else putWrap k (some ⟨.device, r, .full, s.copies.ranges[r].salt, ⟨hd.key, .device s.deviceKey⟩⟩)
        (relabelled r a s)) := by
  have salt : (relabelled r a s).copies.ranges[r].salt = s.copies.ranges[r].salt := by
    rw [relabelled, putRange_copies]
    simp
  have added : (addWrap .device (deviceWrap (relabelled r a s)) r .full hd.key (relabelled r a s)).2
      = putWrap k (some ⟨.device, r, .full, s.copies.ranges[r].salt, ⟨hd.key, .device s.deviceKey⟩⟩) (relabelled r a s) := by
    rw [addWrap_creates (s := relabelled r a s) none free, salt]
    rfl
  have held : heldBy (relabelled r a s).ranges[r].run = some hd := by
    change heldBy s.ranges[r].run = some hd
    rw [hop]
    rfl
  unfold relabelled at added held ⊢
  unfold attributesEffect
  rw [purgeStale_eq_self fresh]
  dsimp only
  rw [if_neg (by rw [h]; decide), if_neg (by rw [hop]; simp [isOpen]), if_neg (by simp; omega), held, old, new, none]
  simp only [Bool.not_false, Bool.and_self, Option.isNone_none, if_true, added]
  rfl

end Adds

end Attributes

/-! ## The three requests -/

section Requests

variable {req : Instr} {c : Fin 8} {key : CredKey} {s : State} {r : Fin 16}

theorem underWay_relabelled {a : Attributes} {m : State} (h : UnderWay req m) : UnderWay req (relabelled r a m) :=
  underWay_put _ m h

/-- R98: a request that deletes its range. -/
theorem next_deletes (h : Succeeds req c key s) (hr : AtRest s) (hw : verdictWithheld req c .settled = none)
    (he : requestEffect req c key (atVerdict c key s)
      = secFinish .ok .empty (leavePending r (deleteRange r (abortWhere (admittedIn r) (atVerdict c key s))))) {P : State → Prop}
    (hp : ∀ t, DeletedFrom r (atVerdict c key s) t → r ∉ t.cred.pendingSet → Answering req .ok .empty t → P t) :
    Next (exec .derivationComplete s) P := by
  have made := deleteRange_from r (atVerdict c key s)
  refine next_answering h hr hw he (underWay_keeps.of (underWay_deleteRange r _ (underWay_abortWhere _ _ (underWay_atVerdict h)))
    (frame_leavePending r _)) fun t f answer => hp t ?_ ?_ answer
  · generalize deleteRange r (abortWhere (admittedIn r) (atVerdict c key s)) = u at made f
    have f := (frame_leavePending r u).andThen (N := [.pendingSet, .sec, .requests]) f
    obtain ⟨records, wraps, run, cut, slots, retired, same⟩ := made
    refine ⟨f.cRanges.trans records, ?_, ?_, ?_, ?_, ?_, fun hh hd => f.slots.trans (same hh hd)⟩
    · rw [f.cWraps]
      exact wraps
    · rw [f.ranges]
      exact run
    · rw [f.table]
      exact cut
    · unfold NotLive at slots ⊢
      rw [f.slots]
      exact slots
    · unfold SlotsRetired at retired ⊢
      rw [f.slots]
      exact retired
  · rw [f.pendingSet, leavePending, setPending]
    simp

/-- R100: a request that renews its range with what it had. -/
theorem next_erases (h : Succeeds req c key s) (hr : AtRest s) (hw : verdictWithheld req c .settled = none)
    (he : requestEffect req c key (atVerdict c key s)
      = renewAndOwn c key r id (abortWhere (admittedIn r) (atVerdict c key s))) {P : State → Prop}
    (hp : ∀ t got, RenewsRecords c key r id (atVerdict c key s) t → ErasedFrom r (atVerdict c key s) t got →
      rekeyOn r t.copies = false → Answering req .ok (.code (if got then .ok else .noSlot)) t → P t) :
    Next (exec .derivationComplete s) P := by
  have f := frame_abortWhere (admittedIn r) (atVerdict c key s)
  refine next_renews h hr hw he (underWay_abortWhere _ _ (underWay_atVerdict h)) fun t got made answer =>
    hp t got (made.before f) ?_ made.rekey answer
  exact erasedFrom_of f made (fun _ _ hx => abortWhere_admitted _ hx)
    (fun _ _ _ hop live => vacating_abortWhere _ ⟨hop, .inl live⟩) abortWhere_of_drained

/-- R99: a request that ends in a record with its entries, and may take the range from the pending set. -/
theorem next_relabelled (h : Succeeds req c key s) (hr : AtRest s) (hw : verdictWithheld req c .settled = none) {m : State}
    {leaves : Bool} (he : requestEffect req c key (atVerdict c key s)
      = secFinish .ok .empty (if leaves = true then leavePending r m else m)) (hu : UnderWay req m)
    (f : Frame (.cRanges :: wrapFields) (atVerdict c key s) m) {P : State → Prop}
    (hp : ∀ t, t.copies = m.copies →
      t.cred.pendingSet = (if leaves = true then s.cred.pendingSet.filter fun q => q != r else s.cred.pendingSet) →
      t.ranges = s.ranges → t.slots = s.slots → Answering req .ok .empty t → P t) :
    Next (exec .derivationComplete s) P := by
  have left : Frame [.pendingSet] m (if leaves = true then leavePending r m else m) :=
    .ite (frame_leavePending r m) (.refl _ m)
  refine next_answering h hr hw he (underWay_keeps.of hu left) fun t g answer => ?_
  have g' := left.andThen (N := [.pendingSet, .sec, .requests]) g
  refine hp t g'.copies ?_ (g'.ranges.trans f.ranges) (g'.slots.trans f.slots) answer
  rw [g.pendingSet]
  cases leaves
  · exact f.pendingSet
  · change m.cred.pendingSet.filter _ = _
    rw [f.pendingSet]
    rfl

end Requests

/-- Settles O43: refused with nothing of its own; or the aborts with a deletion or a renewal; or a record with at most
one entry. -/
theorem rangesDeletedErasedAndRelabelled : Obligations.RangesDeletedErasedAndRelabelled := by
  intro id cb range attrs secret c key s hr r cut recs old refused
  refine ⟨?_, ?_, ?_⟩
  · intro h req
    refine ⟨fun bars => next_refused h hr rfl (deleteEffect_barred (s := atVerdict c key s) bars),
      fun free gone => next_refused h hr rfl (deleteEffect_undefined (s := atVerdict c key s) free gone), fun free defined => ?_⟩
    refine next_deletes h hr rfl (deleteEffect_deletes (s := atVerdict c key s) free defined) fun t made pending answer => ?_
    obtain ⟨records, wraps, run, cut, slots, retired, same⟩ := made
    refine ⟨records, wraps, run, pending, answer, cut, fun hd held => ?_, same⟩
    obtain ⟨current, next⟩ := slots hd held
    exact ⟨fun ⟨_, _, live⟩ => current _ _ _ live, fun n hn ⟨_, _, live⟩ => next n hn _ _ _ live, retired hd held⟩
  · intro h req
    refine ⟨fun gone => next_refused h hr rfl (eraseRangeEffect_undefined (s := atVerdict c key s) gone),
      fun defined full => next_refused h hr rfl (eraseRangeEffect_full (s := atVerdict c key s) defined full),
      fun defined room => ?_⟩
    refine next_erases h hr rfl (eraseRangeEffect_renews (s := atVerdict c key s) defined room)
      fun t got records made rekey answer => ?_
    obtain ⟨records, only, kept, entries⟩ := records
    obtain ⟨cut, run, opened, same⟩ := made
    replace entries := entries room
    refine ⟨records, rekey, cut, ⟨fun i w hw => (only i w hw).imp_right mem_renewalEntries.mp, kept,
      entries _ (mem_renewalEntries.mpr (.inl rfl)), fun auto => entries _ (mem_renewalEntries.mpr (.inr ⟨auto, rfl⟩))⟩,
      ?_, fun hd o m hop live => ?_, same⟩
    · rcases run with ⟨rfl, k, run, live⟩ | ⟨rfl, run⟩
      · exact .inl ⟨answer, k, run, live⟩
      · exact .inr ⟨answer, run⟩
    · obtain rfl := opened hd o m hop live
      exact answer
  · intro h stale req a
    have fresh := noneStale_atVerdict (c := c) (key := key) stale
    have record : Frame (.cRanges :: wrapFields) (atVerdict c key s) (relabelled r a (atVerdict c key s)) :=
      (frame_put _ _ .cRanges).within
    have under := underWay_relabelled (r := r) (a := a) (underWay_atVerdict h)
    refine ⟨fun gone => next_refused h hr rfl (attributesEffect_undefined fresh gone), fun defined auto => ?_,
      fun defined was new => ?_, fun defined was new => ⟨fun none => ⟨fun shut => ?_, fun hd hop => ⟨fun full => ?_,
      fun k room free => ?_⟩⟩, fun found => ?_⟩⟩
    · have adds : (a.autoOpen && !(atVerdict c key s).copies.ranges[r].attributes.autoOpen
          && (findWrap .device r (atVerdict c key s).copies).isNone) = false := by
        rw [auto]
        change (old.attributes.autoOpen && !old.attributes.autoOpen && _) = false
        rw [Bool.and_not_self, Bool.false_and]
      have clears : ((atVerdict c key s).copies.ranges[r].attributes.autoOpen && !a.autoOpen) = false := by
        rw [auto]
        exact Bool.and_not_self _
      refine next_relabelled h hr rfl (attributesEffect_kept fresh defined adds clears) under record
        fun t copies pending ranges slots answer => ⟨copies, pending.trans ?_, ranges, slots, answer⟩
      refine if_congr ?_ rfl rfl
      rw [Bool.and_eq_true, Bool.not_eq_true']
      rfl
    · have f := frame_removeEntry .device r (relabelled r a (atVerdict c key s))
      have left := removeEntry_wraps .device r (relabelled r a (atVerdict c key s))
      have noted := noted_removeEntry .device r _ under.2
      refine next_relabelled (leaves := true) h hr rfl (attributesEffect_clears fresh defined was new)
        (under.of_noted f fun _ => noted) (record.andThen f) fun t copies pending ranges slots answer => ?_
      obtain ⟨wraps, rest⟩ := f.wraps_of copies
      exact ⟨rest, fun k => by rw [wraps]; exact left k, pending, ranges, slots, answer⟩
    · exact next_refused h hr rfl (attributesEffect_notOpen fresh defined was new none shut)
    · exact next_refused h hr rfl (attributesEffect_full fresh defined was new none hop full)
    · exact next_relabelled h hr rfl (attributesEffect_adds fresh defined was new none hop room free)
        (underWay_put _ _ under) (record.andThen (frame_putWrap k _ _)) fun t copies pending ranges slots answer =>
          ⟨copies, ranges, slots, answer⟩
    · have adds : (a.autoOpen && !(atVerdict c key s).copies.ranges[r].attributes.autoOpen
          && (findWrap .device r (atVerdict c key s).copies).isNone) = false := by
        have : (findWrap .device r (atVerdict c key s).copies).isNone = false := by
          rw [← Bool.not_eq_true, Option.isNone_iff_eq_none]
          exact fun x => by
            have : (findWrap .device r s.copies).isSome = true := found
            rw [show findWrap .device r s.copies = none from x] at this
            cases this
        rw [this, Bool.and_false]
      have clears : ((atVerdict c key s).copies.ranges[r].attributes.autoOpen && !a.autoOpen) = false := by
        rw [new]
        exact Bool.and_false _
      exact next_relabelled h hr rfl (attributesEffect_kept fresh defined adds clears) under record
        fun t copies pending ranges slots answer => ⟨copies, ranges, slots, answer⟩

end Sys2Proof.Machine
end


-- ==== Sys2Proof/Proofs/ClosesComplete.lean ====
section
/-! PROOF. What the close of a range makes of a rekey record, of its waiters and of the transfers it waits for (R13, R21 to
R23, R108, R121): O48. -/

-- As in the tests: each theorem that waits for the kernel in parallel would keep a thread.
set_option Elab.async false

namespace Sys2Proof.Machine

/-! ## The record of a rekey -/

/-- R108, R121: between `s` and `t` the rekey of range `r` has been paused, and no other. -/
structure Paused (r : Fin 16) (s t : State) : Prop where
  off : rekeyOn r s.copies = false → t.copies = s.copies
  other : ∀ k, s.copies.rekey = some k → k.range ≠ r → t.rekey = s.rekey
  unseen : s.rekey.seen = none → t.rekey.seen = none
  window : s.rekey.intended = none → t.rekey.intended = none ∧ t.rekey.fence = s.rekey.fence
  on : ∀ k, s.copies.rekey = some k → k.range = r →
    t.copies = { s.copies with rekey := some { k with state := .paused } } ∧ t.rekey = windowWithdrawn s.rekey

theorem Paused.congr {r : Fin 16} {s t s' t' : State} (h : Paused r s t) (hs : s'.copies = s.copies)
    (hsr : s'.rekey = s.rekey) (ht : t'.copies = t.copies) (htr : t'.rekey = t.rekey) : Paused r s' t' := by
  obtain ⟨off, other, unseen, window, on⟩ := h
  rw [← hs, ← ht] at off
  rw [← hs, ← hsr, ← htr] at other
  rw [← hsr, ← htr] at unseen window
  rw [← hs, ← hsr, ← ht, ← htr] at on
  exact ⟨off, other, unseen, window, on⟩

theorem rekeyOn_some {r : Fin 16} {recs : Records} {k : RekeyRec} (h : recs.rekey = some k) :
    rekeyOn r recs = decide (k.range = r) := by
  unfold rekeyOn
  rw [h]

theorem pauseRekey_paused (r : Fin 16) (s : State) : Paused r s (pauseRekey r s) := by
  unfold pauseRekey
  cases hk : s.copies.rekey with
  | none =>
    refine ⟨fun _ => ?_, fun k h => (nomatch hk.symm.trans h), fun seen => ?_, fun window => ?_,
      fun k h => (nomatch hk.symm.trans h)⟩
    · dsimp only
      split
      · split <;> rfl
      · rfl
    · dsimp only
      rw [seen]
      exact seen
    · dsimp only
      split
      · split <;> exact ⟨window, rfl⟩
      · exact ⟨window, rfl⟩
  | some k =>
    dsimp only
    by_cases hr : k.range = r
    · rw [if_pos hr, withdrawWindow_eq]
      refine ⟨fun off => ?_, fun k' h n => ?_, fun seen => ?_, fun window => ?_, fun k' h _ => ?_⟩
      · simp [rekeyOn_some hk, hr] at off
      · cases hk.symm.trans h
        exact absurd hr n
      · have still : (windowWithdrawn s.rekey).seen = none := by
          unfold windowWithdrawn
          split <;> exact seen
        split <;> exact still
      · have still : windowWithdrawn s.rekey = s.rekey := by simp [windowWithdrawn, window]
        rw [still]
        split <;> exact ⟨window, rfl⟩
      · cases hk.symm.trans h
        split
        · rename_i paused
          refine ⟨?_, rfl⟩
          dsimp only
          rw [← paused, ← hk]
        · exact ⟨rfl, rfl⟩
    · rw [if_neg hr]
      refine ⟨fun _ => rfl, fun _ _ _ => rfl, id, fun window => ⟨window, rfl⟩, fun k' h n => ?_⟩
      cases hk.symm.trans h
      exact absurd n hr

/-- R108: the pause of a rekey asks for a write where the record was not PAUSED yet, and for none otherwise. -/
theorem pauseRekey_touched (r : Fin 16) (s : State) (hs : s.store.touched = []) :
    (pauseRekey r s).store.touched ≠ [] ↔ ∃ k, s.copies.rekey = some k ∧ k.range = r ∧ k.state ≠ .paused := by
  unfold pauseRekey
  cases hk : s.copies.rekey with
  | none =>
    simp only [reduceCtorEq, false_and, exists_false, iff_false, not_not]
    split
    · split <;> exact hs
    · exact hs
  | some k =>
    simp only [Option.some.injEq, exists_eq_left']
    by_cases hr : k.range = r
    · rw [if_pos hr, withdrawWindow_eq]
      by_cases hp : k.state = .paused
      · simp [hp, hs]
      · rw [if_neg hp]
        exact iff_of_true (noted_put _ _) ⟨hr, hp⟩
    · simp [hr, hs]

theorem frame_locked (r : Fin 16) (h : Held) (s : State) :
    Frame [.slots, .ranges] s (setRun r .locked (retireHeld h s)) :=
  (frame_retireHeld h s).andThen (frame_setRun r .locked _)

theorem closed_paused (r : Fin 16) (h : Held) (s : State) : Paused r s (closed r h s) := by
  have dropped := frame_locked r h s
  have paused := pauseRekey_paused r
    { setRun r .locked (retireHeld h s) with store := { (setRun r .locked (retireHeld h s)).store with touched := [] } }
  have closes : (closed r h s).copies
        = (withTouched (pauseRekey r) (setRun r .locked (retireHeld h s))).2.copies
      ∧ (closed r h s).rekey = (withTouched (pauseRekey r) (setRun r .locked (retireHeld h s))).2.rekey := by
    unfold closed
    dsimp only
    split
    · exact ⟨(frame_awaitWrites _ _).copies, (frame_awaitWrites _ _).rekey⟩
    · exact ⟨rfl, rfl⟩
  exact paused.congr dropped.copies.symm dropped.rekey.symm closes.1 closes.2

theorem closeFinish_paused {r : Fin 16} {s : State} {h : Held} (hh : heldBy s.ranges[r].run = some h) :
    Paused r s (closeFinish r s) := by
  rw [closeFinish_eq hh]
  have f := frame_settleWaiters (closed r h s)
  exact (closed_paused r h s).congr rfl rfl f.copies f.rekey

/-! ## The request that waits -/

/-- R21, R87: a LOCK that waits for no close more has its answer ready. -/
theorem settleSec_answers {m : State} {j : SecJob} (hj : m.cmd.sec = some j) (hp : j.phase = .closing)
    (ha : awaited .security m = false) : settleSec m
      = secAnswerDue { m with cmd := { m.cmd with sec := some { j with phase := .answering .ok .empty } } } := by
  unfold settleSec modSec
  rw [hj]
  exact if_pos ⟨hp, ha⟩

/-- R87, R108: a LOCK that owes writes waits for them. -/
theorem settleSec_waits {m : State} {j : SecJob} (hj : m.cmd.sec = some j) (hp : j.phase = .closing)
    (ha : awaited .security m = false) (hw : j.writes ≠ []) : Answering j.req .ok .empty (settleSec m) := by
  rw [settleSec_answers hj hp ha]
  unfold secAnswerDue
  dsimp only
  rw [if_neg fun x => hw x.1]
  exact ⟨_, rfl, rfl, rfl⟩

theorem mem_sent (f : OutFrame) (s : State) : f ∈ (sent f s).drive.outbox :=
  List.mem_append_right _ (List.mem_singleton_self f)

/-- R21: a LOCK that owes no write is answered in the event of the close. -/
theorem settleSec_replies {m : State} {j : SecJob} (hj : m.cmd.sec = some j) (hp : j.phase = .closing)
    (ha : awaited .security m = false) (hw : j.writes = []) (he : j.awaitsErase = false) (hl : j.lost = false)
    (hu : m.drive.up = true) : settleSec m
      = sent (.secAnswer (requestId j.req) (answerKind j.req) .ok .empty) { m with cmd := { m.cmd with sec := none } } := by
  rw [settleSec_answers hj hp ha]
  unfold secAnswerDue
  dsimp only
  rw [if_pos ⟨hw, he⟩]
  exact secReply_sent (j := { j with phase := .answering .ok .empty }) rfl hl hu

theorem not_awaited {w : Waiter} {s : State} (h : ∀ q : Fin 16, w ∉ waitersOf s.ranges[q].run) : awaited w s = false := by
  simp only [awaited, List.any_eq_false, List.contains_iff_mem]
  exact fun q _ => h q

/-- R108: the LOCK that waited for the close of `r` waits for the write of the record that the close made PAUSED. -/
theorem closed_sec {r : Fin 16} {h : Held} {s : State} {j : SecJob} (hj : s.cmd.sec = some j) (hl : j.lost = false)
    (hw : .security ∈ waitersOf s.ranges[r].run) :
    ∃ ids, (closed r h s).cmd.sec = some { j with writes := j.writes ++ ids }
      ∧ (ids ≠ [] ↔ ∃ k, s.copies.rekey = some k ∧ k.range = r ∧ k.state ≠ .paused) := by
  have dropped := frame_locked r h s
  refine ⟨(withTouched (pauseRekey r) (setRun r .locked (retireHeld h s))).1, ?_, ?_⟩
  · have sec : (withTouched (pauseRekey r) (setRun r .locked (retireHeld h s))).2.cmd.sec = some j :=
      ((frame_withTouched (frame_pauseRekey r) _).sec).trans (dropped.sec.trans hj)
    unfold closed
    dsimp only
    rw [if_pos (List.contains_iff_mem.mpr hw), awaitWrites, modSec, sec]
    dsimp only [Option.map_some]
    rw [if_neg (by simp [hl])]
  · refine (pauseRekey_touched r _ rfl).trans ?_
    dsimp only
    rw [dropped.copies]

/-- R21, R108: the close that a LOCK waited for alone answers it, after the write of a record that it made PAUSED. -/
theorem closeFinish_answers {r : Fin 16} {s : State} {h : Held} {d : Nat} {ws : List Waiter} {j : SecJob}
    (hc : s.ranges[r].run = .closing h d ws) (hj : s.cmd.sec = some j) (hp : j.phase = .closing) (hl : j.lost = false)
    (hw : j.writes = []) (he : j.awaitsErase = false) (mine : .security ∈ ws)
    (others : ∀ q : Fin 16, q ≠ r → .security ∉ waitersOf s.ranges[q].run) :
    let writes := ∃ k, s.copies.rekey = some k ∧ k.range = r ∧ k.state ≠ .paused
    (writes → Answering j.req .ok .empty (closeFinish r s))
      ∧ (¬writes → s.drive.up = true → (closeFinish r s).cmd.sec = none
        ∧ .secAnswer (requestId j.req) (answerKind j.req) .ok .empty ∈ (closeFinish r s).drive.outbox) := by
  have hh : heldBy s.ranges[r].run = some h := by rw [hc]; rfl
  obtain ⟨ids, sec, owes⟩ := closed_sec (r := r) (h := h) hj hl (by rw [hc]; exact mine)
  have dropped := frame_closed r h s
  have ranges : (closed r h s).ranges = s.ranges.set r { s.ranges[r] with run := .locked } := by
    rw [dropped.ranges, setRun, (retireHeld_slots h s).1]
  have alone : awaited .security (closed r h s) = false := not_awaited fun q => by
    rw [ranges_set_get ranges]
    split
    · exact List.not_mem_nil
    · rename_i n
      exact others q n
  rw [closeFinish_eq hh, settleWaiters_eq]
  generalize closed r h s = m at sec dropped alone
  have plat := frame_settlePlat (settleSec m)
  refine ⟨fun writes => ?_, fun none up => ?_⟩
  · obtain ⟨q, hq, hreq, hphase⟩ := settleSec_waits sec hp alone (by
      rw [hw]
      exact owes.mpr writes)
    exact ⟨q, plat.sec.trans hq, hreq, hphase⟩
  · have owesNone : ids = [] := not_not.mp fun x => none (owes.mp x)
    have reply := settleSec_replies sec hp alone (by rw [hw, owesNone]; rfl) he hl
      (dropped.up.trans ((frame_locked r h s).up.trans up))
    rw [plat.sec, plat.outbox, reply]
    exact ⟨rfl, mem_sent _ _⟩

/-! ## The deadline -/

theorem sendMigrateOrder_of_none {s : State} (h : s.rekey.intended = none) : sendMigrateOrder s = s := by
  unfold sendMigrateOrder
  rw [h]

theorem windowWithdrawn_of_none {k : RekeyEngine} (h : k.intended = none) : windowWithdrawn k = k := by
  simp [windowWithdrawn, h]

/-- What stands while the admitted transfers of the CLOSING range `r` are aborted: once it is LOCKED its rekey is PAUSED. -/
structure Expiring (r : Fin 16) (s m : State) : Prop where
  run : (∃ h d ws, m.ranges[r].run = .closing h d ws) ∨ m.ranges[r].run = .locked
  record : ∀ k, s.copies.rekey = some k → k.range = r →
    (m.copies.rekey = some { k with state := .paused } ∨ m.copies.rekey = some k ∧ m.ranges[r].run ≠ .locked)
      ∧ (s.rekey.intended = none → m.rekey = s.rekey)

theorem expiring_keeps (r : Fin 16) (s : State) : Keeps (Expiring r s)
    (allFields.filter fun f => f ∉ ([.ranges, .cRekey, .order, .fence, .intended, .counter, .seen, .completing] : List Field)) :=
  fun m n f h => by
    have ranges := f.ranges
    have rekey := f.rekey
    have record : n.copies.rekey = m.copies.rekey := f.cRekey
    exact ⟨by rw [ranges]; exact h.run, by rw [ranges, rekey, record]; exact h.record⟩

theorem expiring_closeIfDrained {r : Fin 16} {s : State} (q : Fin 16) (m : State) (h : Expiring r s m) :
    Expiring r s (closeIfDrained q m) := by
  rw [closeIfDrained_eq]
  split
  next now =>
    obtain ⟨g, _, _, -, hh⟩ := closesNow_held now
    have ranges := ranges_set_get (closeFinish_ranges hh)
    have paused := closeFinish_paused hh
    by_cases e : r = q
    · subst e
      have locked : (closeFinish r m).ranges[r].run = .locked := by rw [ranges, if_pos rfl]
      refine ⟨.inr locked, fun k hk hr => ?_⟩
      obtain ⟨record, window⟩ := h.record k hk hr
      obtain ⟨v, hv, hvr, same⟩ : ∃ v, m.copies.rekey = some v ∧ v.range = r
          ∧ ({ v with state := .paused } : RekeyRec) = { k with state := .paused } := by
        rcases record with e | ⟨e, -⟩
        · exact ⟨_, e, hr, rfl⟩
        · exact ⟨_, e, hr, rfl⟩
      obtain ⟨copies, rekey⟩ := paused.on v hv hvr
      refine ⟨.inl (by rw [copies, ← same]), fun hi => ?_⟩
      rw [rekey, windowWithdrawn_of_none (by rw [window hi, hi]), window hi]
    · have run : (closeFinish q m).ranges[r].run = m.ranges[r].run := by rw [ranges, if_neg e]
      refine ⟨by rw [run]; exact h.run, fun k hk hr => ?_⟩
      obtain ⟨record, window⟩ := h.record k hk hr
      obtain ⟨v, hv, hvr⟩ : ∃ v, m.copies.rekey = some v ∧ v.range = r := by
        rcases record with e | ⟨e, -⟩
        · exact ⟨_, e, hr⟩
        · exact ⟨_, e, hr⟩
      have hq : v.range ≠ q := fun x => e (hvr.symm.trans x)
      rw [run, paused.other v hv hq, paused.off (by simp [rekeyOn_some hv, hq])]
      exact ⟨record, window⟩
  next => exact h

theorem expiring_sendMigrateOrder {r : Fin 16} {s : State} (m : State) (h : Expiring r s m) :
    Expiring r s (sendMigrateOrder m) := by
  have f := frame_sendMigrateOrder m
  refine ⟨by rw [f.ranges]; exact h.run, fun k hk hr => ?_⟩
  obtain ⟨record, window⟩ := h.record k hk hr
  refine ⟨by rw [f.ranges, f.copies]; exact record, fun hi => ?_⟩
  rw [sendMigrateOrder_of_none (by rw [window hi, hi]), window hi]

theorem expiring_abortWhere {r : Fin 16} {s : State} (p : Entry → Bool) (m : State) (h : Expiring r s m) :
    Expiring r s (abortWhere p m) := by
  have leave : ∀ x m, Expiring r s m → Expiring r s (leaveAdmitted x m) := by
    intro x m h
    have pins := (expiring_keeps r s).of h
      (Frame.foldl (f := fun s k => unpinSlot k s) (fun s k => frame_setSlot k _ s) (slotsNamed x.segs) m)
    have closes := keeps_foldl (f := fun s q => closeIfDrained q s) (fun m q => expiring_closeIfDrained q m)
      (rangesNamed x.segs) _ pins
    unfold leaveAdmitted
    dsimp only
    split
    · exact expiring_sendMigrateOrder _ closes
    · exact closes
  refine keeps_foldl (fun m t h => ?_) _ m h
  split
  · unfold abortTag
    split
    · exact leave _ _ ((expiring_keeps r s).of h (frame_setEntry t _ m))
    · exact h
  · exact h

theorem drained_abortWhere (r : Fin 16) (s : State) : drained r (abortWhere (admittedIn r) s) = true := by
  refine (drained_iff r _).mpr fun g x hx => ?_
  rw [abortWhere_table] at hx
  cases hg : s.adm.table[g] with
  | admitted y =>
    rw [hg] at hx
    by_cases a : admittedIn r (.admitted y) = true
    · simp [a] at hx
    · simp only [a] at hx
      cases hx
      simpa using a
  | _ => rw [hg] at hx; simp at hx

theorem closeExpires_closing {r : Fin 16} {s : State} {h : Held} {ws : List Waiter}
    (hc : s.ranges[r].run = .closing h 0 ws) :
    closeExpires r s = closeIfDrained r (abortWhere (admittedIn r) s) := by
  unfold closeExpires
  simp only [hc]

/-- A frame that names no record but the rekey's. -/
theorem Frame.rekeyOnly {L : List Field} {s t : State} (f : Frame L s t)
    (hf : ∀ f ∈ ([.cFactory, .cRanges, .cCreds, .cWraps, .cCharged, .cPolicy, .cDigest, .cToken, .cWatch, .cJournal,
      .cIncidents, .cBoot] : List Field), f ∉ L := by decide +kernel) : t.copies = { s.copies with rekey := t.copies.rekey } := by
  have rekey := congrArg (fun m => m.copies.rekey) f.eq
  simp only [List.forall_mem_cons] at hf
  simp only [overlay] at rekey
  conv_lhs => rw [← f.eq]
  simp only [overlay, hf, if_false, rekey]

/-- R23: what the deadline of a close leaves. -/
theorem closeExpires_expiring {r : Fin 16} {s : State} {h : Held} {ws : List Waiter}
    (hc : s.ranges[r].run = .closing h 0 ws) :
    Expiring r s (closeExpires r s) ∧ (closeExpires r s).ranges[r].run = .locked := by
  have start : Expiring r s s := ⟨.inl ⟨h, 0, ws, hc⟩, fun k hk _ => ⟨.inr ⟨hk, by rw [hc]; nofun⟩, fun _ => rfl⟩⟩
  have aborted := expiring_abortWhere (admittedIn r) s start
  have closes := expiring_closeIfDrained r _ aborted
  have drains := drained_abortWhere r s
  rw [closeExpires_closing hc]
  refine ⟨closes, ?_⟩
  generalize abortWhere (admittedIn r) s = m at aborted closes drains
  have after := closeIfDrained_ranges r r m
  rcases aborted.run with run | run
  · rw [after, if_pos ⟨rfl, (closesNow_iff r m).mpr ⟨run, drains⟩⟩]
  · rw [after]
    split
    · rfl
    · exact run

theorem closeIfDrained_of_not_closing {r : Fin 16} {s : State} (h : ∀ g d ws, s.ranges[r].run ≠ .closing g d ws) :
    closeIfDrained r s = s := by
  rw [closeIfDrained_eq, if_neg]
  intro now
  obtain ⟨⟨g, d, ws, e⟩, -⟩ := (closesNow_iff r s).mp now
  exact h g d ws e

theorem closeIfDrained_closing {r : Fin 16} {s : State} {h : Held} {d : Nat} {ws : List Waiter}
    (hc : s.ranges[r].run = .closing h d ws) : closeIfDrained r s = if drained r s then closeFinish r s else s := by
  unfold closeIfDrained
  rw [hc]

theorem closeExpires_eq_self {r : Fin 16} {s : State} (h : ∀ g ws, s.ranges[r].run ≠ .closing g 0 ws) :
    closeExpires r s = s := by
  unfold closeExpires
  split
  · rename_i g ws e
    exact absurd e (h g ws)
  · rfl

theorem drainSlot_eq_self {k : Fin 18} {s : State} (h : ∀ o m, s.slots[k] ≠ .draining o m 0) : drainSlot k s = s := by
  unfold drainSlot
  split
  · rename_i o m e
    exact absurd e (h o m)
  · rfl

/-- The pause of a range that is not under rekey, with no end of a rekey in sight, does nothing. -/
theorem pauseRekey_eq_self {r : Fin 16} {s : State} (off : rekeyOn r s.copies = false) (seen : s.rekey.seen = none) :
    pauseRekey r s = s := by
  unfold pauseRekey
  cases hk : s.copies.rekey with
  | none => rw [seen]
  | some k =>
    have : ¬k.range = r := by simpa [rekeyOn_some hk] using off
    dsimp only
    rw [if_neg this]

theorem withTouched_eq_self {f : State → State} {m : State} (hb : Between m) (hf : f m = m) :
    withTouched f m = ([], m) := by
  have clear := clearTouched_of_between hb
  change ((f (clearTouched m)).store.touched, ({ f (clearTouched m) with
    store := { (f (clearTouched m)).store with
      touched := m.store.touched ++ (f (clearTouched m)).store.touched } } : State)) = _
  simp only [Between] at hb
  rw [clear, hf, hb]
  exact Prod.ext rfl clear

theorem awaitWrites_nil (s : State) : awaitWrites [] s = s := by
  unfold awaitWrites modSec
  simp only [List.append_nil, ite_self, Option.map_id']

/-- R22: a close that nobody waits for, of a range without a rekey, locks the range and retires its slot. -/
theorem closeFinish_alone {r : Fin 16} {s : State} {h : Held} (hh : heldBy s.ranges[r].run = some h) (hb : Between s)
    (one : h.next = none) (off : rekeyOn r s.copies = false) (seen : s.rekey.seen = none) (quiet : NoCloseAwaited s) :
    closeFinish r s = { s with
      ranges := s.ranges.set r { s.ranges[r] with run := .locked }
      slots := s.slots.set h.current (retiredSlot s.slots[h.current]) } := by
  have dropped : setRun r .locked (retireHeld h s) = { s with
      ranges := s.ranges.set r { s.ranges[r] with run := .locked }
      slots := s.slots.set h.current (retiredSlot s.slots[h.current]) } := by
    unfold retireHeld
    rw [one]
    rfl
  generalize hm : ({ s with
    ranges := s.ranges.set r { s.ranges[r] with run := .locked }
    slots := s.slots.set h.current (retiredSlot s.slots[h.current]) } : State) = m at dropped ⊢
  have mb : Between m := by rw [← hm]; exact hb
  have paused : withTouched (pauseRekey r) m = ([], m) :=
    withTouched_eq_self mb (pauseRekey_eq_self (by rw [← hm]; exact off) (by rw [← hm]; exact seen))
  have closes : closed r h s = m := by
    unfold closed
    rw [dropped, paused]
    dsimp only
    rw [awaitWrites_nil, ite_self]
  rw [closeFinish_eq hh, closes, settleWaiters_of_none (by rw [← hm]; exact quiet)]

/-- Settles O48: one completed close, with its record, its waiters and its slots; the deadline aborts what it waits for. -/
theorem closesCompleteAndExpire : Obligations.ClosesCompleteAndExpire := by
  intro s hb
  have completes : ∀ r, exec (.closeComplete r) s = .next (clearTouched (closeIfDrained r s)) := fun r =>
    event_of_between hb
  have expires : ∀ r, exec (.closeDeadlineExpiry r) s = .next (clearTouched (closeExpires r s)) := fun r =>
    event_of_between hb
  have drains : ∀ k, exec (.slotDrainComplete k) s = .next (clearTouched (drainSlot k s)) := fun k => event_of_between hb
  have same : clearTouched s = s := clearTouched_of_between hb
  refine ⟨fun r => ⟨fun still => ⟨?_, ?_⟩, fun h d ws hc => ?_⟩, fun k => ⟨fun o m hk => ?_, fun hk => ?_⟩⟩
  · rw [completes, closeIfDrained_of_not_closing still, same]
  · rw [expires, closeExpires_eq_self (fun g ws => still g 0 ws), same]
  · have hh : heldBy s.ranges[r].run = some h := by rw [hc]; rfl
    have closing := closeIfDrained_closing hc
    refine ⟨fun busy => ?_, fun done one off seen quiet => ?_, fun done => ?_, fun left => ?_, fun due => ?_⟩
    · rw [completes, closing, if_neg (by simp [busy]), same]
    · rw [completes, closing, if_pos done, closeFinish_alone hh hb one off seen quiet]
      exact congrArg Host.Outcome.next (clearTouched_of_between hb)
    · rw [if_pos done] at closing
      obtain ⟨off, -, -, -, on⟩ := closeFinish_paused hh
      refine ⟨_, completes r, ?_⟩
      rw [closing]
      refine ⟨closeFinish_ranges hh, closeFinish_slots hh, (frame_closeFinish r s).adm, off, on, ?_⟩
      exact fun j hj hp hl hw he mine others => closeFinish_answers hc hj hp hl hw he mine others
    · rw [expires, closeExpires_eq_self, same]
      intro g ws' e
      cases hc.symm.trans e
      exact left rfl
    · subst due
      obtain ⟨⟨-, record⟩, locked⟩ := closeExpires_expiring hc
      have table : ∀ g : Fin 32, (closeExpires r s).adm.table[g] = (abortWhere (admittedIn r) s).adm.table[g] := fun g => by
        rw [closeExpires_closing hc, (frame_closeIfDrained r _).table]
      refine ⟨_, expires r, locked, (frame_closeExpires r s).rekeyOnly, fun k hk hr => ?_, fun g => ?_⟩
      · obtain ⟨written | ⟨-, open_⟩, window⟩ := record k hk hr
        · exact ⟨written, window⟩
        · exact absurd locked open_
      · exact (table g).trans (abortWhere_table _ s g)
  · have drained : drainSlot k s = setSlot k .empty s := by
      unfold drainSlot
      simp only [hk]
    rw [drains, drained]
    exact congrArg Host.Outcome.next (clearTouched_of_between (s := setSlot k .empty s) hb)
  · rw [drains, drainSlot_eq_self hk, same]

end Sys2Proof.Machine
end


-- ==== Sys2Proof/Proofs/Transfers.lean ====
section
/-! PROOF. A descriptor that is taken, its units and its end by XFER_STOP (R33 to R44, R50, R52): O14, O17, O19. -/

-- As in the tests: each theorem that waits for the kernel in parallel would keep a thread.
set_option Elab.async false

namespace Sys2Proof.Machine

/-- What a frame that the link takes at once leaves, where its block asks for no write. -/
theorem exec_frame {c : Instr} {s t : State} (h : LinkTakes s) (hs : stalls c s = false) (hc : c ≠ .linkHello)
    (ht : handFrame c s = t) (hb : Between t) : event (arrive c) s = .next t := by
  rw [event_arrive h hs, takeFrame_up h.2.1 hc, ht, clearTouched_of_between hb]

/-! ## A descriptor -/

theorem passes_segments {s : State} {cls : XferClass} {l : List Piece} (h : ∀ q ∈ l, Passes s cls q) :
    ∃ segs : List Segment, judgeAll s cls l = .inr segs ∧ segs.length = l.length
      ∧ ∀ p ∈ l.zip segs, SegmentOf s cls p.1 p.2 := by
  induction l with
  | nil => exact ⟨[], rfl, rfl, fun p hp => nomatch hp⟩
  | cons q l ih =>
    obtain ⟨g, judged, segment⟩ := judgePiece_passes (h q List.mem_cons_self)
    obtain ⟨segs, all, same, each⟩ := ih fun q hq => h q (List.mem_cons_of_mem _ hq)
    refine ⟨g :: segs, ?_, by simp [same], fun p hp => ?_⟩
    · unfold judgeAll
      simp only [judged, all]
    · rcases List.mem_cons.mp hp with rfl | hp
      · exact segment
      · exact each p hp

theorem ordinary_iff (cls : XferClass) : ordinary cls = true ↔ cls = .read ∨ cls = .write := by
  cases cls <;> simp [ordinary]

theorem fenced_iff (cls : XferClass) (e : Extent) (s : State) : fenced cls e s = true
    ↔ (cls = .read ∨ cls = .write) ∧ ∃ w, s.rekey.fence = some w ∧ extentsOverlap e w = true := by
  unfold fenced
  cases s.rekey.fence <;> simp [ordinary_iff]

theorem takeDescriptor_passes {t : Fin 32} {cls : XferClass} {e : Extent} {order : Nat} {s : State} {segs : List Segment}
    (h1 : openCheck t cls e s = none) (h2 : orderCheck cls e order s = none)
    (h3 : judgeAll s cls (rangeWalk s e) = .inr segs) : takeDescriptor t cls e order s
      = if fenced cls e s then holdOrRefuse t cls e s
        else admitEntry t cls e (if ordinary cls then none else some order) segs s := by
  unfold takeDescriptor
  simp only [h1, h2, h3]

/-- R40: what an admission makes of the entry and the slots. -/
theorem admitEntry_eq (t : Fin 32) (cls : XferClass) (e : Extent) (order : Option Nat) (segs : List Segment) (s : State) :
    ∃ v : Vector Slot 18, admitEntry t cls e order segs s = pushFrame (.xferAdmit t) { s with
        adm := { s.adm with table := s.adm.table.set t (.admitted ⟨cls, e, order, segs, 0, 0, 0, false⟩) }
        slots := v }
      ∧ ∀ k : Fin 18, v[k] = if (segs.any fun g => decide (g.treatment = .cipher k)) = true then pinnedSlot s.slots[k]
        else s.slots[k] := by
  obtain ⟨rest, pins⟩ := pinPass segs (setEntry t (.admitted ⟨cls, e, order, segs, 0, 0, 0, false⟩) s)
  refine ⟨_, ?_, pins⟩
  unfold admitEntry
  dsimp only
  generalize (slotsNamed segs).foldl (fun s k => pinSlot k s) _ = m at rest ⊢
  rw [rest]
  rfl

/-- Settles O14: each piece that passes becomes its segment, and the pins are one pass over the slots named. -/
theorem xferOpenAdmitsOrHolds : Obligations.XferOpenAdmitsOrHolds := by
  intro tag cls start count order s hl e pieces ok orderOk passes touchesFence
  have hb : s.store.touched = [] := hl.2.2.2
  have up := hl.2.1
  obtain ⟨segs, judged, same, each⟩ := passes_segments passes
  have taken := takeDescriptor_passes ok orderOk judged
  have run : ∀ t, takeDescriptor tag cls e order s = t → Between t →
      exec (.xferOpen tag cls start count order) s = .next t := fun t ht hbt =>
    exec_frame hl rfl (by nofun) ht hbt
  refine ⟨fun free => ?_, fun fence => ⟨fun room => ?_, fun full => ?_⟩⟩
  · rw [if_neg (by rw [fenced_iff]; exact free)] at taken
    obtain ⟨v, admits, pins⟩ := admitEntry_eq tag cls e (if ordinary cls then none else some order) segs s
    rw [admits] at taken
    refine ⟨_, run _ (taken.trans (pushFrame_up up)) hb, segs, same, each, ?_, pins⟩
    simp only [ordinary_iff]
    rfl
  · rw [if_pos ((fenced_iff cls e s).mpr fence), holdOrRefuse,
      if_pos (show s.adm.hold.length < holdListSize from room)] at taken
    exact run _ (taken.trans (pushFrame_up up)) hb
  · rw [if_pos ((fenced_iff cls e s).mpr fence), holdOrRefuse,
      if_neg (by unfold holdListSize; omega)] at taken
    exact run _ (taken.trans (pushFrame_up up)) hb

/-! ## Units -/

theorem treatUnit_pad {x : Xfer} {index : Nat} {payload : UnitData} {s : State} {g : Segment}
    (hg : segmentOf x index = some g) (ht : g.treatment = .pad) : treatUnit x index payload s = some (true, 0) := by
  unfold treatUnit
  simp only [hg, ht]

theorem treatUnit_cipher {x : Xfer} {index : Nat} {payload : UnitData} {s : State} {g : Segment} {k : Fin 18} {key : Key}
    (hg : segmentOf x index = some g) (ht : g.treatment = .cipher k) (hk : slotKey s.slots[k] = some key) :
    treatUnit x index payload s = some (false, Config.cipher key (Config.saltBits s.copies.ranges[g.range].salt)
      (x.extent.start + index) (enciphers x.cls) payload) := by
  unfold treatUnit
  simp only [hg, ht, hk]

theorem enciphers_eq (cls : XferClass) : enciphers cls = decide (cls = .write ∨ cls = .migrateWrite) := by
  cases cls <;> rfl

/-- R42: the unit at the head of the buffer, in its order and not the last. -/
theorem exec_unit {u : BufUnit} {rest : List BufUnit} {x : Xfer} {s : State} {pad : Bool} {out : UnitData} (hb : Between s)
    (up : s.drive.up = true) (none_ : s.drive.inbound = []) (units : s.drive.units = u :: rest)
    (hx : s.adm.table[u.tag] = .admitted x) (turn : u.index = x.next) (more : u.index + 1 < x.extent.len)
    (ht : treatUnit x u.index u.payload s = some (pad, out)) :
    exec .cipherUnitTake s = .next (sent (.xferUnit u.tag pad u.index out) { s with
      adm := { s.adm with table := s.adm.table.set u.tag (.admitted (countUnit pad x)) }
      drive := { s.drive with units := rest } }) := by
  have took : takeUnit s = some (sent (.xferUnit u.tag pad u.index out) { s with
      adm := { s.adm with table := s.adm.table.set u.tag (.admitted (countUnit pad x)) }
      drive := { s.drive with units := rest } }) := by
    have goesOn : ¬(countUnit pad x).extent.len ≤ (countUnit pad x).next := by
      change ¬x.extent.len ≤ x.next + 1
      omega
    unfold takeUnit
    simp only [units, hx, if_pos turn, ht]
    unfold endIfLast
    rw [if_neg goesOn]
    exact congrArg some (pushFrame_up up)
  change execCipherUnitTake s = _
  unfold execCipherUnitTake
  rw [clearTouched_of_between hb, took]
  refine congrArg Host.Outcome.next ((congrArg clearTouched (drainInbound_none ?_)).trans (clearTouched_of_between ?_))
  · exact none_
  · exact hb

/-- Settles O17: the treatment of the segment in the one case, the room in the buffer and the entry in the other. -/
theorem unitsJoinAndAreAnswered : Obligations.UnitsJoinAndAreAnswered := by
  constructor
  · intro u rest x g s hb up none_ units hx turn more hg after
    refine ⟨fun pad => ?_, fun k key cipher hk => ?_⟩
    · rw [exec_unit hb up none_ units hx turn more (treatUnit_pad hg pad)]
      simp only [countUnit, Bool.or_true, if_true]
      rfl
    · rw [exec_unit hb up none_ units hx turn more (treatUnit_cipher hg cipher hk), enciphers_eq]
      simp only [countUnit, Bool.or_false, Bool.false_eq_true, if_false]
      rfl
  · intro tag index payload s hl c joined
    obtain ⟨running, up, none_, hb⟩ := id hl
    refine ⟨fun full => ?_, fun room => ?_⟩
    · have waits : stalls c s = true := by
        simp only [c, stalls, up, Bool.true_and, decide_eq_true_eq]
        exact full
      have arrives : arrive c s = { s with drive := { s.drive with inbound := [c] } } := by
        simp only [arrive, running, none_, List.isEmpty_nil, if_true, ne_eq, not_true_eq_false, if_false, drainFrom, waits]
      change event (arrive c) s = _
      exact event_eq hb arrives hb
    · have goes : stalls c s = false := by
        simp only [c, stalls, up, Bool.true_and, decide_eq_false_iff_not]
        exact Nat.not_le.mpr room
      have run : ∀ t, unitArrives tag index payload s = t → Between t → exec c s = .next t := fun t ht hbt =>
        exec_frame hl goes (by nofun) ht hbt
      unfold unitArrives at run
      refine ⟨fun x hx => run joined ?_ hb, fun x hx => run joined ?_ hb, fun k e hx => run s ?_ hb, fun hx => run s ?_ hb⟩
      all_goals
        simp only [hx] <;> rfl

/-! ## The frames produced -/

/-- The frames produced begin with `l`. -/
def Produced (l : List OutFrame) (s : State) : Prop := l <+: s.drive.outbox

theorem produced_keeps (l : List OutFrame) : Keeps (Produced l) (allFields.filter (· ≠ .outbox)) := by
  intro s t f h
  rwa [Produced, f.outbox]

theorem produced_pushFrame {l : List OutFrame} (f : OutFrame) {s : State} (h : Produced l s) :
    Produced l (pushFrame f s) := by
  unfold pushFrame
  split
  · exact h.trans (List.prefix_append _ _)
  · exact h

theorem produced_secReply {l : List OutFrame} (c : Code) (b : AnswerBody) {s : State} (h : Produced l s) :
    Produced l (secReply c b s) := by
  unfold secReply
  split
  · exact h
  · have idle : Produced l { s with cmd := { s.cmd with sec := none } } := h
    dsimp only
    split
    · exact (produced_keeps l).of idle (frame_noticeSec _ _)
    · exact produced_pushFrame _ idle

theorem produced_secAnswerDue {l : List OutFrame} {s : State} (h : Produced l s) : Produced l (secAnswerDue s) := by
  unfold secAnswerDue
  split
  · split
    · split
      · exact produced_secReply _ _ h
      · exact h
    · exact h
  · exact h

theorem produced_settleWaiters {l : List OutFrame} {s : State} (h : Produced l s) : Produced l (settleWaiters s) := by
  rw [settleWaiters_eq]
  refine (produced_keeps l).of ?_ (frame_settlePlat _)
  unfold settleSec
  split
  · split
    · exact produced_secAnswerDue h
    · exact h
  · exact h

theorem produced_closeFinish {l : List OutFrame} (r : Fin 16) {s : State} (h : Produced l s) :
    Produced l (closeFinish r s) := by
  cases hh : heldBy s.ranges[r].run with
  | none => rwa [closeFinish_none hh]
  | some g =>
    rw [closeFinish_eq hh]
    exact produced_settleWaiters ((produced_keeps l).of ((produced_keeps l).of h (frame_locked r g s)) (frame_closed r g s))

theorem produced_closeIfDrained {l : List OutFrame} (r : Fin 16) {s : State} (h : Produced l s) :
    Produced l (closeIfDrained r s) := by
  rw [closeIfDrained_eq]
  split
  · exact produced_closeFinish r h
  · exact h

theorem produced_sendMigrateOrder {l : List OutFrame} {s : State} (h : Produced l s) :
    Produced l (sendMigrateOrder s) := by
  unfold sendMigrateOrder
  split
  · exact h
  · split
    · exact h
    · exact produced_pushFrame _ h

/-! ## A departure from ADMITTED -/

/-- An order that goes changes the Rekey Engine and the frames produced. -/
theorem Frame.ordersOnly {s t : State} (f : Frame [.order, .intended, .counter, .outbox] s t) :
    t = { s with rekey := t.rekey, drive := { s.drive with outbox := t.drive.outbox } } := by
  have rekey : overlay _ s t = t := f.eq
  replace rekey := congrArg State.rekey rekey
  conv_lhs => rw [← f.eq]
  simpa [overlay] using rekey

/-- R52: the entry's pins are given back and its ranges have tested their drain. -/
def departed (x : Xfer) (s : State) : State :=
  (rangesNamed x.segs).foldl (fun s r => closeIfDrained r s) ((slotsNamed x.segs).foldl (fun s k => unpinSlot k s) s)

theorem leaveAdmitted_eq (x : Xfer) (s : State) :
    leaveAdmitted x s = if x.cls = .write then sendMigrateOrder (departed x s) else departed x s := rfl

theorem frame_departed_leaves (x : Xfer) (s : State) :
    Frame [.order, .intended, .counter, .outbox] (departed x s) (leaveAdmitted x s) :=
  .ite (frame_sendMigrateOrder _) (.refl _ _)

theorem produced_leaveAdmitted {l : List OutFrame} (x : Xfer) {s : State} (h : Produced l s) :
    Produced l (leaveAdmitted x s) := by
  have unpinned : Produced l ((slotsNamed x.segs).foldl (fun s k => unpinSlot k s) s) := by
    rw [(unpinPass x.segs s).1]
    exact h
  have closes := keeps_foldl (f := fun s r => closeIfDrained r s) (fun s r => produced_closeIfDrained r)
    (rangesNamed x.segs) _ unpinned
  rw [leaveAdmitted_eq]
  split
  · exact produced_sendMigrateOrder closes
  · exact closes

theorem leaveAdmitted_ranges (x : Xfer) (s : State) (r : Fin 16) : (leaveAdmitted x s).ranges[r]
    = if r ∈ rangesNamed x.segs ∧ closesNow r s = true then { s.ranges[r] with run := .locked } else s.ranges[r] := by
  have pins := Frame.foldl (f := fun s k => unpinSlot k s) (fun s k => frame_setSlot k _ s) (slotsNamed x.segs) s
  rw [(frame_departed_leaves x s).ranges, departed, closesPass_ranges, closesNow_congr pins.table (by rw [pins.ranges]),
    pins.ranges]

theorem slotPins_retired (v : Slot) : slotPins (retiredSlot v) = slotPins v := by
  cases v with
  | live o k n => by_cases h : n = 0 <;> simp [retiredSlot, slotPins, h]
  | _ => rfl

theorem slotPins_unpinned (v : Slot) : slotPins (unpinnedSlot v) = slotPins v - 1 := by
  cases v with
  | draining o k n => by_cases h : n ≤ 1 <;> simp [unpinnedSlot, slotPins, h]
  | _ => rfl

/-- R52: one pin less on each slot that the entry's segments name; a close that completes with it moves no pin. -/
theorem leaveAdmitted_pins (x : Xfer) (s : State) (k : Fin 18) :
    slotPins (leaveAdmitted x s).slots[k] = slotPins s.slots[k] - if k ∈ slotsNamed x.segs then 1 else 0 := by
  have closes : ∀ (l : List (Fin 16)) (m : State),
      slotPins (l.foldl (fun s r => closeIfDrained r s) m).slots[k] = slotPins m.slots[k] := fun l m =>
    keeps_foldl (Inv := fun n => slotPins n.slots[k] = slotPins m.slots[k]) (f := fun s r => closeIfDrained r s)
      (fun n r h => by
        rcases closeIfDrained_slot r k n with e | e
        · rw [e, h]
        · rw [e, slotPins_retired, h]) l m rfl
  rw [(frame_departed_leaves x s).slots, departed, closes, (unpinPass x.segs s).2 k]
  have named : k ∈ slotsNamed x.segs ↔ (x.segs.any fun g => decide (g.treatment = .cipher k)) = true := by
    simp [slotsNamed]
  by_cases h : k ∈ slotsNamed x.segs
  · rw [if_pos h, if_pos (named.mp h), slotPins_unpinned]
  · rw [if_neg h, if_neg (fun y => h (named.mpr y)), Nat.sub_zero]

/-- R52: with no segment in a CLOSING range a departure gives back the pins, and a WRITE's may send a migration order. -/
theorem departed_of_not_closing {x : Xfer} {s : State}
    (h : ∀ r ∈ rangesNamed x.segs, ∀ g d ws, s.ranges[r].run ≠ .closing g d ws) :
    ∃ v : Vector Slot 18, departed x s = { s with slots := v }
      ∧ ∀ k : Fin 18, v[k] = if k ∈ slotsNamed x.segs then unpinnedSlot s.slots[k] else s.slots[k] := by
  obtain ⟨rest, pins⟩ := unpinPass x.segs s
  have named : ∀ k, k ∈ slotsNamed x.segs ↔ (x.segs.any fun g => decide (g.treatment = .cipher k)) = true := fun k => by
    simp [slotsNamed]
  refine ⟨_, ?_, fun k => by simpa only [named] using pins k⟩
  unfold departed
  generalize (slotsNamed x.segs).foldl (fun s k => unpinSlot k s) s = m at rest ⊢
  rw [← rest]
  have same : ∀ (l : List (Fin 16)), (∀ r ∈ l, r ∈ rangesNamed x.segs) → l.foldl (fun s r => closeIfDrained r s) m = m := by
    intro l
    induction l with
    | nil => exact fun _ => rfl
    | cons r l ih =>
      intro hl
      rw [List.foldl_cons, closeIfDrained_of_not_closing, ih fun q hq => hl q (List.mem_cons_of_mem r hq)]
      rw [rest]
      exact h r (hl r List.mem_cons_self)
  exact same _ fun _ hr => hr

/-- Settles O19: a departure from ADMITTED, with its pins, its closes and the frames produced; the other ends are record
updates. -/
theorem xferStopEndsTheTag : Obligations.XferStopEndsTheTag := by
  intro tag s hl freed
  have hb : s.store.touched = [] := hl.2.2.2
  have up := hl.2.1
  refine ⟨fun x hx => ?_, fun x hx => ?_, fun c e he => ?_, fun free => ?_⟩
  · have ended : handFrame (.xferStop tag) s
        = leaveAdmitted x (sent (.xferEnd tag .stopped x.answered x.ciphered) freed) := by
      have pushed : pushFrame (.xferEnd tag .stopped x.answered x.ciphered) freed = _ := pushFrame_up (s := freed) up
      change stopTransfer tag s = _
      unfold stopTransfer
      simp only [hx]
      rw [← pushed]
      rfl
    have run : exec (.xferStop tag) s = .next (clearTouched (handFrame (.xferStop tag) s)) := by
      refine (event_arrive hl rfl).trans ?_
      rw [takeFrame_up up (by nofun)]
    rw [ended] at run
    generalize hm : sent (.xferEnd tag .stopped x.answered x.ciphered) freed = m at run
    have started : Frame [.table, .units, .outbox] s m := by
      rw [← hm]
      exact ⟨rfl, rfl, le_rfl⟩
    have f := frame_leaveAdmitted x m
    have g := f.after (N := .table :: .units :: leaveFields) started
    have adm : (leaveAdmitted x m).adm = freed.adm := f.adm.trans (by rw [← hm]; rfl)
    have drains : ∀ r, drained r m = drained r freed := fun r => drained_congr (by rw [← hm]; rfl) r
    refine ⟨_, run, ?_, ?_, ?_, ?_, ?_, adm, ?_, g.watch, g.cred, g.erase, g.derive, g.draws, fun still => ?_⟩
    · refine (congrArg (fun a : Admission => a.table[tag]) adm).trans ?_
      simp [freed]
    · exact f.units.trans (by rw [← hm]; rfl)
    · exact produced_leaveAdmitted x (show Produced _ m by rw [← hm]; exact List.prefix_refl _)
    · intro k
      rw [← started.slots]
      exact leaveAdmitted_pins x m k
    · intro r
      refine (leaveAdmitted_ranges x m r).trans ?_
      have now := closesNow_iff r m
      rw [started.ranges, drains] at now
      rw [started.ranges]
      generalize s.ranges[r] = v at now ⊢
      obtain ⟨run, mark⟩ := v
      cases run <;> simp_all
    · refine f.rekeyOnly.trans ?_
      rw [started.copies]
      rfl
    · have still' : ∀ r ∈ rangesNamed x.segs, ∀ g d ws, m.ranges[r].run ≠ .closing g d ws := by
        rw [started.ranges]
        exact still
      obtain ⟨v, gone, slots⟩ := departed_of_not_closing still'
      have left := frame_departed_leaves x m
      rw [gone] at left
      refine ⟨fun k => ?_, ?_, fun other => ?_⟩
      · refine (congrArg (fun a : Vector Slot 18 => a[k]) left.slots).trans ((slots k).trans ?_)
        rw [started.slots]
      · refine (congrArg clearTouched left.ordersOnly).trans ?_
        generalize leaveAdmitted x m = t at left
        rw [← hm]
        refine (clearTouched_of_between (by exact hb)).trans ?_
        have e : t.slots = v := left.slots
        simp only [clearTouched, e]
        rfl
      · rw [leaveAdmitted_eq, if_neg other, gone, ← hm]
        exact clearTouched_of_between (by exact hb)
  · refine exec_frame hl rfl (by nofun) ?_ (between_sent hb)
    change stopTransfer tag s = _
    unfold stopTransfer
    simp only [hx]
    exact pushFrame_up (s := freed) up
  · refine exec_frame hl rfl (by nofun) ?_ (between_sent hb)
    change stopTransfer tag s = _
    unfold stopTransfer
    simp only [he]
    exact pushFrame_up up
  · refine exec_frame hl rfl (by nofun) ?_ hb
    change stopTransfer tag s = _
    unfold stopTransfer
    simp only [free]

end Sys2Proof.Machine
end


-- ==== Sys2Proof/Proofs/Locks.lean ====
section
/-! PROOF. The orderly close of a range by LOCK or LOCK_ALL: what it refuses, closes, pauses and answers (R21, R22, R55,
R82, R108, R115, R121): O29. -/

-- As in the tests: each theorem that waits for the kernel in parallel would keep a thread.
set_option Elab.async false

namespace Sys2Proof.Machine

/-! ## The walk -/

/-- R33: the walk depends on the range records, the capacity and what it sees of the rekey. -/
theorem rangeWalk_congr {s t : State} (hr : t.copies.ranges = s.copies.ranges) (hf : t.copies.factory = s.copies.factory)
    (hv : rekeyView t = rekeyView s) (e : Extent) : rangeWalk t e = rangeWalk s e := by
  have defs : definedExtent t.copies = definedExtent s.copies := funext (definedExtent_congr hr)
  have stops : ∀ r p, pieceStop t.copies r p = pieceStop s.copies r p := fun r p => by
    unfold pieceStop nextStart
    rw [defs, hf]
  have piece : ∀ stop p, pieceAt t stop p = pieceAt s stop p := fun stop p => by
    unfold pieceAt
    simp only [rangeAt_congr hr, hv, stops]
  have walk : ∀ (fuel p : Nat), walkFrom t (extentEnd e) fuel p = walkFrom s (extentEnd e) fuel p := by
    intro fuel
    induction fuel with
    | zero => exact fun _ => rfl
    | succ fuel ih =>
      intro p
      simp only [walkFrom, piece, ih]
  exact walk _ _

theorem touches_walk {s t : State} (hr : t.copies.ranges = s.copies.ranges) (hf : t.copies.factory = s.copies.factory)
    (hv : rekeyView t = rekeyView s) : touches t = touches s := by
  funext r e
  rw [touches, touches, rangeWalk_congr hr hf hv]

/-! ## Held descriptors refused -/

/-- Whether an entry is a held descriptor that `p` names. -/
def cutHeld (p : Extent → Bool) : Entry → Bool
  | .held _ e => p e
  | _ => false

theorem refuseHeld_table (c : Code) (r : Option (Fin 16)) (t : Fin 32) (s : State) :
    (refuseHeld c r t s).adm.table = s.adm.table.set t .free := by
  rw [refuseHeld, (frame_pushFrame _ _).table]
  rfl

theorem refuseHeld_hold (c : Code) (r : Option (Fin 16)) (t : Fin 32) (s : State) :
    (refuseHeld c r t s).adm.hold = s.adm.hold.filter fun u => u != t := by
  rw [refuseHeld, (frame_pushFrame _ _).hold]
  rfl

/-- One step of a pass that refuses held descriptors. -/
def refuseOne (p : Extent → Bool) (c : Code) (r : Option (Fin 16)) (s : State) (t : Fin 32) : State :=
  if cutHeld p s.adm.table[t] then refuseHeld c r t s else s

theorem refuseHeldWhere_eq (p : Extent → Bool) (c : Code) (r : Option (Fin 16)) (s : State) :
    refuseHeldWhere p c r s = s.adm.hold.foldl (refuseOne p c r) s := by
  unfold refuseHeldWhere
  congr 1
  funext m t
  unfold refuseOne cutHeld
  split <;> simp_all

/-- What a pass of refusals leaves, which meets the entries of `l`. -/
structure RefusedOver (p : Extent → Bool) (c : Code) (r : Option (Fin 16)) (l : List (Fin 32)) (s t : State) : Prop where
  table : ∀ g : Fin 32, t.adm.table[g] = if g ∈ l ∧ cutHeld p s.adm.table[g] = true then .free else s.adm.table[g]
  hold : t.adm.hold = s.adm.hold.filter fun g => !(decide (g ∈ l) && cutHeld p s.adm.table[g])
  told : s.drive.up = true → ∀ g ∈ l, cutHeld p s.adm.table[g] = true → .xferRefuse g c r ∈ t.drive.outbox
  grows : s.drive.outbox <+: t.drive.outbox

theorem refuseOne_over (p : Extent → Bool) (c : Code) (r : Option (Fin 16)) (t : Fin 32) (s : State) :
    RefusedOver p c r [t] s (refuseOne p c r s t) := by
  unfold refuseOne
  split
  next cut =>
    refine ⟨fun g => ?_, ?_, fun up g hg _ => ?_, ?_⟩
    · rw [table_set_get (refuseHeld_table c r t s)]
      by_cases e : g = t
      · subst e
        rw [if_pos rfl, if_pos ⟨List.mem_singleton_self g, cut⟩]
      · simp [e]
    · rw [refuseHeld_hold]
      congr 1
      funext g
      by_cases e : g = t
      · subst e
        rw [cut]
        simp
      · simp [e]
    · obtain rfl := List.mem_singleton.mp hg
      unfold refuseHeld pushFrame
      rw [if_pos (show (setEntry g .free s).drive.up = true from up)]
      exact List.mem_append_right _ (List.mem_singleton_self _)
    · exact produced_pushFrame _ (List.prefix_refl _)
  next keep =>
    refine ⟨fun g => ?_, ?_, fun _ g hg cut => ?_, List.prefix_refl _⟩
    · rw [if_neg]
      rintro ⟨hg, cut⟩
      obtain rfl := List.mem_singleton.mp hg
      exact keep cut
    · symm
      refine List.filter_eq_self.mpr fun g _ => ?_
      by_cases e : g = t
      · subst e
        rw [Bool.eq_false_of_not_eq_true keep]
        simp
      · simp [e]
    · obtain rfl := List.mem_singleton.mp hg
      exact absurd cut keep

theorem refuse_over (p : Extent → Bool) (c : Code) (r : Option (Fin 16)) (l : List (Fin 32)) (s : State) :
    RefusedOver p c r l s (l.foldl (refuseOne p c r) s) := by
  induction l generalizing s with
  | nil => exact ⟨fun g => by simp, by simp, fun _ g hg => by simp at hg, List.prefix_refl _⟩
  | cons t l ih =>
    have head := refuseOne_over p c r t s
    have up : (refuseOne p c r s t).drive.up = s.drive.up := by
      unfold refuseOne
      split
      · exact (frame_refuseHeld c r t s).up
      · rfl
    have rest := ih (refuseOne p c r s t)
    rw [List.foldl_cons]
    generalize refuseOne p c r s t = m at head rest up
    have cut : ∀ g : Fin 32, g ≠ t → cutHeld p m.adm.table[g] = cutHeld p s.adm.table[g] := fun g hg => by
      rw [head.table g, if_neg (by simp [hg])]
    have gone : cutHeld p m.adm.table[t] = false := by
      rw [head.table t]
      by_cases h : cutHeld p s.adm.table[t] = true
      · rw [if_pos ⟨List.mem_singleton_self t, h⟩]
        rfl
      · rw [if_neg fun x => h x.2]
        exact Bool.eq_false_of_not_eq_true h
    refine ⟨fun g => ?_, ?_, fun hu g hg hc => ?_, head.grows.trans rest.grows⟩
    · rw [rest.table g]
      by_cases e : g = t
      · subst e
        rw [gone, head.table]
        simp only [Bool.false_eq_true, and_false, if_false, List.mem_cons, true_and, true_or]
      · rw [cut g e, head.table g]
        simp [e]
    · rw [rest.hold, head.hold, List.filter_filter]
      congr 1
      funext g
      by_cases e : g = t
      · subst e
        rw [gone]
        simp
      · rw [cut g e]
        simp [e]
    · by_cases e : g = t
      · subst e
        exact rest.grows.subset (head.told hu g (List.mem_singleton_self g) hc)
      · exact rest.told (up.trans hu) g ((List.mem_cons.mp hg).resolve_left e) (by rw [cut g e]; exact hc)

/-- R55: the held descriptors that `p` names are FREE and off the list; no other entry has changed. -/
structure HeldRefused (p : Extent → Bool) (s t : State) : Prop where
  table : ∀ g : Fin 32, t.adm.table[g] = if cutHeld p s.adm.table[g] = true then .free else s.adm.table[g]
  hold : ∀ g, g ∈ t.adm.hold ↔ g ∈ s.adm.hold ∧ cutHeld p s.adm.table[g] = false
  ok : HoldListOk t

theorem cutHeld_holds {p : Extent → Bool} {s : State} (h : HoldListOk s) {g : Fin 32} (hc : cutHeld p s.adm.table[g] = true) :
    g ∈ s.adm.hold := by
  refine (h.2 g).mpr ?_
  unfold cutHeld at hc
  split at hc
  · rename_i c e he
    exact ⟨c, e, he⟩
  · cases hc

theorem refuseHeldWhere_refused {p : Extent → Bool} {s : State} (h : HoldListOk s) (c : Code) (r : Option (Fin 16)) :
    HeldRefused p s (refuseHeldWhere p c r s) := by
  have passed := refuse_over p c r s.adm.hold s
  rw [← refuseHeldWhere_eq] at passed
  generalize refuseHeldWhere p c r s = t at passed
  have table : ∀ g : Fin 32, t.adm.table[g] = if cutHeld p s.adm.table[g] = true then .free else s.adm.table[g] := fun g => by
    rw [passed.table g]
    by_cases hc : cutHeld p s.adm.table[g] = true
    · rw [if_pos ⟨cutHeld_holds h hc, hc⟩, if_pos hc]
    · rw [if_neg (fun x => hc x.2), if_neg hc]
  have hold : ∀ g, g ∈ t.adm.hold ↔ g ∈ s.adm.hold ∧ cutHeld p s.adm.table[g] = false := fun g => by
    rw [passed.hold, List.mem_filter]
    exact ⟨fun ⟨h1, h2⟩ => ⟨h1, by simpa [h1] using h2⟩, fun ⟨h1, h2⟩ => ⟨h1, by simpa [h1] using h2⟩⟩
  refine ⟨table, hold, by rw [passed.hold]; exact h.1.filter _, fun g => ?_⟩
  rw [hold, h.2, table]
  by_cases hc : cutHeld p s.adm.table[g] = true
  · rw [if_pos hc, hc]
    simp
  · rw [if_neg hc, Bool.eq_false_of_not_eq_true hc]
    simp

/-- R55: what refusals make of one entry. -/
theorem HeldRefused.entry {p : Extent → Bool} {s t : State} (h : HeldRefused p s t) (ok : HoldListOk s) (g : Fin 32) :
    (∀ c e, s.adm.table[g] = .held c e → (p e = true → t.adm.table[g] = .free ∧ g ∉ t.adm.hold)
      ∧ (p e = false → t.adm.table[g] = s.adm.table[g] ∧ g ∈ t.adm.hold))
    ∧ ((∀ c e, s.adm.table[g] ≠ .held c e) → t.adm.table[g] = s.adm.table[g]) := by
  have table := h.table g
  have hold := h.hold g
  have listed := ok.2 g
  generalize s.adm.table[g] = v at table hold listed
  refine ⟨fun c e hv => ?_, fun none_ => ?_⟩
  · subst hv
    refine ⟨fun hit => ?_, fun miss => ?_⟩
    · have cut : cutHeld p (.held c e) = true := hit
      rw [if_pos cut] at table
      exact ⟨table, fun x => by simp [cut] at hold; exact hold x⟩
    · have cut : cutHeld p (.held c e) = false := miss
      rw [if_neg (by simp [cut])] at table
      exact ⟨table, hold.mpr ⟨listed.mpr ⟨c, e, rfl⟩, cut⟩⟩
  · cases v with
    | held c e => exact absurd rfl (none_ c e)
    | _ => exact table

/-- Refusals move no ADMITTED entry. -/
theorem drained_refuseHeldWhere (p : Extent → Bool) (c : Code) (k : Option (Fin 16)) (r : Fin 16) (s : State) :
    drained r (refuseHeldWhere p c k s) = drained r s := by
  have passed := refuse_over p c k s.adm.hold s
  rw [← refuseHeldWhere_eq] at passed
  unfold drained
  congr 1
  funext g
  rw [passed.table g]
  split
  next cut =>
    have he := cut.2
    unfold cutHeld at he
    split at he
    · rename_i e
      simp [e, admittedIn]
    · cases he
  next => rfl

/-! ## An orderly close -/

/-- R21, R55, R115: the range of `h` has left OPEN: it is CLOSING, the descriptors held on it are refused, and its window is
withdrawn. -/
def leftOpen (r : Fin 16) (w : Option Waiter) (h : Held) (s : State) : State :=
  let refused := refuseHeldWhere (touches s r) .locked (some r) (setRun r (.closing h closeSeconds w.toList) s)
  if rekeyOn r s.copies then withdrawWindow refused else refused

theorem orderlyClose_open {r : Fin 16} {w : Option Waiter} {h : Held} {s : State} (hop : s.ranges[r].run = .opened h) :
    orderlyClose r w s = closeIfDrained r (leftOpen r w h s) := by
  unfold orderlyClose
  simp only [hop]
  rfl

theorem frame_leftOpen (r : Fin 16) (w : Option Waiter) (h : Held) (s : State) :
    Frame [.ranges, .table, .hold, .outbox, .intended, .fence] s (leftOpen r w h s) := by
  have refused := (frame_setRun r (.closing h closeSeconds w.toList) s).andThen
    (N := [.ranges, .table, .hold, .outbox, .intended, .fence]) (frame_refuseHeldWhere (touches s r) .locked (some r) _)
  unfold leftOpen
  dsimp only
  split
  · exact refused.andThen (frame_withdrawWindow _)
  · exact refused

theorem leftOpen_adm (r : Fin 16) (w : Option Waiter) (h : Held) (s : State) :
    (leftOpen r w h s).adm
      = (refuseHeldWhere (touches s r) .locked (some r) (setRun r (.closing h closeSeconds w.toList) s)).adm := by
  unfold leftOpen
  dsimp only
  split
  · exact (frame_withdrawWindow _).adm
  · rfl

theorem leftOpen_refused {r : Fin 16} {s : State} (ok : HoldListOk s) (w : Option Waiter) (h : Held) :
    HeldRefused (touches s r) s (leftOpen r w h s) := by
  have refused := refuseHeldWhere_refused (p := touches s r) (s := setRun r (.closing h closeSeconds w.toList) s) ok
    .locked (some r)
  have adm := leftOpen_adm r w h s
  exact ⟨by rw [adm]; exact refused.table, by rw [adm]; exact refused.hold, by rw [HoldListOk, adm]; exact refused.ok⟩

theorem leftOpen_run (r : Fin 16) (w : Option Waiter) (h : Held) (s : State) :
    (leftOpen r w h s).ranges = s.ranges.set r { s.ranges[r] with run := .closing h closeSeconds w.toList } := by
  have refused := frame_refuseHeldWhere (touches s r) .locked (some r) (setRun r (.closing h closeSeconds w.toList) s)
  have left : (leftOpen r w h s).ranges
      = (refuseHeldWhere (touches s r) .locked (some r) (setRun r (.closing h closeSeconds w.toList) s)).ranges := by
    unfold leftOpen
    dsimp only
    split
    · exact (frame_withdrawWindow _).ranges
    · rfl
  rw [left, refused.ranges]
  rfl

theorem leftOpen_drained (q r : Fin 16) (w : Option Waiter) (h : Held) (s : State) :
    drained q (leftOpen r w h s) = drained q s := by
  rw [drained_congr (congrArg (·.table) (leftOpen_adm r w h s)), drained_refuseHeldWhere]
  exact drained_congr rfl q

theorem leftOpen_rekey (r : Fin 16) (w : Option Waiter) (h : Held) (s : State) :
    (leftOpen r w h s).rekey = if rekeyOn r s.copies then windowWithdrawn s.rekey else s.rekey := by
  have refused := (frame_setRun r (.closing h closeSeconds w.toList) s).andThen
    (N := [.ranges, .table, .hold, .outbox]) (frame_refuseHeldWhere (touches s r) .locked (some r) _)
  unfold leftOpen
  dsimp only
  split
  · rw [withdrawWindow_eq, refused.rekey]
  · exact refused.rekey

theorem orderlyClose_eq {r : Fin 16} {w : Option Waiter} {h : Held} {s : State} (hop : s.ranges[r].run = .opened h) :
    orderlyClose r w s = if drained r s then closeFinish r (leftOpen r w h s) else leftOpen r w h s := by
  have closing : (leftOpen r w h s).ranges[r].run = .closing h closeSeconds w.toList := by
    rw [ranges_set_get (leftOpen_run r w h s), if_pos rfl]
  rw [orderlyClose_open hop, closeIfDrained_closing closing, leftOpen_drained]

/-- R21: what LOCK and LOCK_ALL make of a range's runtime part. -/
def lockedRun (w : Option Waiter) (drains : Bool) : RangeRun → RangeRun
  | .opened h => if drains then .locked else .closing h closeSeconds w.toList
  | .closing h d ws => .closing h d (ws ++ w.toList)
  | x => x

theorem orderlyClose_ranges (r : Fin 16) (w : Option Waiter) (s : State) : (orderlyClose r w s).ranges
    = s.ranges.set r { s.ranges[r] with run := lockedRun w (drained r s) s.ranges[r].run } := by
  cases hr : s.ranges[r].run with
  | opened h =>
    have run := leftOpen_run r w h s
    rw [orderlyClose_eq hr, lockedRun]
    by_cases hd : drained r s = true
    · have held : heldBy (leftOpen r w h s).ranges[r].run = some h := by
        rw [ranges_set_get run, if_pos rfl]
        rfl
      rw [if_pos hd, if_pos hd, closeFinish_ranges held, ranges_set_get run, if_pos rfl, run]
      exact ranges_set_set r _ _ s
    · rw [if_neg hd, if_neg hd, run]
  | closing h d ws =>
    unfold orderlyClose
    simp only [hr]
    rfl
  | _ =>
    have same : orderlyClose r w s = s := by
      unfold orderlyClose
      simp only [hr]
    have still : lockedRun w (drained r s) s.ranges[r].run = s.ranges[r].run := by rw [hr]; rfl
    rw [hr] at still
    rw [same, still, ← hr]
    exact (by simp : s.ranges = s.ranges.set r s.ranges[r])

theorem windowWithdrawn_twice (k : RekeyEngine) : windowWithdrawn (windowWithdrawn k) = windowWithdrawn k := by
  unfold windowWithdrawn
  split <;> simp_all

/-- R115, R121: what an orderly close makes of the rekey: nothing where it does not concern the range, or the range was not
OPEN. -/
theorem orderlyClose_rekey {r : Fin 16} {w : Option Waiter} {s : State} {k : RekeyRec} (hk : s.copies.rekey = some k) :
    (k.range ≠ r ∨ isOpen s.ranges[r].run = false →
      (orderlyClose r w s).copies = s.copies ∧ (orderlyClose r w s).rekey = s.rekey)
    ∧ (k.range = r → isOpen s.ranges[r].run = true → (orderlyClose r w s).rekey = windowWithdrawn s.rekey
      ∧ (orderlyClose r w s).copies.rekey = some (if drained r s then { k with state := .paused } else k)) := by
  cases hr : s.ranges[r].run with
  | opened h =>
    have left := frame_leftOpen r w h s
    have rekey := leftOpen_rekey r w h s
    have copies : (leftOpen r w h s).copies = s.copies := left.copies
    have held : heldBy (leftOpen r w h s).ranges[r].run = some h := by
      rw [ranges_set_get (leftOpen_run r w h s), if_pos rfl]
      rfl
    have paused := closeFinish_paused held
    rw [orderlyClose_eq hr]
    generalize leftOpen r w h s = m at left rekey copies held paused
    rw [rekeyOn_some hk] at rekey
    constructor
    · intro other
      have other : k.range ≠ r := other.resolve_right (by simp [isOpen])
      rw [if_neg (by simpa using other)] at rekey
      split
      · exact ⟨(paused.off (by rw [copies, rekeyOn_some hk]; simpa using other)).trans copies,
          (paused.other k (by rw [copies, hk]) other).trans rekey⟩
      · exact ⟨copies, rekey⟩
    · intro mine _
      rw [if_pos (by simpa using mine)] at rekey
      split
      · obtain ⟨record, window⟩ := paused.on k (by rw [copies, hk]) mine
        exact ⟨by rw [window, rekey, windowWithdrawn_twice], by rw [record]⟩
      · exact ⟨rekey, by rw [copies, hk]⟩
  | closing h d ws =>
    have same : orderlyClose r w s = setRun r (.closing h d (ws ++ w.toList)) s := by
      unfold orderlyClose
      simp only [hr]
    rw [same]
    exact ⟨fun _ => ⟨rfl, rfl⟩, fun _ x => by simp [isOpen] at x⟩
  | _ =>
    have same : orderlyClose r w s = s := by
      unfold orderlyClose
      simp only [hr]
    rw [same]
    exact ⟨fun _ => ⟨rfl, rfl⟩, fun _ x => by simp [isOpen] at x⟩

/-- R55: what an orderly close makes of the entries: of an OPEN range the descriptors held on it are refused. -/
theorem orderlyClose_refused {r : Fin 16} {s : State} (ok : HoldListOk s) (w : Option Waiter) :
    HeldRefused (fun e => isOpen s.ranges[r].run && touches s r e) s (orderlyClose r w s) := by
  cases hr : s.ranges[r].run with
  | opened h =>
    have refused := leftOpen_refused (r := r) ok w h
    have adm : (orderlyClose r w s).adm = (leftOpen r w h s).adm := by
      rw [orderlyClose_eq hr]
      split
      · exact (frame_closeFinish r _).adm
      · rfl
    have names : (fun e => isOpen (RangeRun.opened h) && touches s r e) = touches s r := by
      funext e
      simp [isOpen]
    rw [names]
    exact ⟨by rw [adm]; exact refused.table, by rw [adm]; exact refused.hold, by rw [HoldListOk, adm]; exact refused.ok⟩
  | _ =>
    have adm : (orderlyClose r w s).adm = s.adm := by
      unfold orderlyClose
      simp only [hr] <;> rfl
    have none_ : ∀ e, cutHeld (fun _ => false) e = false := by
      intro e
      cases e <;> rfl
    simp only [isOpen, Bool.false_and]
    exact ⟨fun g => by rw [adm, none_]; simp, fun g => by rw [adm, none_]; simp, by rw [HoldListOk, adm]; exact ok⟩

theorem drained_of_refused {p : Extent → Bool} {s t : State} (h : HeldRefused p s t) (r : Fin 16) :
    drained r t = drained r s := by
  unfold drained
  congr 1
  funext g
  rw [h.table g]
  split
  next cut =>
    unfold cutHeld at cut
    split at cut
    · rename_i e
      simp [e, admittedIn]
    · cases cut
  next => rfl

theorem orderlyClose_drained (q r : Fin 16) (w : Option Waiter) (s : State) :
    drained q (orderlyClose r w s) = drained q s := by
  cases hr : s.ranges[r].run with
  | opened h =>
    have adm : (orderlyClose r w s).adm = (leftOpen r w h s).adm := by
      rw [orderlyClose_eq hr]
      split
      · exact (frame_closeFinish r _).adm
      · rfl
    rw [drained_congr (congrArg (·.table) adm), leftOpen_drained]
  | _ =>
    have adm : (orderlyClose r w s).adm = s.adm := by
      unfold orderlyClose
      simp only [hr] <;> rfl
    rw [drained_congr (congrArg (·.table) adm)]

/-! ## The answer -/

theorem settlePlat_of_none {s : State} (h : ∀ j, s.cmd.plat = some j → j.phase ≠ .closing) : settlePlat s = s := by
  unfold settlePlat
  split
  · rename_i j hj
    exact if_neg fun x => h j hj x.1
  · rfl

theorem settleSec_of_other {s : State} {j : SecJob} (hj : s.cmd.sec = some j) (hp : j.phase ≠ .closing) :
    settleSec s = s := by
  unfold settleSec
  rw [hj]
  exact if_neg fun x => hp x.1

/-- R21: the request, its closes begun, waits for the last of them. -/
def closing (j : SecJob) (s : State) : State :=
  { s with cmd := { s.cmd with sec := some { j with phase := .closing } } }

section Awaits

variable {m : State} {j : SecJob}

theorem awaitCloses_eq (hj : m.cmd.sec = some j) : awaitCloses m = settlePlat (settleSec (closing j m)) := by
  unfold awaitCloses closing
  rw [settleWaiters_eq, modSec, hj]
  rfl

theorem awaitCloses_awaited (hj : m.cmd.sec = some j) (ha : awaited .security m = true) :
    awaitCloses m = settlePlat (closing j m) := by
  have still : settleSec (closing j m) = closing j m := by
    unfold settleSec
    refine if_neg fun x => ?_
    have : awaited .security (closing j m) = awaited .security m := rfl
    rw [this, ha] at x
    exact absurd x.2 (by simp)
  rw [awaitCloses_eq hj, still]

theorem awaitCloses_answers (hj : m.cmd.sec = some j) (ha : awaited .security m = false) (hw : j.writes = [])
    (he : j.awaitsErase = false) (hl : j.lost = false) (hu : m.drive.up = true) : awaitCloses m
      = settlePlat (sent (.secAnswer (requestId j.req) (answerKind j.req) .ok .empty)
        { m with cmd := { m.cmd with sec := none } }) := by
  rw [awaitCloses_eq hj, settleSec_replies (m := closing j m) (j := { j with phase := .closing }) rfl rfl ha hw he hl hu]
  rfl

theorem awaitCloses_waits (hj : m.cmd.sec = some j) (ha : awaited .security m = false) (hw : j.writes ≠ []) :
    Answering j.req .ok .empty (awaitCloses m) := by
  rw [awaitCloses_eq hj]
  obtain ⟨q, hq, hreq, hphase⟩ := settleSec_waits (m := closing j m) (j := { j with phase := .closing }) rfl rfl ha hw
  exact ⟨q, (frame_settlePlat _).sec.trans hq, hreq, hphase⟩

end Awaits

/-! ## LOCK -/

/-- The state in which LOCK begins its close (R21, R82). -/
def lockTaken (id : BitVec 16) (b : Byte) (s : State) : State := leavePending (rangeIx b) (taken (.lock id b) s)

theorem exec_lock {id : BitVec 16} {b : Byte} {s : State} (h : ChannelTakes s) (ha : alive s.copies.watch.state = true) :
    exec (.lock id b) s = .next (clearTouched (lockRequest b (taken (.lock id b) s))) :=
  event_request h rfl rfl rfl ha

theorem lockRequest_refuses {b : Byte} {s : State} (h : 16 ≤ b.toNat ∨ rangeDefined s.copies (rangeIx b) = false) :
    lockRequest b s = secReply .badValue .empty s := by
  unfold lockRequest
  refine if_neg ?_
  rintro ⟨h1, h2⟩
  rcases h with h | h
  · omega
  · rw [h] at h2
    cases h2

theorem lockRequest_closes {b : Byte} {s : State} (h1 : b.toNat < 16) (h2 : rangeDefined s.copies (rangeIx b) = true) :
    lockRequest b s = awaitCloses (orderlyClose (rangeIx b) (some .security) (leavePending (rangeIx b) s)) :=
  if_pos ⟨h1, h2⟩

theorem awaited_false {w : Waiter} {s : State} : awaited w s = false ↔ ∀ q : Fin 16, w ∉ waitersOf s.ranges[q].run := by
  simp [awaited]

/-- The close of a drained range while its LOCK is still being taken: the request stays, and owes the write of a record
that the close made PAUSED. -/
theorem closeFinish_taken {r : Fin 16} {m : State} {h : Held} {d : Nat} {j : SecJob}
    (hc : m.ranges[r].run = .closing h d [.security]) (hj : m.cmd.sec = some j) (hp : j.phase ≠ .closing)
    (hl : j.lost = false) : ∃ ids, (closeFinish r m).cmd.sec = some { j with writes := j.writes ++ ids }
      ∧ (ids ≠ [] ↔ ∃ k, m.copies.rekey = some k ∧ k.range = r ∧ k.state ≠ .paused) := by
  have hh : heldBy m.ranges[r].run = some h := by rw [hc]; rfl
  obtain ⟨ids, sec, owes⟩ := closed_sec (r := r) (h := h) hj hl (by rw [hc]; exact List.mem_singleton_self _)
  refine ⟨ids, ?_, owes⟩
  rw [closeFinish_eq hh, settleWaiters_eq, (frame_settlePlat _).sec, settleSec_of_other sec hp, sec]

theorem awaited_of_waits {w : Waiter} {s : State} (r : Fin 16) (h : w ∈ waitersOf s.ranges[r].run) : awaited w s = true :=
  List.any_eq_true.mpr ⟨r, List.mem_finRange r, List.contains_iff_mem.mpr h⟩

section Lock

variable {id : BitVec 16} {b : Byte} {s : State}

/-- The frame that answers LOCK. -/
def lockAnswer (id : BitVec 16) (k : Code) : OutFrame := .secAnswer id 0x04 k .empty

/-- R82: what LOCK leaves of the auto-open pending set. -/
def offPending (b : Byte) (s : State) : State :=
  { s with cred := { s.cred with pendingSet := s.cred.pendingSet.filter fun q => q != rangeIx b } }

theorem exec_lock_closes (h : ChannelTakes s) (ha : alive s.copies.watch.state = true) (lo : b.toNat < 16)
    (defd : rangeDefined s.copies (rangeIx b) = true) : exec (.lock id b) s
      = .next (clearTouched (awaitCloses (orderlyClose (rangeIx b) (some .security) (lockTaken id b s)))) := by
  rw [exec_lock h ha]
  exact congrArg (fun m => Host.Outcome.next (clearTouched m)) (lockRequest_closes lo defd)

/-- A LOCK whose close leaves nothing to wait for and no write owed. -/
theorem lock_answered (h : ChannelTakes s) (quiet : NoCloseAwaited s) {v : Vector RangeRt 16} {k : Vector Slot 18}
    (free : ∀ q : Fin 16, .security ∉ waitersOf v[q].run) :
    clearTouched (awaitCloses { lockTaken id b s with ranges := v, slots := k })
      = sent (lockAnswer id .ok) { offPending b s with ranges := v, slots := k } := by
  have idle : ({ s.cmd with sec := none } : CommandProcessor) = s.cmd := by rw [← h.2]
  have reply := awaitCloses_answers (m := { lockTaken id b s with ranges := v, slots := k })
    (j := ⟨.lock id b, false, .taken, [], [], false⟩) rfl (not_awaited free) rfl rfl rfl h.1.2.1
  refine (congrArg clearTouched (reply.trans (settlePlat_of_none quiet.2))).trans ((clearTouched_of_between ?_).trans ?_)
  · exact h.1.2.2.2
  · have same : ({ s.cmd with sec := none } : CommandProcessor) = s.cmd := idle
    change sent _ { offPending b s with ranges := v, slots := k, cmd := { s.cmd with sec := none } } = _
    rw [same]
    rfl

/-- A LOCK whose range is still to be drained. -/
theorem lock_waits (h : ChannelTakes s) (quiet : NoCloseAwaited s) {v : Vector RangeRt 16}
    (mine : .security ∈ waitersOf v[rangeIx b].run) :
    clearTouched (awaitCloses { lockTaken id b s with ranges := v }) = { offPending b s with
      ranges := v
      cmd := { s.cmd with sec := some ⟨.lock id b, false, .closing, [], [], false⟩ } } := by
  have waits := awaitCloses_awaited (m := { lockTaken id b s with ranges := v })
    (j := ⟨.lock id b, false, .taken, [], [], false⟩) rfl (awaited_of_waits (rangeIx b) mine)
  refine (congrArg clearTouched (waits.trans (settlePlat_of_none quiet.2))).trans (clearTouched_of_between ?_)
  exact h.1.2.2.2

theorem lock_shut (h : ChannelTakes s) (ha : alive s.copies.watch.state = true) (lo : b.toNat < 16)
    (defd : rangeDefined s.copies (rangeIx b) = true) (free : awaited .security s = false) (quiet : NoCloseAwaited s)
    (shut : s.ranges[rangeIx b].run = .locked ∨ s.ranges[rangeIx b].run = .erased) :
    exec (.lock id b) s = .next (sent (lockAnswer id .ok) (offPending b s)) := by
  have same : orderlyClose (rangeIx b) (some .security) (lockTaken id b s) = lockTaken id b s := by
    have run : (lockTaken id b s).ranges[rangeIx b].run = s.ranges[rangeIx b].run := rfl
    unfold orderlyClose
    rcases shut with e | e <;> simp only [run, e]
  rw [exec_lock_closes h ha lo defd, same]
  exact congrArg _ (lock_answered (v := s.ranges) (k := s.slots) h quiet (awaited_false.mp free))

theorem lock_joins (h : ChannelTakes s) (ha : alive s.copies.watch.state = true) (lo : b.toNat < 16)
    (defd : rangeDefined s.copies (rangeIx b) = true) (quiet : NoCloseAwaited s) {hd : Held} {d : Nat} {ws : List Waiter}
    (hc : s.ranges[rangeIx b].run = .closing hd d ws) : exec (.lock id b) s = .next { offPending b s with
      ranges := s.ranges.set (rangeIx b) { s.ranges[rangeIx b] with run := .closing hd d (ws ++ [.security]) }
      cmd := { s.cmd with sec := some ⟨.lock id b, false, .closing, [], [], false⟩ } } := by
  have joined : orderlyClose (rangeIx b) (some .security) (lockTaken id b s) = { lockTaken id b s with
      ranges := s.ranges.set (rangeIx b) { s.ranges[rangeIx b] with run := .closing hd d (ws ++ [.security]) } } := by
    have run : (lockTaken id b s).ranges[rangeIx b].run = s.ranges[rangeIx b].run := rfl
    unfold orderlyClose
    simp only [run, hc]
    rfl
  rw [exec_lock_closes h ha lo defd, joined]
  refine congrArg _ (lock_waits h quiet ?_)
  simp [waitersOf]

/-- With nothing held and no rekey a range that leaves OPEN changes nothing else. -/
theorem leftOpen_plain {r : Fin 16} {w : Option Waiter} {hd : Held} {m : State} (none_ : m.adm.hold = [])
    (off : rekeyOn r m.copies = false) : leftOpen r w hd m = setRun r (.closing hd closeSeconds w.toList) m := by
  unfold leftOpen
  dsimp only
  rw [if_neg (by simp [off]), refuseHeldWhere_eq, show (setRun r (.closing hd closeSeconds w.toList) m).adm.hold = [] from none_]
  rfl

theorem lock_plain (h : ChannelTakes s) (ha : alive s.copies.watch.state = true) (lo : b.toNat < 16)
    (defd : rangeDefined s.copies (rangeIx b) = true) (free : awaited .security s = false) (quiet : NoCloseAwaited s)
    {hd : Held} (hop : s.ranges[rangeIx b].run = .opened hd) (one : hd.next = none)
    (off : rekeyOn (rangeIx b) s.copies = false) (seen : s.rekey.seen = none) (none_ : s.adm.hold = []) :
    (drained (rangeIx b) s = false → exec (.lock id b) s = .next { offPending b s with
      ranges := s.ranges.set (rangeIx b) { s.ranges[rangeIx b] with run := .closing hd 2 [.security] }
      cmd := { s.cmd with sec := some ⟨.lock id b, false, .closing, [], [], false⟩ } })
    ∧ (drained (rangeIx b) s = true → exec (.lock id b) s = .next (sent (lockAnswer id .ok) { offPending b s with
      ranges := s.ranges.set (rangeIx b) { s.ranges[rangeIx b] with run := .locked }
      slots := s.slots.set hd.current (retiredSlot s.slots[hd.current]) })) := by
  have closes := orderlyClose_eq (r := rangeIx b) (w := some .security) (s := lockTaken id b s) hop
  rw [leftOpen_plain (m := lockTaken id b s) none_ off] at closes
  rw [exec_lock_closes h ha lo defd]
  have same : drained (rangeIx b) (lockTaken id b s) = drained (rangeIx b) s := rfl
  rw [same] at closes
  constructor
  · intro busy
    rw [if_neg (by simp [busy])] at closes
    rw [closes]
    exact congrArg _ (lock_waits (v := s.ranges.set (rangeIx b)
      { s.ranges[rangeIx b] with run := .closing hd 2 [.security] }) h quiet (by simp [waitersOf]))
  · intro done
    rw [if_pos done] at closes
    rw [closes]
    have get := setRun_get (rangeIx b) (rangeIx b) (.closing hd closeSeconds [.security]) (lockTaken id b s)
    rw [if_pos rfl] at get
    have alone := closeFinish_alone (r := rangeIx b)
      (s := setRun (rangeIx b) (.closing hd closeSeconds [.security]) (lockTaken id b s)) (h := hd)
      (by
        rw [get]
        rfl)
      h.1.2.2.2 one off seen ⟨fun j hj => by cases hj; nofun, quiet.2⟩
    have locks : (setRun (rangeIx b) (.closing hd closeSeconds [.security]) (lockTaken id b s)).ranges.set (rangeIx b)
        { (setRun (rangeIx b) (.closing hd closeSeconds [.security]) (lockTaken id b s)).ranges[rangeIx b] with
          run := .locked }
        = s.ranges.set (rangeIx b) { s.ranges[rangeIx b] with run := .locked } := by
      rw [ranges_set_get (s := s) (t := setRun _ _ (lockTaken id b s)) rfl, if_pos rfl]
      exact ranges_set_set _ _ _ s
    rw [locks] at alone
    refine congrArg _ ((congrArg (fun m => clearTouched (awaitCloses m)) alone).trans (lock_answered (v := s.ranges.set (rangeIx b)
      { s.ranges[rangeIx b] with run := .locked }) (k := s.slots.set hd.current (retiredSlot s.slots[hd.current])) h quiet ?_))
    intro q
    have get := ranges_set_get (s := s) (r := rangeIx b) (v := { s.ranges[rangeIx b] with run := .locked })
      (t := { s with ranges := s.ranges.set (rangeIx b) { s.ranges[rangeIx b] with run := .locked } }) rfl q
    dsimp only at get
    rw [get]
    split
    · exact List.not_mem_nil
    · exact awaited_false.mp free q

end Lock

/-! ### The LOCK of an OPEN range -/

theorem produced_awaitCloses {l : List OutFrame} {m : State} (h : Produced l m) : Produced l (awaitCloses m) :=
  produced_settleWaiters h

/-- R55: the refusals that a close sends. -/
theorem orderlyClose_told {r : Fin 16} {w : Option Waiter} {h : Held} {s : State} (hop : s.ranges[r].run = .opened h)
    (ok : HoldListOk s) (up : s.drive.up = true) {g : Fin 32} (hg : cutHeld (touches s r) s.adm.table[g] = true) :
    ∃ l, .xferRefuse g .locked (some r) ∈ l ∧ Produced l (orderlyClose r w s) := by
  have told := (refuse_over (touches s r) .locked (some r) s.adm.hold
    (setRun r (.closing h closeSeconds w.toList) s)).told up g (cutHeld_holds ok hg) hg
  have left : (leftOpen r w h s).drive.outbox = (s.adm.hold.foldl (refuseOne (touches s r) .locked (some r))
      (setRun r (.closing h closeSeconds w.toList) s)).drive.outbox := by
    unfold leftOpen
    rw [refuseHeldWhere_eq]
    dsimp only
    split
    · exact (frame_withdrawWindow _).outbox
    · rfl
  rw [← left] at told
  refine ⟨_, told, ?_⟩
  rw [orderlyClose_open hop]
  exact produced_closeIfDrained r (List.prefix_refl _)

section LockOpen

variable {id : BitVec 16} {b : Byte} {s : State} {hd : Held}

/-- R55: what LOCK makes of the entries. -/
theorem lock_entries (up : s.drive.up = true) (hop : s.ranges[rangeIx b].run = .opened hd) (ok : HoldListOk s) {t : State}
    (ht : t = clearTouched (awaitCloses (orderlyClose (rangeIx b) (some .security) (lockTaken id b s)))) (g : Fin 32) :
    match s.adm.table[g] with
    | .held _ e =>
      (touches s (rangeIx b) e = true →
        t.adm.table[g] = .free ∧ g ∉ t.adm.hold ∧ .xferRefuse g .locked (some (rangeIx b)) ∈ t.drive.outbox)
      ∧ (touches s (rangeIx b) e = false → t.adm.table[g] = s.adm.table[g] ∧ g ∈ t.adm.hold)
    | e => t.adm.table[g] = e := by
  have walk : touches (lockTaken id b s) = touches s := touches_walk rfl rfl rfl
  have refused := orderlyClose_refused (r := rangeIx b) (s := lockTaken id b s) ok (some .security)
  have told := fun hg => orderlyClose_told (r := rangeIx b) (w := some .security) (s := lockTaken id b s) hop ok up (g := g) hg
  have names : (fun e => isOpen (lockTaken id b s).ranges[rangeIx b].run && touches (lockTaken id b s) (rangeIx b) e)
      = touches s (rangeIx b) := by
    funext e
    have : isOpen (lockTaken id b s).ranges[rangeIx b].run = true := by
      change isOpen s.ranges[rangeIx b].run = true
      rw [hop]
      rfl
    rw [this, walk, Bool.true_and]
  rw [names] at refused
  rw [walk] at told
  have adm : t.adm = (orderlyClose (rangeIx b) (some .security) (lockTaken id b s)).adm := by
    rw [ht]
    exact (frame_awaitCloses _).adm
  have refused : HeldRefused (touches s (rangeIx b)) s t :=
    ⟨by rw [adm]; exact refused.table, by rw [adm]; exact refused.hold, by rw [HoldListOk, adm]; exact refused.ok⟩
  have out : cutHeld (touches s (rangeIx b)) s.adm.table[g] = true →
      .xferRefuse g .locked (some (rangeIx b)) ∈ t.drive.outbox := fun hg => by
    obtain ⟨l, mem, produced⟩ := told hg
    rw [ht]
    exact (produced_awaitCloses produced).subset mem
  obtain ⟨cut, other⟩ := refused.entry ok g
  generalize s.adm.table[g] = v at cut other out
  cases v with
  | held c e =>
    obtain ⟨hit, miss⟩ := cut c e rfl
    exact ⟨fun x => ⟨(hit x).1, (hit x).2, out x⟩, miss⟩
  | _ => exact other nofun

theorem lock_busy (hop : s.ranges[rangeIx b].run = .opened hd) (busy : drained (rangeIx b) s = false)
    {t : State} (ht : t = clearTouched (awaitCloses (orderlyClose (rangeIx b) (some .security) (lockTaken id b s)))) :
    t.ranges = s.ranges.set (rangeIx b) { s.ranges[rangeIx b] with run := .closing hd 2 [.security] }
      ∧ t.slots = s.slots ∧ t.copies = s.copies
      ∧ t.rekey = (if rekeyOn (rangeIx b) s.copies = true then windowWithdrawn s.rekey else s.rekey)
      ∧ t.cmd.sec = some ⟨.lock id b, false, .closing, [], [], false⟩ := by
  have closes := orderlyClose_eq (r := rangeIx b) (w := some .security) (s := lockTaken id b s) hop
  have same : drained (rangeIx b) (lockTaken id b s) = drained (rangeIx b) s := rfl
  rw [same, if_neg (by simp [busy])] at closes
  rw [closes] at ht
  have ranges := leftOpen_run (rangeIx b) (some .security) hd (lockTaken id b s)
  have rekey := leftOpen_rekey (rangeIx b) (some .security) hd (lockTaken id b s)
  have left := frame_leftOpen (rangeIx b) (some .security) hd (lockTaken id b s)
  generalize leftOpen (rangeIx b) (some .security) hd (lockTaken id b s) = m at ht ranges rekey left
  have f := frame_awaitCloses m
  have awaits : awaited .security m = true := awaited_of_waits (rangeIx b) (by
    rw [ranges_set_get ranges, if_pos rfl]
    exact List.mem_singleton_self _)
  have waits := awaitCloses_awaited (m := m) (j := ⟨.lock id b, false, .taken, [], [], false⟩) left.sec awaits
  subst ht
  refine ⟨f.ranges.trans ranges, f.slots.trans left.slots, f.copies.trans left.copies, f.rekey.trans rekey, ?_⟩
  change (awaitCloses m).cmd.sec = _
  rw [waits, (frame_settlePlat _).sec]
  rfl

theorem lock_drained (h : ChannelTakes s) (free : awaited .security s = false)
    (hop : s.ranges[rangeIx b].run = .opened hd) (done : drained (rangeIx b) s = true) {t : State}
    (ht : t = clearTouched (awaitCloses (orderlyClose (rangeIx b) (some .security) (lockTaken id b s)))) :
    let answered := t.cmd.sec = none ∧ lockAnswer id .ok ∈ t.drive.outbox
    t.ranges = s.ranges.set (rangeIx b) { s.ranges[rangeIx b] with run := .locked } ∧ SlotsRetired hd s t
      ∧ (rekeyOn (rangeIx b) s.copies = false → t.copies = s.copies ∧ answered)
      ∧ ∀ k, s.copies.rekey = some k → k.range = rangeIx b →
        t.copies.rekey = some { k with state := .paused } ∧ t.rekey = windowWithdrawn s.rekey
        ∧ (k.state = .paused → answered) ∧ (k.state ≠ .paused → Answering (.lock id b) .ok .empty t) := by
  have closes := orderlyClose_eq (r := rangeIx b) (w := some .security) (s := lockTaken id b s) hop
  have same : drained (rangeIx b) (lockTaken id b s) = drained (rangeIx b) s := rfl
  rw [same, if_pos done] at closes
  have run := leftOpen_run (rangeIx b) (some .security) hd (lockTaken id b s)
  have left := frame_leftOpen (rangeIx b) (some .security) hd (lockTaken id b s)
  have ranges := orderlyClose_ranges (rangeIx b) (some .security) (lockTaken id b s)
  have run' : (lockTaken id b s).ranges[rangeIx b].run = .opened hd := hop
  rw [same, done, run', lockedRun, if_pos rfl] at ranges
  have frame := frame_orderlyClose (rangeIx b) (some .security) (lockTaken id b s)
  have record := fun k hk => orderlyClose_rekey (r := rangeIx b) (w := some .security) (s := lockTaken id b s) (k := k) hk
  rw [closes] at ht ranges frame record
  generalize leftOpen (rangeIx b) (some .security) hd (lockTaken id b s) = n at ht run left ranges frame record
  have closing : n.ranges[rangeIx b].run = .closing hd closeSeconds [.security] := by
    rw [ranges_set_get run, if_pos rfl]
    rfl
  have held : heldBy n.ranges[rangeIx b].run = some hd := by rw [closing]; rfl
  have slots := closeFinish_slots held
  have paused := closeFinish_paused held
  obtain ⟨ids, sec, owes⟩ := closeFinish_taken (j := ⟨.lock id b, false, .taken, [], [], false⟩) closing left.sec nofun rfl
  rw [left.copies] at owes
  generalize closeFinish (rangeIx b) n = m at ht ranges frame record slots paused sec
  have f := frame_awaitCloses m
  have alone : awaited .security m = false := not_awaited fun q => by
    rw [ranges_set_get ranges]
    split
    · exact List.not_mem_nil
    · exact awaited_false.mp free q
  have answers : (¬∃ k, s.copies.rekey = some k ∧ k.range = rangeIx b ∧ k.state ≠ .paused) →
      t.cmd.sec = none ∧ lockAnswer id .ok ∈ t.drive.outbox := fun none_ => by
    have nil : ids = [] := not_not.mp fun x => none_ (owes.mp x)
    subst nil ht
    have reply := awaitCloses_answers sec alone rfl rfl rfl (frame.up.trans h.1.2.1)
    change (awaitCloses m).cmd.sec = none ∧ _ ∈ (awaitCloses m).drive.outbox
    rw [reply, (frame_settlePlat _).sec, (frame_settlePlat _).outbox]
    exact ⟨rfl, mem_sent _ _⟩
  have copies : t.copies = m.copies := by rw [ht]; exact f.copies
  have rekey : t.rekey = m.rekey := by rw [ht]; exact f.rekey
  refine ⟨by rw [ht]; exact f.ranges.trans ranges, fun k => ?_, fun off => ⟨?_, answers ?_⟩, fun k hk mine => ?_⟩
  · have e : t.slots = m.slots := by rw [ht]; exact f.slots
    rw [e, slots k, left.slots]
    rfl
  · rw [copies, paused.off (by rw [left.copies]; exact off), left.copies]
    rfl
  · rintro ⟨k, hk, mine, -⟩
    rw [rekeyOn_some hk] at off
    simp [mine] at off
  · obtain ⟨window, written⟩ := (record k hk).2 mine (by rw [run']; rfl)
    rw [same, if_pos done] at written
    refine ⟨by rw [copies, written], by rw [rekey, window]; rfl, fun still => answers ?_, fun moved => ?_⟩
    · rintro ⟨k', hk', -, n⟩
      cases hk.symm.trans hk'
      exact n still
    · have some_ : ids ≠ [] := owes.mpr ⟨k, hk, mine, moved⟩
      rw [ht]
      exact awaitCloses_waits sec alone some_

end LockOpen


/-! ## LOCK_ALL -/

theorem HeldRefused.refl_of {s : State} (ok : HoldListOk s) : HeldRefused (fun _ => false) s s := by
  have none_ : ∀ e, cutHeld (fun _ => false) e = false := by
    intro e
    cases e <;> rfl
  exact ⟨fun g => by rw [none_]; simp, fun g => by rw [none_]; simp, ok⟩

theorem HeldRefused.trans {p q : Extent → Bool} {s m t : State} (h : HeldRefused p s m) (k : HeldRefused q m t) :
    HeldRefused (fun e => p e || q e) s t := by
  have either : ∀ e, cutHeld (fun x => p x || q x) e = (cutHeld p e || cutHeld q e) := by
    intro e
    cases e <;> rfl
  have freed : cutHeld q .free = false := rfl
  refine ⟨fun g => ?_, fun g => ?_, k.ok⟩
  · rw [k.table g, h.table g, either]
    generalize s.adm.table[g] = v
    cases hp : cutHeld p v <;> cases hq : cutHeld q v <;> simp [freed, hq]
  · rw [k.hold g, h.hold g, h.table g, either]
    generalize s.adm.table[g] = v
    cases hp : cutHeld p v <;> simp [freed]

theorem rekeyView_of_unseen {s : State} (h : s.rekey.seen = none) :
    rekeyView s = s.copies.rekey.map fun k => (k.range, k.frontier) := by
  unfold rekeyView
  rw [h]

/-- No close moves the frontier that the walk sees (R34). -/
theorem orderlyClose_view {r : Fin 16} {w : Option Waiter} {s : State} (h : s.rekey.seen = none) :
    (orderlyClose r w s).rekey.seen = none ∧ rekeyView (orderlyClose r w s) = rekeyView s := by
  have seen : (orderlyClose r w s).rekey.seen = none := by
    cases hr : s.ranges[r].run with
    | opened hd =>
      have left := frame_leftOpen r w hd s
      have held : heldBy (leftOpen r w hd s).ranges[r].run = some hd := by
        rw [ranges_set_get (leftOpen_run r w hd s), if_pos rfl]
        rfl
      rw [orderlyClose_eq hr]
      split
      · exact (closeFinish_paused held).unseen (left.seen.trans h)
      · exact left.seen.trans h
    | _ =>
      have same : (orderlyClose r w s).rekey = s.rekey := by
        unfold orderlyClose
        simp only [hr] <;> rfl
      rw [same, h]
  refine ⟨seen, ?_⟩
  rw [rekeyView_of_unseen seen, rekeyView_of_unseen h]
  cases hk : s.copies.rekey with
  | some k =>
    obtain ⟨other, mine⟩ := orderlyClose_rekey (r := r) (w := w) hk
    by_cases e : k.range ≠ r ∨ isOpen s.ranges[r].run = false
    · rw [(other e).1, hk]
    · obtain ⟨e1, e2⟩ := not_or.mp e
      rw [(mine (not_not.mp e1) (by simpa using e2)).2]
      split <;> rfl
  | none =>
    have same : (orderlyClose r w s).copies = s.copies := by
      have off : rekeyOn r s.copies = false := by
        unfold rekeyOn
        rw [hk]
      cases hr : s.ranges[r].run with
      | opened hd =>
        have left := frame_leftOpen r w hd s
        have held : heldBy (leftOpen r w hd s).ranges[r].run = some hd := by
          rw [ranges_set_get (leftOpen_run r w hd s), if_pos rfl]
          rfl
        rw [orderlyClose_eq hr]
        split
        · rw [(closeFinish_paused held).off (by rw [left.copies]; exact off), left.copies]
        · exact left.copies
      | _ =>
        unfold orderlyClose
        simp only [hr] <;> rfl
    rw [same, hk]

/-- One step of LOCK_ALL. -/
def lockOne (s : State) (r : Fin 16) : State :=
  if rangeDefined s.copies r then orderlyClose r (some .security) s else s

/-- R55: whether LOCK_ALL, having met the ranges of `l`, refuses the descriptors held on an extent. -/
def cutBy (l : List (Fin 16)) (s : State) (e : Extent) : Bool :=
  l.any fun r => rangeDefined s.copies r && isOpen s.ranges[r].run && touches s r e

/-- What LOCK_ALL has made of `s` when it has met the ranges of `l`. -/
structure LockedOver (l : List (Fin 16)) (s m : State) : Prop where
  frame : Frame orderlyFields s m
  ranges : ∀ q : Fin 16, m.ranges[q].run = if q ∈ l ∧ rangeDefined s.copies q = true
    then lockedRun (some .security) (drained q s) s.ranges[q].run else s.ranges[q].run
  drains : ∀ q, drained q m = drained q s
  before : ∀ k, s.copies.rekey = some k →
    ¬(k.range ∈ l ∧ rangeDefined s.copies k.range = true ∧ isOpen s.ranges[k.range].run = true) →
    m.rekey = s.rekey ∧ m.copies.rekey = some k
  after : ∀ k, s.copies.rekey = some k →
    (k.range ∈ l ∧ rangeDefined s.copies k.range = true ∧ isOpen s.ranges[k.range].run = true) →
    m.rekey = windowWithdrawn s.rekey
      ∧ m.copies.rekey = some (if drained k.range s then { k with state := .paused } else k)
  refused : HoldListOk s → s.rekey.seen = none →
    HeldRefused (cutBy l s) s m ∧ m.rekey.seen = none ∧ rekeyView m = rekeyView s

theorem rangeDefined_congr {a b : Records} (h : b.ranges = a.ranges) (r : Fin 16) :
    rangeDefined b r = rangeDefined a r := by
  unfold rangeDefined
  rw [h]

theorem lockOne_over {l : List (Fin 16)} {s m : State} (h : LockedOver l s m) {r : Fin 16} (fresh : r ∉ l) :
    LockedOver (l ++ [r]) s (lockOne m r) := by
  have copies := h.frame.cRanges
  have here : m.ranges[r].run = s.ranges[r].run := by rw [h.ranges r, if_neg (fun x => fresh x.1)]
  unfold lockOne
  rw [rangeDefined_congr copies]
  by_cases defd : rangeDefined s.copies r = true
  · rw [if_pos defd]
    have ranges := ranges_set_get (orderlyClose_ranges r (some .security) m)
    have record : ∀ k, m.copies.rekey = some k → _ := fun k hk => orderlyClose_rekey (r := r) (w := some .security) hk
    refine ⟨h.frame.trans (frame_orderlyClose r _ m), fun q => ?_, fun q => ?_, fun k hk out => ?_, fun k hk into => ?_,
      fun ok seen => ?_⟩
    · rw [ranges]
      by_cases e : q = r
      · subst e
        rw [if_pos rfl, here, h.drains, if_pos ⟨by simp, defd⟩]
      · rw [if_neg e, h.ranges q]
        simp [e]
    · rw [orderlyClose_drained, h.drains]
    · obtain ⟨same, still⟩ := h.before k hk fun x => out ⟨List.mem_append_left _ x.1, x.2⟩
      have elsewhere : k.range ≠ r ∨ isOpen m.ranges[r].run = false := by
        by_contra both
        obtain ⟨mine, opened⟩ := not_or.mp both
        have mine : k.range = r := not_not.mp mine
        rw [here] at opened
        subst mine
        exact out ⟨by simp, defd, by simpa using opened⟩
      obtain ⟨copies', rekey⟩ := (record k still).1 elsewhere
      exact ⟨by rw [rekey, same], by rw [copies', still]⟩
    · by_cases met : k.range ∈ l
      · obtain ⟨window, written⟩ := h.after k hk ⟨met, into.2⟩
        have elsewhere : ∀ v : RekeyRec, v.range = k.range → v.range ≠ r := fun v hv x => fresh (x ▸ hv ▸ met)
        obtain ⟨copies', rekey⟩ := (record _ written).1 (.inl (elsewhere _ (by split <;> rfl)))
        exact ⟨by rw [rekey, window], by rw [copies', written]⟩
      · have mine : k.range = r := by simpa [met] using into.1
        obtain ⟨same, still⟩ := h.before k hk fun x => met x.1
        subst mine
        obtain ⟨window, written⟩ := (record k still).2 rfl (by rw [here]; exact into.2.2)
        rw [h.drains] at written
        exact ⟨by rw [window, same], written⟩
    · obtain ⟨refused, unseen, view⟩ := h.refused ok seen
      obtain ⟨unseen', view'⟩ := orderlyClose_view (r := r) (w := some .security) unseen
      refine ⟨?_, unseen', view'.trans view⟩
      have walk : touches m = touches s := touches_walk copies h.frame.capacity view
      have both := refused.trans (orderlyClose_refused (r := r) refused.ok (some .security))
      rw [here, walk] at both
      have names : cutBy (l ++ [r]) s = fun e => cutBy l s e || (isOpen s.ranges[r].run && touches s r e) := by
        funext e
        simp [cutBy, defd]
      rw [names]
      exact both
  · rw [if_neg defd]
    have same : ∀ q, q ∈ l ++ [r] ∧ rangeDefined s.copies q = true ↔ q ∈ l ∧ rangeDefined s.copies q = true := by
      intro q
      constructor
      · rintro ⟨hq, d⟩
        refine ⟨(List.mem_append.mp hq).resolve_right fun x => defd ?_, d⟩
        rwa [← List.mem_singleton.mp x]
      · exact fun ⟨hq, d⟩ => ⟨List.mem_append_left _ hq, d⟩
    have names : cutBy (l ++ [r]) s = cutBy l s := by
      funext e
      simp [cutBy, defd]
    refine ⟨h.frame, fun q => ?_, h.drains, fun k hk out => h.before k hk ?_, fun k hk into => h.after k hk ?_, ?_⟩
    · rw [h.ranges q]
      simp only [same]
    · rwa [← and_assoc, same, and_assoc] at out
    · rwa [← and_assoc, same, and_assoc] at into
    · rw [names]
      exact h.refused

theorem lockAll_over (l : List (Fin 16)) (hl : l.Nodup) (s : State) : LockedOver l s (l.foldl lockOne s) := by
  have pass : ∀ (l done : List (Fin 16)) (m : State), (done ++ l).Nodup → LockedOver done s m →
      LockedOver (done ++ l) s (l.foldl lockOne m) := by
    intro l
    induction l with
    | nil => exact fun done m _ h => by simpa using h
    | cons r l ih =>
      intro done m hd h
      have fresh : r ∉ done := fun x => (List.nodup_append.mp hd).2.2 r x r List.mem_cons_self rfl
      have := ih (done ++ [r]) (lockOne m r) (by simpa using hd) (lockOne_over h fresh)
      simpa using this
  refine pass l [] s hl ⟨.refl _ s, fun q => by simp, fun _ => rfl, fun k hk _ => ⟨rfl, hk⟩, fun k hk x => by simp at x, ?_⟩
  exact fun ok seen => ⟨HeldRefused.refl_of ok, seen, rfl⟩

theorem exec_lockAll {id : BitVec 16} {s : State} (h : ChannelTakes s) (ha : alive s.copies.watch.state = true) :
    exec (.lockAll id) s = .next (clearTouched (awaitCloses
      ((List.finRange 16).foldl lockOne (setPending [] (taken (.lockAll id) s))))) :=
  event_request h rfl rfl rfl ha

theorem isOpen_lockedRun (w : Option Waiter) (d : Bool) (run : RangeRun) : isOpen (lockedRun w d run) = false := by
  cases run with
  | opened h => cases d <;> rfl
  | _ => rfl

/-- R21: with every range LOCKED or ERASED, LOCK_ALL finds nothing to close. -/
theorem lockAll_shut {m : State} (h : ∀ r : Fin 16, m.ranges[r].run = .locked ∨ m.ranges[r].run = .erased)
    (l : List (Fin 16)) : l.foldl lockOne m = m := by
  refine keeps_foldl (Inv := fun n => n = m) (fun n r hn => ?_) l m rfl
  subst hn
  unfold lockOne orderlyClose
  split
  · rcases h r with e | e <;> simp only [e]
  · rfl

/-- Settles O29: the orderly close of the one range, or of each in turn, and then the answer where no close is awaited. -/
theorem lockAndLockAllClose : Obligations.LockAndLockAllClose := by
  constructor
  · intro id b s hct ha r s' answer
    have hb : s.store.touched = [] := hct.1.2.2.2
    have up : s.drive.up = true := hct.1.2.1
    have idle : s.cmd.sec = none := hct.2
    have run := exec_lock (id := id) (b := b) hct ha
    refine ⟨fun bad => ?_, fun lo defd free quiet => ⟨fun shut => ?_, fun h d ws hc => ?_, fun h hop one off seen none_ => ?_,
      fun h hop ok => ?_⟩⟩
    · have refused : lockRequest b (taken (.lock id b) s) = _ := lockRequest_refuses bad
      rw [run, refused, secReply_taken hct]
      rfl
    · exact lock_shut hct ha lo defd free quiet shut
    · exact lock_joins hct ha lo defd quiet hc
    · exact lock_plain hct ha lo defd free quiet hop one off seen none_
    · refine ⟨_, exec_lock_closes hct ha lo defd, lock_entries up hop ok rfl, ?_, ?_, ?_, ?_⟩
      · exact ((frame_awaitCloses _).after (N := orderlyFields) (frame_orderlyClose _ _ _)).cred
      · exact ((frame_awaitCloses _).after (N := orderlyFields) (frame_orderlyClose _ _ _)).rekeyOnly
      · exact fun busy => lock_busy hop busy rfl
      · exact fun done => lock_drained hct free hop done rfl
  · intro id s hct ha
    have passed := lockAll_over (List.finRange 16) (List.nodup_finRange 16) (setPending [] (taken (.lockAll id) s))
    have shut := fun h => lockAll_shut (m := setPending [] (taken (.lockAll id) s)) h (List.finRange 16)
    refine ⟨_, exec_lockAll hct ha, ?_⟩
    generalize (List.finRange 16).foldl lockOne (setPending [] (taken (.lockAll id) s)) = m at passed shut
    obtain ⟨frame, ranges, -, before, after, refused⟩ := passed
    have f := frame_awaitCloses m
    have g := f.after (N := orderlyFields) frame
    have run : ∀ r : Fin 16, rangeDefined s.copies r = true → (awaitCloses m).ranges[r].run
        = lockedRun (some .security) (drained r s) s.ranges[r].run := fun r defd => by
      rw [f.ranges, ranges r, if_pos ⟨List.mem_finRange r, defd⟩]
      rfl
    refine ⟨fun r defd => ?_, g.cred, g.rekeyOnly, g.watch, g.erase, fun r defd => ?_, fun k hk defd opened => ?_,
      fun ok seen x => ?_, fun closed quiet => ?_⟩
    · exact (congrArg isOpen (run r defd)).trans (isOpen_lockedRun _ _ _)
    · refine (run r defd).trans ?_
      cases s.ranges[r].run <;> rfl
    · obtain ⟨window, written⟩ := after k hk ⟨List.mem_finRange _, defd, opened⟩
      exact ⟨f.rekey.trans window, (congrArg (·.rekey) f.copies).trans written⟩
    · obtain ⟨cuts, -, -⟩ := refused ok seen
      have walk : touches (setPending [] (taken (.lockAll id) s)) = touches s := touches_walk rfl rfl rfl
      have cutOf : ∀ e, cutBy (List.finRange 16) (setPending [] (taken (.lockAll id) s)) e = true ↔ ∃ r : Fin 16,
          rangeDefined s.copies r = true ∧ isOpen s.ranges[r].run = true ∧ touches s r e = true := fun e => by
        unfold cutBy
        rw [walk]
        simp only [List.any_eq_true, List.mem_finRange, true_and, Bool.and_eq_true, and_assoc]
        rfl
      have cuts : HeldRefused (cutBy (List.finRange 16) (setPending [] (taken (.lockAll id) s))) s
          (clearTouched (awaitCloses m)) := by
        have adm : (clearTouched (awaitCloses m)).adm = m.adm := f.adm
        exact ⟨by rw [adm]; exact cuts.table, by rw [adm]; exact cuts.hold, by rw [HoldListOk, adm]; exact cuts.ok⟩
      obtain ⟨cut, other⟩ := cuts.entry ok x
      generalize s.adm.table[x] = v at cut other
      cases v with
      | held c e =>
        obtain ⟨hit, miss⟩ := cut c e rfl
        exact ⟨fun y => hit ((cutOf e).mpr y), fun y => miss (Bool.eq_false_of_not_eq_true (mt (cutOf e).mp y))⟩
      | _ => exact other nofun
    · have free : ∀ q : Fin 16, .security ∉ waitersOf s.ranges[q].run := fun q => by
        rcases closed q with e | e <;> rw [e] <;> exact List.not_mem_nil
      have same := shut closed
      subst same
      have reply := awaitCloses_answers (m := setPending [] (taken (.lockAll id) s))
        (j := ⟨.lockAll id, false, .taken, [], [], false⟩) rfl (not_awaited free) rfl rfl rfl hct.1.2.1
      have idle : ({ s.cmd with sec := none } : CommandProcessor) = s.cmd := by rw [← hct.2]
      refine (congrArg clearTouched (reply.trans (settlePlat_of_none quiet.2))).trans ((clearTouched_of_between ?_).trans ?_)
      · exact hct.1.2.2.2
      · change sent _ { setPending [] s with cmd := { s.cmd with sec := none } } = _
        rw [idle]
        rfl

end Sys2Proof.Machine
end


-- ==== Sys2Proof/Proofs/LinkResets.lean ====
section
/-! PROOF. The drive link's reset: every transfer, order and drained close ends, and what waits inbound does not matter to
it (R28, R57, R124, R167, R173, R176): O22. -/

-- As in the tests: each theorem that waits for the kernel in parallel would keep a thread.
set_option Elab.async false

namespace Sys2Proof.Machine

/-! ## The frames that wait inbound -/

/-- Other frames wait. -/
def withInbound (l : List Instr) (s : State) : State := { s with drive := { s.drive with inbound := l } }

theorem withInbound_up (l : List Instr) (s : State) : (withInbound l s).drive.up = s.drive.up := rfl
theorem withInbound_phase (l : List Instr) (s : State) : (withInbound l s).phase = s.phase := rfl

/-- An operation that does not look at the frames that wait. -/
def Blind (f : State → State) : Prop := ∀ l s, f (withInbound l s) = withInbound l (f s)

theorem blind_foldl {α : Type} {f : State → α → State} (h : ∀ a, Blind fun s => f s a) (as : List α) :
    Blind fun s => as.foldl f s := by
  intro l
  induction as with
  | nil => exact fun _ => rfl
  | cons a as ih =>
    intro s
    have first : f (withInbound l s) a = withInbound l (f s a) := h a l s
    change as.foldl f (f (withInbound l s) a) = withInbound l (as.foldl f (f s a))
    rw [first]
    exact ih (f s a)

theorem blind_pushFrame (f : OutFrame) : Blind (pushFrame f) := by
  intro l s
  unfold pushFrame withInbound
  dsimp only
  split <;> rfl

theorem blind_secReply (c : Code) (b : AnswerBody) : Blind (secReply c b) := by
  intro l s
  unfold secReply
  change (match s.cmd.sec with
    | none => withInbound l s
    | some j => _) = _
  cases s.cmd.sec with
  | none => rfl
  | some j =>
    dsimp only
    have up : (withInbound l s).drive.up = s.drive.up := rfl
    rw [up]
    split
    · rfl
    · exact blind_pushFrame _ l { s with cmd := { s.cmd with sec := none } }

theorem blind_secAnswerDue : Blind secAnswerDue := by
  intro l s
  unfold secAnswerDue
  have sec : (withInbound l s).cmd.sec = s.cmd.sec := rfl
  rw [sec]
  split
  · split
    · split
      · exact blind_secReply _ _ l s
      · rfl
    · rfl
  · rfl

theorem blind_settleWaiters : Blind settleWaiters := by
  intro l s
  have first : settleSec (withInbound l s) = withInbound l (settleSec s) := by
    unfold settleSec
    have sec : (withInbound l s).cmd.sec = s.cmd.sec := rfl
    have still : awaited .security (withInbound l s) = awaited .security s := rfl
    rw [sec, still]
    split
    · split
      · exact blind_secAnswerDue l (modSec (fun j => { j with phase := .answering .ok .empty }) s)
      · rfl
    · rfl
  rw [settleWaiters_eq, settleWaiters_eq, first]
  generalize settleSec s = m
  unfold settlePlat
  have plat : (withInbound l m).cmd.plat = m.cmd.plat := rfl
  have still : awaited .sleep (withInbound l m) = awaited .sleep m := rfl
  rw [plat, still]
  split
  · split
    · unfold platReply
      rw [plat]
      split <;> rfl
    · rfl
  · rfl

theorem blind_pauseRekey (r : Fin 16) : Blind (pauseRekey r) := by
  intro l s
  unfold pauseRekey
  have copies : (withInbound l s).copies = s.copies := rfl
  have rekey : (withInbound l s).rekey = s.rekey := rfl
  rw [copies, rekey]
  split
  · split
    · rw [withdrawWindow_eq, withdrawWindow_eq]
      dsimp only
      split <;> rfl
    · rfl
  · split
    · split <;> rfl
    · rfl

theorem blind_withTouched {f : State → State} (h : Blind f) (l : List Instr) (m : State) :
    withTouched f (withInbound l m) = ((withTouched f m).1, withInbound l (withTouched f m).2) := by
  have first := h l (clearTouched m)
  change ((f (withInbound l (clearTouched m))).store.touched, ({ f (withInbound l (clearTouched m)) with
    store := { (f (withInbound l (clearTouched m))).store with
      touched := m.store.touched ++ (f (withInbound l (clearTouched m))).store.touched } } : State)) = _
  rw [first]
  rfl

theorem blind_closeFinish (r : Fin 16) : Blind (closeFinish r) := by
  intro l s
  cases hh : heldBy s.ranges[r].run with
  | none =>
    have none_ : heldBy (withInbound l s).ranges[r].run = none := hh
    rw [closeFinish_none hh, closeFinish_none none_]
  | some h =>
    have held : heldBy (withInbound l s).ranges[r].run = some h := hh
    have dropped : setRun r .locked (retireHeld h (withInbound l s)) = withInbound l (setRun r .locked (retireHeld h s)) := by
      unfold retireHeld
      cases h.next <;> rfl
    have closes : closed r h (withInbound l s) = withInbound l (closed r h s) := by
      unfold closed
      rw [dropped, blind_withTouched (blind_pauseRekey r)]
      dsimp only
      have run : (withInbound l s).ranges[r].run = s.ranges[r].run := rfl
      rw [run]
      split <;> rfl
    rw [closeFinish_eq hh, closeFinish_eq held, closes]
    exact blind_settleWaiters l _

theorem blind_closeIfDrained (r : Fin 16) : Blind (closeIfDrained r) := by
  intro l s
  rw [closeIfDrained_eq, closeIfDrained_eq, closesNow_congr (s := s) (t := withInbound l s) rfl rfl]
  split
  · exact blind_closeFinish r l s
  · rfl

theorem blind_leaveAdmitted (x : Xfer) : Blind (leaveAdmitted x) := by
  intro l s
  have departs : departed x (withInbound l s) = withInbound l (departed x s) := by
    unfold departed
    have pins := blind_foldl (f := fun s k => unpinSlot k s) (fun _ _ _ => rfl) (slotsNamed x.segs) l s
    dsimp only at pins
    rw [pins]
    exact blind_foldl (f := fun s r => closeIfDrained r s) blind_closeIfDrained (rangesNamed x.segs) l _
  have orders : ∀ m, sendMigrateOrder (withInbound l m) = withInbound l (sendMigrateOrder m) := by
    intro m
    unfold sendMigrateOrder takeOrderNumber pushFrame withInbound
    dsimp only
    split
    · rfl
    · split
      · rfl
      · split <;> rfl
  rw [leaveAdmitted_eq, leaveAdmitted_eq, departs]
  split
  · exact orders _
  · rfl

/-- R173: the link is DOWN, its buffers are empty and the request in progress has lost its answer. -/
def linkDown (s : State) : State :=
  modSec (fun j => { j with lost := true })
    { s with drive := { s.drive with up := false, units := [], outbox := [] } }

theorem resetOrders_eq (s : State) :
    resetOrders s = forgetScrubs (forgetRekey (s.drive.outbox.foldl dropFrame (linkDown s))) := rfl

theorem linkDown_inbound (l : List Instr) (s : State) : linkDown (withInbound l s) = withInbound l (linkDown s) := rfl

/-- R57: the hold list is empty. -/
def emptyHold (s : State) : State := { s with adm := { s.adm with hold := [] } }

theorem resetEntries_eq (s : State) : resetEntries s = emptyHold ((List.finRange 32).foldl resetTag s) := rfl

theorem frame_emptyHold (s : State) : Frame [.hold] s (emptyHold s) := ⟨rfl, rfl, le_rfl⟩

theorem emptyHold_inbound (l : List Instr) (s : State) : emptyHold (withInbound l s) = withInbound l (emptyHold s) := rfl

theorem blind_dropFrame (f : OutFrame) : Blind fun s => dropFrame s f := by
  intro l s
  dsimp only
  unfold dropFrame
  split <;> rfl

theorem blind_resetTag (t : Fin 32) : Blind fun s => resetTag s t := by
  intro l s
  dsimp only
  unfold resetTag
  have table : (withInbound l s).adm.table = s.adm.table := rfl
  rw [table]
  split
  · exact blind_leaveAdmitted _ l (setEntry t .free s)
  all_goals rfl

theorem blind_drainSlot (k : Fin 18) : Blind (drainSlot k) := by
  intro l s
  unfold drainSlot
  have slots : (withInbound l s).slots = s.slots := rfl
  rw [slots]
  split <;> rfl

/-- R57, R173: the frames that wait do not matter to a reset of the link. -/
theorem blind_driveLinkReset : Blind driveLinkReset := by
  intro l s
  have orders : resetOrders (withInbound l s) = withInbound l (resetOrders s) := by
    have drops : s.drive.outbox.foldl dropFrame (withInbound l (linkDown s))
      = withInbound l (s.drive.outbox.foldl dropFrame (linkDown s)) :=
      blind_foldl (f := dropFrame) blind_dropFrame s.drive.outbox l (linkDown s)
    have same : (withInbound l s).drive.outbox = s.drive.outbox := rfl
    rw [resetOrders_eq, resetOrders_eq, linkDown_inbound, same, drops]
    generalize s.drive.outbox.foldl dropFrame (linkDown s) = m
    rfl
  have entries : ∀ m, resetEntries (withInbound l m) = withInbound l (resetEntries m) := by
    intro m
    have tags : (List.finRange 32).foldl resetTag (withInbound l m) = withInbound l ((List.finRange 32).foldl resetTag m) :=
      blind_foldl (f := resetTag) blind_resetTag (List.finRange 32) l m
    rw [resetEntries_eq, resetEntries_eq, tags, emptyHold_inbound]
  have drains := blind_foldl (f := fun s k => drainSlot k s) blind_drainSlot (List.finRange 18) l
    (resetEntries (resetOrders s))
  dsimp only at drains
  rw [driveLinkReset_eq, driveLinkReset_eq, orders, entries]
  unfold resetCloses
  rw [drains]
  exact blind_foldl (f := fun s r => closeIfDrained r s) blind_closeIfDrained (List.finRange 16) l _

/-! ## The frames that waited, on a link that is DOWN -/

theorem takeFrame_down {c : Instr} {s : State} (h : s.drive.up = false) (hc : c ≠ .linkHello) : takeFrame c s = s := by
  unfold takeFrame
  split
  · exact absurd rfl hc
  · simp [h]

theorem stalls_down {c : Instr} {s : State} (h : s.drive.up = false) : stalls c s = false := by
  unfold stalls
  split
  · simp [h]
  · rfl

theorem clearTouched_twice (s : State) : clearTouched (clearTouched s) = clearTouched s := rfl

/-- R172: on a DOWN link frames other than LINK_HELLO are discarded. -/
theorem drainFrom_down (l : List Instr) {s : State} (h : s.drive.up = false) (hl : .linkHello ∉ l) :
    clearTouched (drainFrom l s) = clearTouched s := by
  induction l generalizing s with
  | nil => rfl
  | cons c l ih =>
    obtain ⟨hc, hl⟩ := not_or.mp (mt List.mem_cons.mpr hl)
    rw [(drainFrom_cons c l s).2 (stalls_down h), takeFrame_down (s := clearTouched s) h (Ne.symm hc)]
    exact ih (s := clearTouched s) h hl

/-- R171, R172: a LINK_HELLO behind them is taken. -/
theorem drainFrom_down_hello (l : List Instr) {s : State} (h : s.drive.up = false) (hl : .linkHello ∉ l) :
    drainFrom (l ++ [.linkHello]) s = linkHello (clearTouched s) := by
  induction l generalizing s with
  | nil => rfl
  | cons c l ih =>
    obtain ⟨hc, hl⟩ := not_or.mp (mt List.mem_cons.mpr hl)
    rw [List.cons_append, (drainFrom_cons c _ s).2 (stalls_down h), takeFrame_down (s := clearTouched s) h (Ne.symm hc)]
    exact ih (s := clearTouched s) h hl

theorem drainInbound_eq (m : State) : drainInbound m = drainFrom m.drive.inbound (withInbound [] m) := rfl

theorem driveLinkReset_down (s : State) : (driveLinkReset s).drive.up = false := by
  rw [driveLinkReset_eq, (frame_resetCloses _).up, (frame_resetEntries _).up]
  unfold resetOrders
  have drops := Frame.foldl frame_dropFrame s.drive.outbox (modSec (fun j => { j with lost := true })
    { s with drive := { s.drive with up := false, units := [], outbox := [] } })
  exact drops.up

/-! ## What a reset leaves -/

/-- The request that was in progress is in progress still, its answer lost (R173). -/
def lostJob (j : SecJob) : SecJob := { j with lost := true }

/-- What stands while a reset takes the entries and the closes (R57, R28), from the state `s` before it. -/
structure Resetting (s m : State) : Prop where
  down : m.drive.up = false ∧ m.drive.outbox = []
  forgot : m.rekey.order = none ∧ m.rekey.intended = none ∧ m.rekey.fence = none
  ranges : ∀ r : Fin 16, m.ranges[r] = s.ranges[r]
    ∨ (∃ h d ws, s.ranges[r].run = .closing h d ws) ∧ m.ranges[r] = { s.ranges[r] with run := .locked }
  lost : ∀ j, m.cmd.sec = some j → j.lost = true
  kept : ∀ j, s.cmd.sec = some j → j.phase ≠ .closing → m.cmd.sec = some (lostJob j)
  told : ∀ j, s.cmd.sec = some j → j.phase = .closing → j.writes = [] → j.awaitsErase = false →
    awaited .security s = true → (m.cmd.sec = some (lostJob j) ∧ awaited .security m = true)
      ∨ (m.cmd.sec = none ∧ ∃ e ∈ m.cmd.secQueue, e.notice = .commandLost (answerKind j.req) .ok)

theorem resetting_keeps (s : State) : Keeps (Resetting s) (allFields.filter fun f => f ∉ ([.up, .outbox, .order, .intended,
    .fence, .ranges, .sec, .secQueue] : List Field)) := by
  intro m n f h
  have ranges := f.ranges
  have awaits : awaited .security n = awaited .security m := by
    unfold awaited
    rw [ranges]
  obtain ⟨down, forgot, run, lost, kept, told⟩ := h
  exact ⟨by rw [f.up, f.outbox]; exact down, by rw [f.order, f.intended, f.fence]; exact forgot,
    by rw [ranges]; exact run, by rw [f.sec]; exact lost, by rw [f.sec]; exact kept,
    by rw [f.sec, f.secQueue, awaits]; exact told⟩

theorem awaitWrites_of_lost {ids : List Nat} {m : State} (h : ∀ j, m.cmd.sec = some j → j.lost = true) :
    awaitWrites ids m = m := by
  unfold awaitWrites modSec
  have same : (m.cmd.sec.map fun j => if j.lost = true then j else { j with writes := j.writes ++ ids }) = m.cmd.sec := by
    cases hs : m.cmd.sec with
    | none => rfl
    | some j => simp [h j hs]
  rw [same]

/-- R173, R176: a reply that is lost leaves the channel IDLE and a COMMAND_LOST in its queue. -/
theorem secReply_lost {c : Code} {b : AnswerBody} {m : State} {j : SecJob} (hj : m.cmd.sec = some j) (hl : j.lost = true) :
    secReply c b m = noticeSec (.commandLost (answerKind j.req) c) { m with cmd := { m.cmd with sec := none } } := by
  unfold secReply
  simp only [hj, hl, true_or, if_true]

theorem settleSec_lost {m : State} (h : ∀ j, m.cmd.sec = some j → j.lost = true) :
    Frame [.sec, .secQueue, .marks] m (settleSec m) ∧ ∀ j, (settleSec m).cmd.sec = some j → j.lost = true := by
  cases hj : m.cmd.sec with
  | none =>
    have same : settleSec m = m := by
      unfold settleSec
      rw [hj]
    rw [same]
    exact ⟨.refl _ m, h⟩
  | some j =>
    have gone := h j hj
    by_cases closes : j.phase = .closing ∧ awaited .security m = false
    · rw [settleSec_answers hj closes.1 closes.2]
      unfold secAnswerDue
      dsimp only
      split
      · rw [secReply_lost (j := { j with phase := .answering .ok .empty }) rfl gone]
        exact ⟨(frame_noticeSec _ _).after (N := [.sec, .secQueue, .marks]) (L := [.sec]) ⟨rfl, rfl, le_rfl⟩,
          fun k hk => nomatch hk⟩
      · exact ⟨Frame.within (L := [.sec]) ⟨rfl, rfl, le_rfl⟩, fun k hk => by
          cases hk
          exact gone⟩
    · have same : settleSec m = m := by
        unfold settleSec
        rw [hj]
        exact if_neg closes
      rw [same]
      exact ⟨.refl _ m, h⟩

/-- A completed close, in the course of a reset. -/
theorem resetting_closeIfDrained {s : State} (r : Fin 16) (m : State) (h : Resetting s m) : Resetting s (closeIfDrained r m) := by
  rw [closeIfDrained_eq]
  split
  next now =>
    obtain ⟨g, d, ws, hrun, hh⟩ := closesNow_held now
    have ranges := ranges_set_get (closeFinish_ranges hh)
    have window := (closeFinish_paused hh).window h.forgot.2.1
    have dropped := frame_locked r g m
    have closes := frame_closed r g m
    have sec : (closed r g m).cmd.sec = m.cmd.sec := by
      have paused := (frame_withTouched (frame_pauseRekey r) (setRun r .locked (retireHeld g m))).sec.trans dropped.sec
      unfold closed
      dsimp only
      split
      · rw [awaitWrites_of_lost (fun j hj => h.lost j (paused ▸ hj))]
        exact paused
      · exact paused
    have lost : ∀ j, (closed r g m).cmd.sec = some j → j.lost = true := fun j hj => h.lost j (sec ▸ hj)
    obtain ⟨settles, lost'⟩ := settleSec_lost lost
    have plat := frame_settlePlat (settleSec (closed r g m))
    have whole : closeFinish r m = settlePlat (settleSec (closed r g m)) := by rw [closeFinish_eq hh, settleWaiters_eq]
    have sec' : (closeFinish r m).cmd.sec = (settleSec (closed r g m)).cmd.sec := by rw [whole, plat.sec]
    have queue' : (closeFinish r m).cmd.secQueue = (settleSec (closed r g m)).cmd.secQueue := by rw [whole, plat.secQueue]
    have awaits : ∀ w, awaited w (closeFinish r m) = awaited w (closed r g m) := fun w => by
      unfold awaited
      rw [whole, plat.ranges, settles.ranges]
    refine ⟨?_, ?_, fun q => ?_, fun j hj => lost' j (sec' ▸ hj), fun j hj hp => ?_, fun j hj hp hw he ha => ?_⟩
    · rw [whole, plat.up, plat.outbox, settles.up, settles.outbox, closes.up, closes.outbox, dropped.up, dropped.outbox]
      exact h.down
    · refine ⟨?_, window.1, window.2.trans h.forgot.2.2⟩
      rw [(frame_closeFinish r m).order]
      exact h.forgot.1
    · rw [ranges]
      split
      next e =>
        subst e
        rcases h.ranges q with same | ⟨-, gone⟩
        · rw [same] at hrun ⊢
          exact .inr ⟨⟨g, d, ws, hrun⟩, rfl⟩
        · rw [gone] at hrun
          cases hrun
      next => exact h.ranges q
    · rw [sec', settleSec_of_other (sec.trans (h.kept j hj hp)) hp, sec, h.kept j hj hp]
    · rcases h.told j hj hp hw he ha with ⟨here, -⟩ | ⟨idle, told⟩
      · cases still : awaited .security (closed r g m) with
        | true =>
          refine .inl ⟨?_, by rw [awaits, still]⟩
          have same : settleSec (closed r g m) = closed r g m := by
            unfold settleSec
            rw [sec, here]
            exact if_neg fun x => by rw [still] at x; exact absurd x.2 (by simp)
          rw [sec', same, sec, here]
        | false =>
          refine .inr ?_
          have answer := settleSec_answers (sec.trans here) hp still
          unfold secAnswerDue at answer
          dsimp only at answer
          rw [if_pos ⟨hw, he⟩, secReply_lost (j := { lostJob j with phase := .answering .ok .empty }) rfl rfl] at answer
          rw [sec', queue', answer]
          exact ⟨rfl, _, mem_joinQueue _ _ _, rfl⟩
      · have same : settleSec (closed r g m) = closed r g m := by
          unfold settleSec
          rw [sec, idle]
        rw [sec', queue', same, sec, closes.secQueue, dropped.secQueue]
        exact .inr ⟨idle, told⟩
  next => exact h

theorem resetting_resetTag {s : State} (t : Fin 32) (m : State) (h : Resetting s m) : Resetting s (resetTag m t) := by
  have freed : Resetting s (setEntry t .free m) := (resetting_keeps s).of h (frame_setEntry t .free m)
  unfold resetTag
  split
  · rename_i x _
    have pins := (resetting_keeps s).of freed
      (Frame.foldl (f := fun s k => unpinSlot k s) (fun s k => frame_setSlot k _ s) (slotsNamed x.segs) _)
    have departs : Resetting s (departed x (setEntry t .free m)) :=
      keeps_foldl (f := fun s r => closeIfDrained r s) (fun m r => resetting_closeIfDrained r m) (rangesNamed x.segs) _ pins
    rw [leaveAdmitted_eq, sendMigrateOrder_of_none departs.forgot.2.1, ite_self]
    exact departs
  · exact freed
  · exact freed
  · exact h

theorem resetOrders_sec (s : State) : (resetOrders s).cmd.sec = s.cmd.sec.map lostJob := by
  have drops := Frame.foldl frame_dropFrame s.drive.outbox (linkDown s)
  rw [resetOrders_eq]
  exact drops.sec

theorem resetOrders_resetting (s : State) : Resetting s (resetOrders s) := by
  have drops := Frame.foldl frame_dropFrame s.drive.outbox (linkDown s)
  have orders := frame_resetOrders s
  have sec := resetOrders_sec s
  refine ⟨⟨drops.up, drops.outbox⟩, ⟨rfl, rfl, rfl⟩, fun r => .inl (by rw [orders.ranges]), fun j hj => ?_, fun j hj _ => ?_,
    fun j hj _ _ _ ha => .inl ⟨?_, ?_⟩⟩
  · rw [sec] at hj
    obtain ⟨k, -, rfl⟩ := Option.map_eq_some_iff.mp hj
    rfl
  · rw [sec, hj]
    rfl
  · rw [sec, hj]
    rfl
  · unfold awaited
    rw [orders.ranges]
    exact ha

/-- R57: every entry is FREE and the hold list empty. -/
theorem resetEntries_adm (s : State) : (resetEntries s).adm = { table := Vector.replicate 32 .free, hold := [] } := by
  have one : ∀ (m : State) (t g : Fin 32), (resetTag m t).adm.table[g] = if g = t then .free else m.adm.table[g] := by
    intro m t g
    have set : (resetTag m t).adm.table = m.adm.table.set t .free := by
      unfold resetTag
      split
      · exact (frame_leaveAdmitted _ _).table
      · rfl
      · rfl
      · rename_i e
        rw [← e]
        simp
    exact table_set_get set g
  have pass : ∀ (l : List (Fin 32)) (m : State) (g : Fin 32), (l.foldl resetTag m).adm.table[g]
      = if g ∈ l then .free else m.adm.table[g] := by
    intro l
    induction l with
    | nil => exact fun m g => by simp
    | cons t l ih =>
      intro m g
      rw [List.foldl_cons, ih, one]
      by_cases e : g = t <;> simp [e]
  have table : ((List.finRange 32).foldl resetTag s).adm.table = Vector.replicate 32 .free := by
    refine Vector.ext fun i hi => ?_
    have := pass (List.finRange 32) s ⟨i, hi⟩
    rw [if_pos (List.mem_finRange _)] at this
    simpa using this
  rw [resetEntries_eq, ← table]
  rfl

theorem drained_of_free {m : State} (h : m.adm.table = Vector.replicate 32 .free) (r : Fin 16) : drained r m = true := by
  refine (drained_iff r m).mpr fun g x hx => ?_
  rw [h] at hx
  simp at hx

/-- R28: every CLOSING range is LOCKED after a reset, and every other as it was. -/
theorem driveLinkReset_resetting (s : State) : Resetting s (driveLinkReset s)
    ∧ (driveLinkReset s).adm = { table := Vector.replicate 32 .free, hold := [] }
    ∧ ∀ (r : Fin 16) h d ws, s.ranges[r].run = .closing h d ws →
      (driveLinkReset s).ranges[r] = { s.ranges[r] with run := .locked } := by
  have tags := keeps_foldl (f := resetTag) (fun m t => resetting_resetTag t m) (List.finRange 32) _ (resetOrders_resetting s)
  have entries : Resetting s (resetEntries (resetOrders s)) := by
    rw [resetEntries_eq]
    exact (resetting_keeps s).of tags (frame_emptyHold _)
  have adm := resetEntries_adm (resetOrders s)
  rw [driveLinkReset_eq]
  generalize resetEntries (resetOrders s) = m at entries adm
  have drains := Frame.foldl (f := fun s k => drainSlot k s) (fun s k => frame_drainSlot k s) (List.finRange 18) m
  have drained_ := (resetting_keeps s).of entries drains
  unfold resetCloses
  have adm' := drains.adm.trans adm
  generalize (List.finRange 18).foldl (fun s k => drainSlot k s) m = n at drained_ adm'
  have closes := Frame.foldl (f := fun s r => closeIfDrained r s) (fun s r => frame_closeIfDrained r s) (List.finRange 16) n
  refine ⟨keeps_foldl (f := fun s r => closeIfDrained r s) (fun m r => resetting_closeIfDrained r m) (List.finRange 16) _
    drained_, closes.adm.trans adm', fun r h d ws hc => ?_⟩
  rw [closesPass_ranges]
  rcases drained_.ranges r with same | ⟨-, gone⟩
  · have now : closesNow r n = true := (closesNow_iff r n).mpr ⟨⟨h, d, ws, by rw [same]; exact hc⟩,
      drained_of_free (by rw [adm']) r⟩
    rw [if_pos ⟨List.mem_finRange r, now⟩, same]
  · split
    · rw [gone]
    · exact gone

/-! ## The slots -/

/-- A slot without a pin that is not DRAINING. -/
def Rested (v : Slot) : Prop := slotPins v = 0 ∧ ∀ r key n, v ≠ .draining r key n

theorem rested_retired {v : Slot} (h : Rested v) : Rested (retiredSlot v) := by
  cases v with
  | live o k n =>
    have : n = 0 := h.1
    subst this
    exact ⟨rfl, nofun⟩
  | draining o k n => exact absurd rfl (h.2 o k n)
  | empty => exact h

theorem pinsOn_of_free {m : State} (h : m.adm.table = Vector.replicate 32 .free) (k : Fin 18) : pinsOn k m = 0 := by
  unfold pinsOn countEntries
  rw [h]
  simp

/-- R13: what SLOT_DRAIN_COMPLETE makes of a slot. -/
def drainedSlot : Slot → Slot
  | .draining _ _ 0 => .empty
  | v => v

theorem drainSlot_eq (k : Fin 18) (s : State) : drainSlot k s = setSlot k (drainedSlot s.slots[k]) s := by
  generalize hv : s.slots[k] = v
  have same : setSlot k s.slots[k] s = s := by simp [setSlot]
  rw [hv] at same
  unfold drainSlot
  rw [hv]
  cases v with
  | draining o m n =>
    cases n with
    | zero => rfl
    | succ n => exact same.symm
  | _ => exact same.symm

theorem slotPins_drained (v : Slot) : slotPins (drainedSlot v) = slotPins v := by
  unfold drainedSlot
  split <;> rfl

theorem rested_drained {v : Slot} (h : slotPins v = 0) : Rested (drainedSlot v) := by
  cases v with
  | draining o k n =>
    have : n = 0 := h
    subst this
    exact ⟨rfl, nofun⟩
  | live o k n => exact ⟨h, nofun⟩
  | empty => exact ⟨h, nofun⟩

theorem slotPins_closes (l : List (Fin 16)) (m : State) (k : Fin 18) :
    slotPins (l.foldl (fun s r => closeIfDrained r s) m).slots[k] = slotPins m.slots[k] :=
  keeps_foldl (Inv := fun n => slotPins n.slots[k] = slotPins m.slots[k]) (f := fun s r => closeIfDrained r s)
    (fun n r h => by
      rcases closeIfDrained_slot r k n with e | e
      · rw [e, h]
      · rw [e, slotPins_retired, h]) l m rfl

/-- R28: no slot keeps a pin, and none is DRAINING. -/
theorem driveLinkReset_rested {s : State} (ok : SlotsOk s) (k : Fin 18) : Rested (driveLinkReset s).slots[k] := by
  have final := (fits_driveLinkReset (b := false) s ⟨ok, nofun⟩).1.1 k
  have free := (driveLinkReset_resetting s).2.1
  rw [pinsOn_of_free (by rw [free]) k] at final
  rw [driveLinkReset_eq] at final ⊢
  generalize resetEntries (resetOrders s) = m at final ⊢
  unfold resetCloses at final ⊢
  have passed := (slotPass drainedSlot (List.finRange 18) (List.nodup_finRange 18) m).2 k
  rw [if_pos (List.mem_finRange k)] at passed
  have same : (fun s k => drainSlot k s) = fun (s : State) k => setSlot k (drainedSlot s.slots[k]) s := by
    funext s k
    exact drainSlot_eq k s
  rw [same] at final ⊢
  generalize (List.finRange 18).foldl (fun (s : State) k => setSlot k (drainedSlot s.slots[k]) s) m = n at final passed ⊢
  rw [slotPins_closes, passed, slotPins_drained] at final
  have start : Rested n.slots[k] := by
    rw [passed]
    exact rested_drained final
  refine keeps_foldl (Inv := fun n => Rested n.slots[k]) (f := fun s r => closeIfDrained r s) (fun n r h => ?_) _ n start
  rcases closeIfDrained_slot r k n with e | e
  · rw [e]
    exact h
  · rw [e]
    exact rested_retired h

/-! ## The notices of dropped answers -/

theorem dropFrame_queue (l : List OutFrame) (m : State) (q : List NoticeEntry) (n i : Nat) (hq : m.cmd.secQueue = q)
    (hn : m.cmd.seq = n + i) : (l.foldl dropFrame m).cmd.secQueue
      = ((lostAnswers l).zipIdx i).foldl (fun q p => joinQueue 32 ⟨p.1, false, n + p.2⟩ q) q := by
  induction l generalizing m q i with
  | nil => exact hq
  | cons f l ih =>
    rw [List.foldl_cons]
    cases f with
    | secAnswer id kind c b =>
      have lost : lostAnswers (.secAnswer id kind c b :: l) = .commandLost kind c :: lostAnswers l := rfl
      rw [lost, List.zipIdx_cons, List.foldl_cons]
      refine ih _ _ (i + 1) ?_ ?_
      · change joinQueue 32 ⟨.commandLost kind c, false, m.cmd.seq⟩ m.cmd.secQueue = _
        rw [hq, hn]
      · change m.cmd.seq + 1 = _
        omega
    | _ => exact ih _ _ i hq hn

theorem resetOrders_queue (s : State) :
    (resetOrders s).cmd.secQueue = withNotices (lostAnswers s.drive.outbox) s := by
  rw [resetOrders_eq]
  exact dropFrame_queue s.drive.outbox (linkDown s) s.cmd.secQueue s.cmd.seq 0 rfl rfl

/-- A reset of `s` without a CLOSING range has told of the dropped answers alone. -/
def ToldDropped (s m : State) : Prop :=
  m.ranges = s.ranges ∧ m.rekey.intended = none ∧ m.cmd.secQueue = withNotices (lostAnswers s.drive.outbox) s

theorem toldDropped_keeps (s : State) :
    Keeps (ToldDropped s) (allFields.filter fun f => f ∉ ([.ranges, .intended, .secQueue] : List Field)) := fun m n f h => by
  rw [ToldDropped, f.ranges, f.intended, f.secQueue]
  exact h

/-- Without a CLOSING range a reset completes no close, and tells no one. -/
theorem driveLinkReset_queue {s : State} (open_ : ∀ (r : Fin 16) h d ws, s.ranges[r].run ≠ .closing h d ws) :
    (driveLinkReset s).cmd.secQueue = withNotices (lostAnswers s.drive.outbox) s := by
  have closes : ∀ (m : State) (r : Fin 16), ToldDropped s m → ToldDropped s (closeIfDrained r m) := fun m r h => by
    rw [closeIfDrained_of_not_closing (by rw [h.1]; exact open_ r)]
    exact h
  have start : ToldDropped s (resetOrders s) := ⟨(frame_resetOrders s).ranges, rfl, resetOrders_queue s⟩
  have tags : ∀ (m : State) (t : Fin 32), ToldDropped s m → ToldDropped s (resetTag m t) := fun m t h => by
    unfold resetTag
    split
    · rename_i x _
      have still : ∀ r ∈ rangesNamed x.segs, ∀ g d ws, (setEntry t .free m).ranges[r].run ≠ .closing g d ws := fun r _ => by
        have : (setEntry t .free m).ranges = s.ranges := h.1
        rw [this]
        exact open_ r
      obtain ⟨v, departs, -⟩ := departed_of_not_closing still
      rw [leaveAdmitted_eq, departs, sendMigrateOrder_of_none (by exact h.2.1), ite_self]
      exact h
    · exact h
    · exact h
    · exact h
  have all := keeps_foldl (f := resetTag) tags (List.finRange 32) _ start
  have entries : ToldDropped s (resetEntries (resetOrders s)) := by
    rw [resetEntries_eq]
    exact (toldDropped_keeps s).of all (frame_emptyHold _)
  rw [driveLinkReset_eq]
  generalize resetEntries (resetOrders s) = m at entries
  have drains := Frame.foldl (f := fun s k => drainSlot k s) (fun s k => frame_drainSlot k s) (List.finRange 18) m
  have drained_ := (toldDropped_keeps s).of entries drains
  unfold resetCloses
  exact (keeps_foldl (f := fun s r => closeIfDrained r s) closes (List.finRange 16) _ drained_).2.2

theorem driveLinkReset_orders (s : State) : (driveLinkReset s).erase.orders = [] := by
  rw [driveLinkReset_eq, (frame_resetCloses _).orders, (frame_resetEntries _).orders]
  rfl

theorem Frame.lastSent {L : List Field} {s t : State} (h : Frame L s t) (hf : .lastSent ∉ L := by decide +kernel) :
    t.drive.lastSent = s.drive.lastSent := by
  rw [← h.eq]
  simp only [overlay, if_neg hf]

/-- R173: the link is DOWN with empty buffers. -/
theorem driveLinkReset_drive (s : State) :
    (driveLinkReset s).drive = { s.drive with up := false, units := [], outbox := [] } := by
  have units : (driveLinkReset s).drive.units = [] := by
    rw [driveLinkReset_eq, (frame_resetCloses _).units, (frame_resetEntries _).units, resetOrders_eq]
    exact (Frame.foldl frame_dropFrame s.drive.outbox (linkDown s)).units
  have f := frame_driveLinkReset s
  have down := (driveLinkReset_resetting s).1.down
  have inbound := f.inbound
  have last := f.lastSent
  generalize (driveLinkReset s).drive = d at units down inbound last
  obtain ⟨up, outbox⟩ := down
  obtain ⟨_, _, _, _, _⟩ := d
  simp only at up units inbound outbox last
  rw [up, units, inbound, outbox, last]

theorem exec_reset {m : State} (hb : Between m) (up : m.drive.up = true) : exec .linkResetIndication m
    = .next (clearTouched (drainFrom m.drive.inbound (withInbound [] (driveLinkReset m)))) := by
  refine (event_of_between hb).trans ?_
  unfold resetIndication
  rw [if_pos up, drainInbound_eq, (frame_driveLinkReset m).inbound]

theorem exec_reset_alone {m : State} (hb : Between m) (up : m.drive.up = true) (none_ : m.drive.inbound = []) :
    exec .linkResetIndication m = .next (clearTouched (withInbound [] (driveLinkReset m))) := by
  rw [exec_reset hb up, none_]
  generalize withInbound [] (driveLinkReset m) = n
  rfl

theorem exec_reset_emptied {m : State} (hb : Between m) (up : m.drive.up = true) :
    exec .linkResetIndication (withInbound [] m) = .next (clearTouched (withInbound [] (driveLinkReset m))) := by
  rw [exec_reset_alone (m := withInbound [] m) hb up rfl, blind_driveLinkReset]
  generalize driveLinkReset m = n
  rfl

theorem exec_linkHello_idle {m : State} (running : m.phase = .running) (none_ : m.drive.inbound = []) :
    exec .linkHello (clearTouched m) = .next (clearTouched (linkHello (clearTouched m))) := by
  change event (arrive .linkHello) (clearTouched m) = _
  unfold event arrive
  rw [clearTouched_twice, if_neg (not_not.mpr (show (clearTouched m).phase = .running from running)),
    if_pos (show (clearTouched m).drive.inbound.isEmpty = true by
      change m.drive.inbound.isEmpty = true
      rw [none_]
      rfl)]
  rfl

/-- Settles O22: the reset is blind to the frames that wait, and its passes leave nothing that a transfer or close held. -/
theorem linkResetIndicationEndsTransfers : Obligations.LinkResetIndicationEndsTransfers := by
  intro s hb emptied
  have down : (withInbound [] (driveLinkReset s)).drive.up = false := (withInbound_up [] _).trans (driveLinkReset_down s)
  refine ⟨fun up => ?_, fun up none_ => ?_, fun up running l none_ hl => ?_, fun up none_ => ?_⟩
  · refine event_eq hb ?_ hb
    unfold resetIndication
    simp [up]
  · refine Eq.trans ?_ (exec_reset_emptied hb up).symm
    rw [exec_reset hb up, drainFrom_down _ down none_]
  · refine ⟨_, exec_reset_emptied hb up, ?_⟩
    have phase : (withInbound [] (driveLinkReset s)).phase = .running :=
      (withInbound_phase [] _).trans ((frame_driveLinkReset s).phase.trans running)
    rw [exec_reset hb up, hl, drainFrom_down_hello l down none_]
    exact (exec_linkHello_idle phase rfl).symm
  · obtain ⟨resetting, adm, closed⟩ := driveLinkReset_resetting s
    have f := frame_driveLinkReset s
    have rest := fun ok k => driveLinkReset_rested (s := s) ok k
    have queue := fun h => driveLinkReset_queue (s := s) h
    have drive := driveLinkReset_drive s
    have orders := driveLinkReset_orders s
    have ran := exec_reset_alone hb up none_
    generalize driveLinkReset s = m at resetting adm closed f rest queue drive orders ran
    obtain ⟨-, ⟨order, intended, fence⟩, ranges, lost, kept, told⟩ := resetting
    refine ⟨_, ran, ?_, adm, order, intended, fence, orders, lost, f.rekeyOnly, f.derive, f.watch, fun r => ?_,
      fun ok k => rest ok k, queue, fun j hj => ⟨kept j hj, fun hp hw he ha => ?_⟩⟩
    · change { m.drive with inbound := [] } = _
      rw [drive, ← none_]
    · change m.ranges[r] = _
      have same := ranges r
      have now := closed r
      generalize s.ranges[r] = v at same now ⊢
      obtain ⟨run, mark⟩ := v
      cases run with
      | closing h d ws => exact now h d ws rfl
      | _ => exact same.resolve_right fun ⟨⟨_, _, _, e⟩, _⟩ => nomatch e
    · refine (told j hj hp hw he ha).resolve_left fun ⟨_, still⟩ => ?_
      rw [awaited_false.mpr] at still
      · cases still
      · intro q
        rcases ranges q with e | ⟨-, e⟩
        · cases hr : s.ranges[q].run with
          | closing h d ws =>
            rw [closed q h d ws hr]
            exact List.not_mem_nil
          | _ =>
            rw [e, hr]
            exact List.not_mem_nil
        · rw [e]
          exact List.not_mem_nil

end Sys2Proof.Machine
end


-- ==== Sys2Proof/Proofs/Reprovision.lean ====
section
/-! PROOF. REPROVISION: the renewal of every defined range with its entries, and the step that settles the watch (R170):
O47. -/

-- As in the tests: each theorem that waits for the kernel in parallel would keep a thread.
set_option Elab.async false

namespace Sys2Proof.Machine

/-! ## Slots that stay EMPTY -/

theorem vacant_releaseHold {k : Fin 18} {s : State} (h : s.slots[k] = .empty) : (releaseHold s).slots[k] = .empty := by
  refine keeps_foldl (Inv := fun s => s.slots[k] = .empty) (fun s t h => ?_) _ s h
  unfold releaseOne
  split
  · split
    · rw [(frame_refuseHeld _ _ t s).slots]
      exact h
    · rename_i segs _
      unfold admitEntry
      dsimp only
      rw [(frame_pushFrame _ _).slots, (pinPass segs _).2 k]
      split
      · change pinnedSlot s.slots[k] = _
        rw [h]
        rfl
      · exact h
  · exact h

/-- R25: a renewal takes one slot at most. -/
theorem renewRange_vacant {r : Fin 16} {upd : RangeRec → RangeRec} {s : State} {j : Fin 18}
    (h : (dropRuntime r s).slots[j] = .empty)
    (other : ∀ k l, emptySlots (dropRuntime r s) = k :: l → j ≠ k) : (renewRange r upd s).2.2.slots[j] = .empty := by
  have slots := freshKeys_slots r upd s
  have empties : emptySlots (freshKeys r upd (letGo r s)) = emptySlots (dropRuntime r s) := emptySlots_congr slots
  rw [renewRange_eq]
  generalize freshKeys r upd (letGo r s) = f at slots empties ⊢
  have vacant : (reopen r (letGo r s).draws f).2.slots[j] = .empty := by
    cases e : emptySlots (dropRuntime r s) with
    | nil =>
      rw [reopen_none (empties.trans e), slots]
      exact h
    | cons k l =>
      rw [reopen_some (empties.trans e)]
      change (setSlot k _ f).slots[j] = _
      rw [setSlot_get, if_neg (other k l e), slots]
      exact h
  have settled : (settleWaiters (reopen r (letGo r s).draws f).2).slots[j] = .empty := by
    rw [(frame_settleWaiters _).slots]
    exact vacant
  dsimp only
  split
  · exact vacant_releaseHold settled
  · exact settled

/-- Outside `l` every slot is EMPTY. -/
def VacantBut (l : List (Fin 18)) (s : State) : Prop := ∀ k : Fin 18, k ∉ l → s.slots[k] = .empty

theorem exists_notMem {l : List (Fin 18)} (h : l.length < 18) : ∃ k : Fin 18, k ∉ l := by
  by_contra none_
  have all : ∀ k : Fin 18, k ∈ l := fun k => not_not.mp fun x => none_ ⟨k, x⟩
  have := (List.subperm_of_subset (List.nodup_finRange 18) fun k _ => all k).length_le
  rw [List.length_finRange] at this
  omega

theorem emptySlots_some {l : List (Fin 18)} {s : State} (h : VacantBut l s) (hl : l.length < 18) :
    ∃ k m, emptySlots s = k :: m := by
  obtain ⟨k, hk⟩ := exists_notMem hl
  have mem : k ∈ emptySlots s := List.mem_filter.mpr ⟨List.mem_finRange k, decide_eq_true (h k hk)⟩
  cases e : emptySlots s with
  | nil =>
    rw [e] at mem
    cases mem
  | cons k m => exact ⟨k, m, rfl⟩

/-! ## Every defined range renewed -/

/-- R170, step 1: between `s` and `t` the defined ranges of `l` have been renewed; `out` names them, with their range keys
and whether they have opened. -/
structure RenewedAll (l : List (Fin 16)) (s t : State) (out : List (Fin 16 × Key × Bool)) : Prop where
  names : out.map Prod.fst = l.filter fun r => rangeDefined s.copies r
  still : ∀ r : Fin 16, r ∉ l ∨ rangeDefined s.copies r = false →
    t.copies.ranges[r] = s.copies.ranges[r] ∧ t.ranges[r] = s.ranges[r]
  renewed : ∀ x ∈ out, ∃ n, s.draws ≤ n ∧ x.2.1 = ⟨n⟩ ∧ t.copies.ranges[x.1] = renewedRec id n s.copies.ranges[x.1]
  wraps : ∀ (i : Fin 64) w, t.copies.wraps[i] = some w
    ↔ s.copies.wraps[i] = some w ∧ ¬(w.range ∈ l ∧ rangeDefined s.copies w.range = true)
  opened : ∀ x ∈ out, x.2.2 = true → ∃ h, t.ranges[x.1].run = .opened h ∧ h.level = .readWrite ∧ h.next = none
  roomy : ∀ taken, VacantBut taken s → taken.length + l.length ≤ 18 →
    (∀ r ∈ l, heldBy s.ranges[r].run = none) → ∀ x ∈ out, x.2.2 = true

theorem rangeDefined_renewed {a b : Records} {r q : Fin 16} {n : Nat} (hr : rangeDefined a r = true)
    (h : b.ranges = a.ranges.set r (renewedRec id n a.ranges[r])) : rangeDefined b q = rangeDefined a q := by
  unfold rangeDefined at hr ⊢
  rw [h]
  by_cases e : r = q
  · subst e
    simp only [Fin.getElem_fin, Vector.getElem_set_self, renewedRec, Bool.or_true]
    exact hr.symm
  · have : (r : Nat) ≠ q := fun x => e (Fin.ext x)
    simp [this]

theorem renewAll_renewed (l : List (Fin 16)) (hl : l.Nodup) (s : State) :
    RenewedAll l s (renewAll l s).2 (renewAll l s).1 := by
  induction l generalizing s with
  | nil =>
    exact ⟨rfl, fun _ _ => ⟨rfl, rfl⟩, fun x hx => absurd hx List.not_mem_nil, fun i w => by simp [renewAll],
      fun x hx => absurd hx List.not_mem_nil, fun _ _ _ _ x hx => absurd hx List.not_mem_nil⟩
  | cons r l ih =>
    obtain ⟨fresh, hl⟩ := List.nodup_cons.mp hl
    by_cases defd : rangeDefined s.copies r = true
    · have unfolded : renewAll (r :: l) s = ((r, (renewRange r id s).1, (renewRange r id s).2.1)
          :: (renewAll l (renewRange r id s).2.2).1, (renewAll l (renewRange r id s).2.2).2) := by
        rw [renewAll, if_pos defd]
      have records := renewRange_records r id s
      have runtime := renewRange_renewed r id s
      have wraps := removed_wraps (renewRange_wraps r id s)
      have vacant := fun j => renewRange_vacant (r := r) (upd := id) (s := s) (j := j)
      have f := frame_renewRange r id s
      have key := renewRange_key r id s
      have tail := ih hl (renewRange r id s).2.2
      rw [unfolded, key]
      generalize (renewRange r id s).2.1 = got at runtime
      generalize (renewRange r id s).2.2 = m at records runtime wraps vacant f tail
      generalize (renewAll l m).1 = out at tail
      generalize (renewAll l m).2 = t at tail
      obtain ⟨names, still, renewed, wraps', opened, roomy⟩ := tail
      have same : ∀ q, rangeDefined m.copies q = rangeDefined s.copies q := fun q => rangeDefined_renewed defd records
      have elsewhere : ∀ q : Fin 16, q ≠ r → m.copies.ranges[q] = s.copies.ranges[q] ∧ m.ranges[q] = s.ranges[q] := by
        intro q hq
        have hq' : (r : Nat) ≠ q := fun x => hq (Fin.ext x.symm)
        refine ⟨by rw [records]; simp [hq'], ?_⟩
        rcases runtime.cases with ⟨-, k, e, -⟩ | ⟨-, e⟩
        · rw [ranges_set_get e, if_neg hq]
        · rw [ranges_set_get e, if_neg hq]
      have mem : ∀ x ∈ out, x.1 ∈ l := fun x hx => by
        have : x.1 ∈ out.map Prod.fst := List.mem_map_of_mem hx
        rw [names] at this
        exact List.mem_of_mem_filter this
      refine ⟨?_, fun q hq => ?_, fun x hx => ?_, fun i w => ?_, fun x hx => ?_, fun taken free room unheld x hx => ?_⟩
      · rw [List.map_cons, names, List.filter_cons_of_pos defd]
        simp only [same]
      · have hq' : q ≠ r := by
          rintro rfl
          rcases hq with x | x
          · exact x List.mem_cons_self
          · rw [defd] at x
            cases x
        obtain ⟨e1, e2⟩ := still q (hq.imp (fun x y => x (List.mem_cons_of_mem r y)) (fun x => (same q).trans x))
        exact ⟨e1.trans (elsewhere q hq').1, e2.trans (elsewhere q hq').2⟩
      · obtain ⟨records', -⟩ := still r (.inl fresh)
        rcases List.mem_cons.mp hx with rfl | hx
        · refine ⟨s.draws, le_rfl, rfl, ?_⟩
          dsimp only
          rw [records', records]
          exact Vector.getElem_set_self _
        · obtain ⟨n, le, hkey, record⟩ := renewed x hx
          have other : x.1 ≠ r := fun e => fresh (e ▸ mem x hx)
          exact ⟨n, f.draws_le.trans le, hkey, by rw [record, (elsewhere x.1 other).1]⟩
      · rw [wraps' i w, wraps i w, same, List.mem_cons]
        constructor
        · rintro ⟨⟨hw, n⟩, out⟩
          exact ⟨hw, fun ⟨into, d⟩ => into.elim n fun y => out ⟨y, d⟩⟩
        · rintro ⟨hw, out⟩
          exact ⟨⟨hw, fun e => out ⟨.inl e, by rw [e]; exact defd⟩⟩, fun ⟨into, d⟩ => out ⟨.inr into, d⟩⟩
      · rcases List.mem_cons.mp hx with rfl | hx
        · intro got
          rcases runtime.cases with ⟨-, k, e, -⟩ | ⟨no, -⟩
          · refine ⟨⟨.readWrite, ⟨s.draws⟩, k, none⟩, ?_, rfl, rfl⟩
            rw [(still r (.inl fresh)).2, ranges_set_get e, if_pos rfl]
          · exact absurd (no.symm.trans got) (by simp)
        · exact opened x hx
      · have dropped : (dropRuntime r s).slots = s.slots := dropRuntime_slots_none (unheld r List.mem_cons_self)
        have free' : VacantBut taken (dropRuntime r s) := fun k hk => by
          rw [dropped]
          exact free k hk
        simp only [List.length_cons] at room
        obtain ⟨k, rest, e⟩ := emptySlots_some free' (by omega)
        rcases List.mem_cons.mp hx with rfl | hx
        · exact (runtime.some k rest e).1
        · refine roomy (k :: taken) (fun j hj => ?_) (by simp only [List.length_cons]; omega) (fun q hq => ?_) x hx
          · obtain ⟨hj1, hj2⟩ := not_or.mp (mt List.mem_cons.mpr hj)
            refine vacant j (free' j hj2) fun k' l' e' => ?_
            cases e.symm.trans e'
            exact hj1
          · rw [(elsewhere q fun y => fresh (y ▸ hq)).2]
            exact unheld q (List.mem_cons_of_mem r hq)
    · have unfolded : renewAll (r :: l) s = renewAll l s := by
        rw [renewAll, if_neg defd]
      rw [unfolded]
      obtain ⟨names, still, renewed, wraps', opened, roomy⟩ := ih hl s
      have into : ∀ q : Fin 16, q ∈ r :: l ∧ rangeDefined s.copies q = true ↔ q ∈ l ∧ rangeDefined s.copies q = true := fun q =>
        ⟨fun ⟨h1, h2⟩ => ⟨(List.mem_cons.mp h1).resolve_left fun e => defd (e ▸ h2), h2⟩,
          fun ⟨h1, h2⟩ => ⟨List.mem_cons_of_mem r h1, h2⟩⟩
      refine ⟨?_, fun q hq => still q ?_, renewed, fun i w => ?_, opened, fun taken free room unheld =>
        roomy taken free ?_ fun q hq => unheld q (List.mem_cons_of_mem r hq)⟩
      · rw [names, List.filter_cons_of_neg defd]
      · exact hq.imp_left fun x y => x (List.mem_cons_of_mem r y)
      · rw [wraps' i w, into]
      · simp only [List.length_cons] at room
        omega

/-! ## The entries of the renewed ranges -/

/-- R170, step 2: the entries that the owner's pass gives one renewed range. -/
def entriesOf (c : Fin 8) (under : CredKey) (s : State) (x : Fin 16 × Key × Bool) : List WrapEntry :=
  if s.copies.ranges[x.1].attributes.autoOpen = true then
    [ownerOf c under x.1 x.2.1 s.copies, deviceOf x.1 x.2.1 s]
  else [ownerOf c under x.1 x.2.1 s.copies]

theorem mem_entriesOf {c : Fin 8} {under : CredKey} {s : State} {x : Fin 16 × Key × Bool} {w : WrapEntry} :
    w ∈ entriesOf c under s x ↔ w = ownerOf c under x.1 x.2.1 s.copies
      ∨ s.copies.ranges[x.1].attributes.autoOpen = true ∧ w = deviceOf x.1 x.2.1 s := by
  unfold entriesOf
  generalize s.copies.ranges[x.1].attributes.autoOpen = auto
  cases auto <;> simp

theorem entriesOf_range {c : Fin 8} {under : CredKey} {s : State} {x : Fin 16 × Key × Bool} {w : WrapEntry}
    (h : w ∈ entriesOf c under s x) : w.range = x.1 := by
  rcases mem_entriesOf.mp h with rfl | ⟨-, rfl⟩ <;> rfl

theorem entriesOf_length (c : Fin 8) (under : CredKey) (s : State) (x : Fin 16 × Key × Bool) :
    (entriesOf c under s x).length ≤ 2 := by
  unfold entriesOf
  split <;> simp

theorem ownAll_added (c : Fin 8) (under : CredKey) (out : List (Fin 16 × Key × Bool)) (s : State)
    (names : (out.map Prod.fst).Nodup)
    (absent : ∀ (i : Fin 64) w, s.copies.wraps[i] = some w → w.range ∉ out.map Prod.fst) :
    Added (out.flatMap (entriesOf c under s)) s (out.foldl (fun s x => ownerEntries c under x.1 x.2.1 s) s) := by
  induction out generalizing s with
  | nil => exact .nil s
  | cons x out ih =>
    obtain ⟨fresh, names⟩ := List.nodup_cons.mp names
    have first : Added (entriesOf c under s x) s (ownerEntries c under x.1 x.2.1 s) :=
      ownerEntries_added fun who => findWrap_none.mpr fun i e he both => absent i e he (by
        rw [both.2]
        exact List.mem_cons_self)
    have f := frame_ownerEntries c under x.1 x.2.1 s
    rw [List.foldl_cons, List.flatMap_cons]
    generalize ownerEntries c under x.1 x.2.1 s = m at first f
    have same : entriesOf c under m = entriesOf c under s := by
      funext y
      unfold entriesOf ownerOf deviceOf
      rw [f.cRanges, f.deviceKey]
    have rest := ih m names fun i w hw into => by
      rcases first.only i w hw with old | new
      · exact absent i w old (List.mem_cons_of_mem _ into)
      · rw [entriesOf_range new] at into
        exact fresh into
    rw [same] at rest
    exact first.append rest

theorem flatMap_length_le (c : Fin 8) (under : CredKey) (s : State) (out : List (Fin 16 × Key × Bool)) :
    (out.flatMap (entriesOf c under s)).length ≤ 2 * out.length := by
  induction out with
  | nil => simp
  | cons x out ih =>
    have := entriesOf_length c under s x
    simp only [List.flatMap_cons, List.length_append, List.length_cons]
    omega

/-! ## The own counts -/

/-- One step of the pass that clears the own failure counts. -/
def clearOne (s : State) (c : Fin 8) : State :=
  let r := s.copies.creds[c]
  if r.ownCount = 0 then s else putCred c { r with ownCount := 0 } s

theorem clearOwnCounts_eq (s : State) : clearOwnCounts s = (List.finRange 8).foldl clearOne s := rfl

theorem clearOne_creds (m : State) (c d : Fin 8) : (clearOne m c).copies.creds[d]
    = if d = c then { m.copies.creds[d] with ownCount := 0 } else m.copies.creds[d] := by
  have zero : ∀ v : CredRec, v.ownCount = 0 → v = { v with ownCount := 0 } := by
    rintro ⟨_, _, _⟩ rfl
    rfl
  unfold clearOne
  dsimp only
  by_cases h : m.copies.creds[c].ownCount = 0
  · rw [if_pos h]
    by_cases e : d = c
    · subst e
      rw [if_pos rfl, ← zero _ h]
    · rw [if_neg e]
  · rw [if_neg h, putCred_copies]
    by_cases e : d = c
    · subst e
      rw [if_pos rfl]
      exact Vector.getElem_set_self _
    · have : (c : Nat) ≠ d := fun x => e (Fin.ext x.symm)
      rw [if_neg e]
      simp [this]

theorem clearOwnCounts_creds (s : State) (d : Fin 8) :
    (clearOwnCounts s).copies.creds[d] = { s.copies.creds[d] with ownCount := 0 } := by
  have pass : ∀ (l : List (Fin 8)) (m : State), (l.foldl clearOne m).copies.creds[d]
      = if d ∈ l then { m.copies.creds[d] with ownCount := 0 } else m.copies.creds[d] := by
    intro l
    induction l with
    | nil => exact fun m => by simp
    | cons c l ih =>
      intro m
      rw [List.foldl_cons, ih, clearOne_creds]
      by_cases e : d = c
      · subst e
        simp
      · simp [e]
  rw [clearOwnCounts_eq, pass, if_pos (List.mem_finRange d)]

/-! ## The effect -/

theorem successResets_erased {s : State} (h : s.copies.watch.state = .erased) (c : Fin 8) (key : CredKey) :
    successResets c key { s with derive := { job := s.derive.waiting.head?, waiting := s.derive.waiting.tail } }
      = atVerdict c key s := by
  change reportSuccess (roleOf c) (atVerdict c key s) = _
  have still : (atVerdict c key s).copies.watch.state = .erased := h
  unfold reportSuccess
  rw [still]

/-- R70: in ERASED a REPROVISION's effect is applied. -/
theorem exec_reprovision {id : BitVec 16} {cb : Byte} {secret : Secret} {c : Fin 8} {key : CredKey} {s : State}
    (h : Succeeds (.reprovision id cb secret) c key s) (erased : s.copies.watch.state = .erased) :
    exec .derivationComplete s = .next (clearTouched (reprovisionEffect c key (atVerdict c key s))) := by
  obtain ⟨⟨hb, ⟨j, hj, channel, hk⟩, ⟨lost, hs⟩, hc⟩, hv⟩ := h
  obtain ⟨⟨c', secret'⟩, cred, rfl⟩ := Option.map_eq_some_iff.mp hc
  have resets := successResets_erased erased c' key
  have applied : verdictWithheld (.reprovision id cb secret) c' .erased = none := rfl
  refine (event_of_between hb).trans (congrArg (fun m => Host.Outcome.next (clearTouched m)) ?_)
  unfold derivationEnds
  simp only [hj, channel, hk, secDerived, hs, verdict, cred]
  rw [if_pos hv]
  unfold successVerdict
  simp only [resets, erased, applied, requestEffect]

/-- R170, steps 1 to 4, before the request waits for their writes. -/
def reprovisioning (c : Fin 8) (key : CredKey) (s : State) : State :=
  putJournal none (clearOwnCounts ((renewAll (List.finRange 16) s).1.foldl (fun s x => ownerEntries c key x.1 x.2.1 s)
    (renewAll (List.finRange 16) s).2))

theorem reprovisionEffect_eq (c : Fin 8) (key : CredKey) (s : State) : reprovisionEffect c key s
    = modSec (fun j => { j with
        phase := .reprovisioning (((renewAll (List.finRange 16) s).1.filter fun x => x.2.2).map Prod.fst)
        writes := j.writes ++ (reprovisioning c key s).store.touched }) (reprovisioning c key s) := by
  unfold reprovisionEffect reprovisioning
  generalize renewAll (List.finRange 16) s = x
  rfl

theorem underWay_renewAll {req : Instr} (l : List (Fin 16)) (s : State) (h : UnderWay req s) :
    UnderWay req (renewAll l s).2 := by
  induction l generalizing s with
  | nil => exact h
  | cons r l ih =>
    have renewed := underWay_renewRange r id s h
    unfold renewAll
    generalize renewRange r id s = x at renewed ⊢
    split
    · exact ih _ renewed
    · exact ih s h

theorem underWay_reprovisioning {req : Instr} {c : Fin 8} {key : CredKey} {s : State} (h : UnderWay req s) :
    UnderWay req (reprovisioning c key s) := by
  have renewed := underWay_renewAll (List.finRange 16) s h
  have owned := keeps_foldl (f := fun s (x : Fin 16 × Key × Bool) => ownerEntries c key x.1 x.2.1 s)
    (fun s x hs => underWay_ownerEntries c key x.1 x.2.1 s hs) (renewAll (List.finRange 16) s).1 _ renewed
  unfold reprovisioning
  rw [clearOwnCounts_eq]
  have cleared := keeps_foldl (Inv := UnderWay req) (f := clearOne) (fun m d hm => by
    unfold clearOne
    dsimp only
    split
    · exact hm
    · exact underWay_put _ _ hm) (List.finRange 8) _ owned
  exact underWay_put _ _ cleared

/-- What the steps 1 to 4 of R170 leave, from the state at the verdict. -/
structure Reprovisioned (c : Fin 8) (key : CredKey) (s t : State) (out : List (Fin 16 × Key × Bool)) : Prop where
  names : ∀ r, r ∈ out.map Prod.fst ↔ rangeDefined s.copies r = true
  creds : ∀ d : Fin 8, t.copies.creds[d] = { s.copies.creds[d] with ownCount := 0 }
  still : ∀ r : Fin 16, rangeDefined s.copies r = false → t.copies.ranges[r] = s.copies.ranges[r]
  renewed : ∀ x ∈ out, ∃ n, s.draws ≤ n ∧ x.2.1 = ⟨n⟩ ∧ t.copies.ranges[x.1] = renewedRec id n s.copies.ranges[x.1]
  only : ∀ (i : Fin 64) w, t.copies.wraps[i] = some w →
    s.copies.wraps[i] = some w ∧ rangeDefined s.copies w.range = false ∨ ∃ x ∈ out, w ∈ entriesOf c key t x
  made : (∀ i : Fin 64, s.copies.wraps[i] = none) → ∀ x ∈ out, ∀ w ∈ entriesOf c key t x,
    ∃ i : Fin 64, t.copies.wraps[i] = some w
  opened : (∀ k : Fin 18, s.slots[k] = .empty) → (∀ r : Fin 16, heldBy s.ranges[r].run = none) → ∀ x ∈ out,
    x.2.2 = true ∧ ∃ h, t.ranges[x.1].run = .opened h ∧ h.level = .readWrite ∧ h.next = none

theorem entriesOf_congr {c : Fin 8} {under : CredKey} {s t : State} (hr : t.copies.ranges = s.copies.ranges)
    (hd : t.deviceKey = s.deviceKey) : entriesOf c under t = entriesOf c under s := by
  funext x
  unfold entriesOf ownerOf deviceOf
  rw [hr, hd]

theorem reprovisioning_reprovisioned (c : Fin 8) (key : CredKey) (s : State) :
    Reprovisioned c key s (reprovisioning c key s) (renewAll (List.finRange 16) s).1 := by
  have renewed := renewAll_renewed (List.finRange 16) (List.nodup_finRange 16) s
  have f := frame_renewAll (List.finRange 16) s
  unfold reprovisioning
  generalize (renewAll (List.finRange 16) s).1 = out at renewed ⊢
  generalize (renewAll (List.finRange 16) s).2 = m at renewed f ⊢
  obtain ⟨names, still, records, wraps, opened, roomy⟩ := renewed
  have names' : ∀ r, r ∈ out.map Prod.fst ↔ rangeDefined s.copies r = true := fun r => by
    rw [names, List.mem_filter]
    simp
  have count : out.length ≤ 16 := by
    have := congrArg List.length names
    rw [List.length_map] at this
    rw [this]
    exact (List.length_filter_le _ _).trans (by rw [List.length_finRange])
  have added := ownAll_added c key out m (by rw [names]; exact (List.nodup_finRange 16).filter _)
    fun i w hw into => ((wraps i w).mp hw).2 ⟨List.mem_finRange _, (names' _).mp into⟩
  have g := Frame.foldl (f := fun s (x : Fin 16 × Key × Bool) => ownerEntries c key x.1 x.2.1 s)
    (fun s x => frame_ownerEntries c key x.1 x.2.1 s) out m
  generalize out.foldl (fun s x => ownerEntries c key x.1 x.2.1 s) m = n at added g ⊢
  have creds := clearOwnCounts_creds n
  have cleared := frame_clearOwnCounts n
  generalize clearOwnCounts n = u at creds cleared ⊢
  have journal : Frame [.cJournal, .requests] u (putJournal none u) := frame_put (.journal none) _ .cJournal
  generalize putJournal none u = t at journal ⊢
  have rest : Frame [.cCreds, .cJournal, .requests] n t := journal.after (N := [.cCreds, .cJournal, .requests]) cleared
  have ranges : t.copies.ranges = m.copies.ranges := rest.cRanges.trans g.cRanges
  have wraps' : t.copies.wraps = n.copies.wraps := rest.cWraps
  have same : entriesOf c key t = entriesOf c key m := entriesOf_congr ranges (rest.deviceKey.trans g.deviceKey)
  refine ⟨names', fun d => ?_, fun r off => ?_, fun x hx => ?_, fun i w hw => ?_, fun empty x hx w hw => ?_,
    fun free unheld x hx => ?_⟩
  · rw [journal.cCreds, creds d, g.cCreds, f.cCreds]
  · rw [ranges]
    exact (still r (.inr off)).1
  · rw [ranges]
    exact records x hx
  · rw [wraps'] at hw
    rcases added.only i w hw with old | new
    · obtain ⟨was, out_⟩ := (wraps i w).mp old
      exact .inl ⟨was, Bool.eq_false_of_not_eq_true fun d => out_ ⟨List.mem_finRange _, d⟩⟩
    · rw [same]
      obtain ⟨x, hx, hw⟩ := List.mem_flatMap.mp new
      exact .inr ⟨x, hx, hw⟩
  · rw [same] at hw
    rw [wraps']
    have none_ : wrapCount m.copies = 0 := by
      unfold wrapCount
      rw [List.length_eq_zero_iff, List.filter_eq_nil_iff]
      intro i _
      cases hi : m.copies.wraps[i] with
      | none => simp
      | some w =>
        have := ((wraps i w).mp hi).1
        rw [empty i] at this
        cases this
    have le := flatMap_length_le c key m out
    exact added.made (by omega) w (List.mem_flatMap.mpr ⟨x, hx, hw⟩)
  · have all := roomy [] (fun k _ => free k) (by simp) (fun r _ => unheld r) x hx
    obtain ⟨h, run, level, next⟩ := opened x hx all
    refine ⟨all, h, ?_, level, next⟩
    rw [rest.ranges, g.ranges]
    exact run

/-! ## The watch settles -/

/-- R146, R170: the watch leaves ERASED for SETTLED: two records are written, the decay timer starts and two notices join
their queues. -/
theorem enterWatch_settled {s : State} (h : s.copies.watch.state = .erased) : enterWatch ⟨.settled, 0⟩ s
    = noticeBoth (.watchState .settled)
      (setDecay (some 0) (addIncident (.stateChange .settled) (putWatch ⟨.settled, 0⟩ s))) := by
  have effects : ∀ m, entryEffects .erased .settled m = setDecay (some 0) m := fun m => by
    unfold entryEffects
    exact if_pos (.inr rfl)
  unfold enterWatch
  dsimp only
  rw [h, effects]

theorem noted_settles (s : State) : Noted (noticeBoth (.watchState .settled)
    (setDecay (some 0) (addIncident (.stateChange .settled) (putWatch ⟨.settled, 0⟩ s)))) :=
  noted_keeps.of (noted_keeps.of (noted_put _ (putWatch ⟨.settled, 0⟩ s)) (frame_setDecay (some 0) _))
    (frame_noticeBoth _ _)

/-- R150, R170: the writes that a request waits for are done, and nothing else waits: the request goes on. -/
theorem storeCompletes_secDue {s : State} {p : PendingWrite} {req : Instr} {lost : Bool} {phase : SecPhase}
    {keys : List CredKey} {awaits : Bool} (active : s.store.active = some p) (waits : s.store.waits = [])
    (hs : s.cmd.sec = some ⟨req, lost, phase, keys, [p.id], awaits⟩) :
    (completeWrite s).cmd.sec = some ⟨req, lost, phase, keys, [], awaits⟩
      ∧ storeCompletes s = platAnswerDue (secDue (completeWrite s)) := by
  have none_ : (completeWrite s).store.waits = [] := by
    unfold completeWrite
    rw [active]
    simp only [waits, List.map_nil]
  refine ⟨?_, ?_⟩
  · unfold completeWrite
    rw [active]
    simp [hs]
  · unfold storeCompletes
    rw [active]
    dsimp only
    rw [none_]
    rfl

/-- R170: the writes of the renewal are done: the watch settles, and the answer waits for that. -/
theorem exec_reprovisioned {req : Instr} {lost : Bool} {l : List (Fin 16)} {keys : List CredKey} {p : PendingWrite}
    {s : State} (hb : Between s) (active : s.store.active = some p) (waits : s.store.waits = []) (plat : s.cmd.plat = none)
    (erased : s.copies.watch.state = .erased) (hs : s.cmd.sec = some ⟨req, lost, .reprovisioning l, keys, [p.id], false⟩) :
    Next (exec .storeWriteComplete s) fun t => Frame [.sec, .requests]
        (noticeBoth (.watchState .settled)
          (setDecay (some 0) (addIncident (.stateChange .settled) (putWatch ⟨.settled, 0⟩ (completeWrite s))))) t
      ∧ Answering req .ok (.rangeList l) t := by
  obtain ⟨job, due⟩ := storeCompletes_secDue active waits hs
  have f := frame_completeWrite s
  have none_ : (completeWrite s).cmd.plat = none := by
    unfold completeWrite
    rw [active]
    simp [plat]
  refine ⟨_, event_of_between hb, ?_⟩
  change Frame _ _ (clearTouched (storeCompletes s)) ∧ Answering _ _ _ (clearTouched (storeCompletes s))
  rw [due]
  have still : (completeWrite s).copies.watch.state = .erased := by
    rw [f.cWatch]
    exact erased
  generalize completeWrite s = m at job none_ still ⊢
  have settles := enterWatch_settled still
  have noted := noted_settles m
  have g : Frame [.cWatch, .cIncidents, .decay, .secQueue, .platQueue, .marks, .requests] m
      (noticeBoth (.watchState .settled)
        (setDecay (some 0) (addIncident (.stateChange .settled) (putWatch ⟨.settled, 0⟩ m)))) :=
    (frame_noticeBoth _ _).after ((frame_setDecay _ _).after
      (N := [.cWatch, .cIncidents, .decay, .secQueue, .platQueue, .marks, .requests])
      ((frame_addIncident _ _).after (N := [.cWatch, .cIncidents, .decay, .secQueue, .platQueue, .marks, .requests])
        (frame_put (.watch ⟨.settled, 0⟩) m .cWatch)))
  have done : secDue m = secFinish .ok (.rangeList l) (enterWatch ⟨.settled, 0⟩ m) := by
    unfold secDue
    simp only [job]
    rfl
  rw [done, settles]
  generalize noticeBoth (.watchState .settled)
    (setDecay (some 0) (addIncident (.stateChange .settled) (putWatch ⟨.settled, 0⟩ m))) = u at noted g ⊢
  have job' := g.sec.trans job
  have plat' := g.plat.trans none_
  have waiting := secFinish_waits (k := .ok) (b := .rangeList l) job' noted
  generalize secFinish .ok (.rangeList l) u = v at waiting ⊢
  have idle : platAnswerDue v = v := by
    have : v.cmd.plat = none := by
      rw [waiting]
      exact plat'
    unfold platAnswerDue
    simp only [this]
  rw [idle, waiting]
  exact ⟨⟨rfl, rfl, le_rfl⟩, _, rfl, rfl, rfl⟩

/-- R38: with the watch ERASED only a READ passes the first check. -/
theorem exec_xferOpen_erased {tag : Fin 32} {cls : XferClass} {start count order : Nat} {t : State} (h : LinkTakes t)
    (erased : t.copies.watch.state = .erased) (hc : cls ≠ .read) :
    exec (.xferOpen tag cls start count order) t = .next (sent (.xferRefuse tag .erasing none) t) := by
  refine exec_frame h rfl (by simp) ?_ h.2.2.2
  have check : openCheck tag cls ⟨start, count⟩ t = some .erasing := if_pos (.inr ⟨erased, hc⟩)
  rw [← pushFrame_up h.2.1]
  change takeDescriptor tag cls ⟨start, count⟩ order t = _
  unfold takeDescriptor
  rw [check]

theorem noticeBoth_secQueue (n : Notice) (s : State) :
    (noticeBoth n s).cmd.secQueue = joinQueue 32 ⟨n, false, s.cmd.seq⟩ s.cmd.secQueue := rfl

theorem noticeBoth_platQueue (n : Notice) (s : State) :
    (noticeBoth n s).cmd.platQueue = joinQueue 16 ⟨n, false, s.cmd.seq + 1⟩ s.cmd.platQueue := rfl

/-- R146, R147: what the watch that settles leaves. -/
theorem settles_left (m : State) (u : State) (hu : u = noticeBoth (.watchState .settled)
      (setDecay (some 0) (addIncident (.stateChange .settled) (putWatch ⟨.settled, 0⟩ m)))) :
    u.copies = { m.copies with
        watch := ⟨.settled, 0⟩
        incidents := joinIncident ⟨.stateChange .settled, m.copies.boot, m.uptime, 0⟩ m.copies.incidents }
      ∧ u.watch = { m.watch with decay := some 0 } ∧ u.ranges = m.ranges ∧ u.slots = m.slots ∧ u.adm = m.adm
      ∧ u.cmd.secQueue = joinQueue 32 ⟨.watchState .settled, false, m.cmd.seq⟩ m.cmd.secQueue
      ∧ u.cmd.platQueue = joinQueue 16 ⟨.watchState .settled, false, m.cmd.seq + 1⟩ m.cmd.platQueue := by
  have f := frame_put (.watch ⟨.settled, 0⟩) m .cWatch
  have put : (putWatch ⟨.settled, 0⟩ m).copies = { m.copies with watch := ⟨.settled, 0⟩ } := rfl
  change Frame _ m (putWatch ⟨.settled, 0⟩ m) at f
  generalize putWatch ⟨.settled, 0⟩ m = a at f put hu
  have g := frame_addIncident (.stateChange .settled) a
  have joined := addIncident_copies (.stateChange .settled) a
  generalize addIncident (.stateChange .settled) a = i at g joined hu
  have fg : Frame [.cWatch, .cIncidents, .requests] m i := g.after f
  have started : setDecay (some 0) i = { i with watch := { i.watch with decay := some 0 } } := rfl
  generalize setDecay (some 0) i = d at started hu
  have h := frame_noticeBoth (.watchState .settled) d
  have secQueue := noticeBoth_secQueue (.watchState .settled) d
  have platQueue := noticeBoth_platQueue (.watchState .settled) d
  rw [← hu] at h secQueue platQueue
  have df : Frame [.decay] i d := by
    rw [started]
    exact frame_setDecay (some 0) i
  have hd : Frame [.decay, .secQueue, .platQueue, .marks] i u := h.after df
  refine ⟨?_, ?_, hd.ranges.trans fg.ranges, hd.slots.trans fg.slots, hd.adm.trans fg.adm, ?_, ?_⟩
  · rw [hd.copies, joined, put, f.uptime]
  · rw [h.watch, started, fg.watch]
  · rw [secQueue, df.secQueue, df.seq, fg.secQueue, fg.seq]
  · rw [platQueue, df.platQueue, df.seq, fg.platQueue, fg.seq]

/-- R170, steps 1 to 5: the renewal, and the request that waits for its writes. -/
theorem exec_reprovisioning {id : BitVec 16} {cb : Byte} {secret : Secret} {c : Fin 8} {key : CredKey} {s : State}
    (h : Succeeds (.reprovision id cb secret) c key s) (erased : s.copies.watch.state = .erased) :
    ∃ t, exec .derivationComplete s = .next t ∧ Between t ∧ Frame reprovisionFields (atVerdict c key s) t
      ∧ Frame [.sec, .requests] (reprovisioning c key (atVerdict c key s)) t
      ∧ ∃ j, t.cmd.sec = some j ∧ j.req = .reprovision id cb secret ∧ j.phase
        = .reprovisioning (((renewAll (List.finRange 16) (atVerdict c key s)).1.filter fun x => x.2.2).map Prod.fst) := by
  obtain ⟨⟨j, hj, hreq, -⟩, -⟩ := underWay_reprovisioning (c := c) (key := key) (underWay_atVerdict h)
  refine ⟨_, exec_reprovision h erased, rfl,
    (frame_clearTouched _).after (frame_reprovisionEffect c key (atVerdict c key s)), ?_⟩
  rw [reprovisionEffect_eq]
  generalize reprovisioning c key (atVerdict c key s) = m at hj ⊢
  generalize (renewAll (List.finRange 16) (atVerdict c key s)).1 = out
  exact ⟨(frame_clearTouched _).after (frame_modSec _ _), _, congrArg (Option.map _) hj, hreq, rfl⟩

/-- R170: the ranges that the answer lists. -/
theorem opened_iff {out : List (Fin 16 × Key × Bool)} (all : ∀ x ∈ out, x.2.2 = true) (r : Fin 16) :
    r ∈ (out.filter fun x => x.2.2).map Prod.fst ↔ r ∈ out.map Prod.fst := by
  rw [List.filter_eq_self.mpr all]

/-- Settles O47: the pass over the ranges with its entries, then the watch that waits for their writes. -/
theorem reprovisionRenewsTheDrive : Obligations.ReprovisionRenewsTheDrive := by
  refine ⟨fun id cb secret c key s h erased => ?_, fun req lost l keys p s hb active waits plat erased hs => ?_⟩
  · obtain ⟨t, ht, between, whole, f, j, hj, hreq, hphase⟩ := exec_reprovisioning h erased
    obtain ⟨names, creds, still, renewed, only, entries, opened⟩ := reprovisioning_reprovisioned c key (atVerdict c key s)
    have journal : (reprovisioning c key (atVerdict c key s)).copies.journal = none := rfl
    generalize (renewAll (List.finRange 16) (atVerdict c key s)).1 = out at *
    have same : entriesOf c key t = entriesOf c key (reprovisioning c key (atVerdict c key s)) :=
      entriesOf_congr f.cRanges f.deviceKey
    rw [← same] at only entries
    rw [← f.copies] at creds still renewed only entries journal
    rw [← f.ranges] at opened
    have record : ∀ x ∈ out, ∃ n, s.draws ≤ n ∧ x.2.1 = ⟨n⟩
        ∧ t.copies.ranges[x.1] = renewedRec (fun v => v) n s.copies.ranges[x.1] := renewed
    have made : ∀ r, rangeDefined s.copies r = true → ∃ x ∈ out, x.1 = r := fun r on =>
      List.mem_map.mp ((names r).mpr on)
    have deviceKey : t.deviceKey = s.deviceKey := whole.deviceKey
    refine ⟨t, ht, whole.cWatch, journal, fun d => ?_, still, fun r on => ?_, ⟨fun i w hw => ?_, fun empty r x on cur => ?_⟩,
      fun takes tag cls start count order hc => ?_, _, j, hj, hreq, hphase, fun free unheld r => ?_⟩
    · rw [creds d]
      change { (countsReset c s.copies).creds[d] with ownCount := 0 } = _
      rw [countsReset_creds]
      split
      · rename_i e; rw [e]
      · rfl
    · obtain ⟨x, hx, rfl⟩ := made r on
      obtain ⟨n, le, -, e⟩ := record x hx
      exact ⟨n, le, e⟩
    · rcases only i w hw with old | ⟨x, hx, hw⟩
      · exact .inl old
      · obtain ⟨n, -, hkey, e⟩ := record x hx
        obtain ⟨who, r, a, salt, under⟩ := w
        obtain rfl : r = x.1 := entriesOf_range hw
        refine .inr ⟨(names _).mp (List.mem_map_of_mem hx), ⟨⟨n + 1⟩, ⟨n⟩⟩, by rw [e]; rfl, ?_⟩
        rw [← deviceKey]
        rcases mem_entriesOf.mp hw with e' | ⟨auto, e'⟩
        · exact .inl (by rw [e', hkey]; rfl)
        · refine .inr ⟨?_, by rw [e', hkey]; rfl⟩
          rw [e] at auto
          exact auto
    · obtain ⟨y, hy, rfl⟩ := made r on
      obtain ⟨n, -, hkey, e⟩ := record y hy
      have cur' := cur
      rw [e] at cur'
      cases cur'
      have owner := entries empty y hy _ (mem_entriesOf.mpr (.inl rfl))
      refine ⟨?_, fun auto => ?_⟩
      · rw [hkey] at owner
        exact owner
      · have device := entries empty y hy _ (mem_entriesOf.mpr (.inr ⟨by rw [e]; exact auto, rfl⟩))
        rw [hkey] at device
        unfold deviceOf at device
        rw [deviceKey] at device
        exact device
    · obtain ⟨running, up, inbound, -⟩ := takes
      exact exec_xferOpen_erased ⟨whole.phase.trans running, whole.up.trans up, whole.inbound.trans inbound, between⟩
        ((congrArg WatchRec.state whole.cWatch).trans erased) hc
    · have all := opened free unheld
      rw [opened_iff (fun x hx => (all x hx).1), names]
      refine ⟨Iff.rfl, fun on => ?_⟩
      obtain ⟨x, hx, rfl⟩ := made r on
      exact (all x hx).2
  · obtain ⟨t, ht, g, answers⟩ := exec_reprovisioned hb active waits plat erased hs
    have f := frame_completeWrite s
    generalize completeWrite s = m at f g
    obtain ⟨copies, watch, ranges, slots, adm, secQueue, platQueue⟩ := settles_left m _ rfl
    generalize noticeBoth (.watchState .settled)
      (setDecay (some 0) (addIncident (.stateChange .settled) (putWatch ⟨.settled, 0⟩ m))) = u at *
    have seq : m.cmd.seq = s.cmd.seq := f.seq
    refine ⟨t, ht, ?_, ?_, ?_, ?_, ?_, ?_, ?_, answers⟩
    · rw [g.copies, copies, f.copies, f.uptime]
    · rw [g.watch, watch, f.watch]
    · rw [g.ranges, ranges, f.ranges]
    · rw [g.slots, slots, f.slots]
    · rw [g.adm, adm, f.adm]
    · rw [g.secQueue, secQueue, f.secQueue, seq]
    · rw [g.platQueue, platQueue, f.platQueue, seq]

end Sys2Proof.Machine
end


-- ==== Sys2Proof/Proofs/AutoOpens.lean ====
section
/-! PROOF. Opening: a LOCKED range that finds a slot, auto-open, and the pending set at WAKE, BIND and UNBIND (R19, R81 to
R85, R105, R128, R136): O52. -/

-- As in the tests: each theorem that waits for the kernel in parallel would keep a thread.
set_option Elab.async false

namespace Sys2Proof.Machine

/-! ## A range that opens -/

section Open

variable {r : Fin 16} {m : SealedKey} {s : State}

/-- R11: with no rekey of its own a range takes the lowest EMPTY slot. -/
theorem takeSlots_one (current : s.copies.ranges[r].current = some m) (off : rekeyOn r s.copies = false) :
    takeSlots r s = match emptySlots s with
      | k :: _ => some (k, none, setSlot k (.live r m.media 0) s)
      | [] => none := by
  unfold takeSlots allocOne
  simp only [current, off]
  cases emptySlots s <;> rfl

/-- R19, R20: a LOCKED range under no rekey that finds a slot is OPEN. -/
theorem openRange_one {key : Key} {a : Access} {k : Fin 18} {l : List (Fin 18)} (locked : s.ranges[r].run = .locked)
    (current : s.copies.ranges[r].current = some m) (off : rekeyOn r s.copies = false) (empties : emptySlots s = k :: l) :
    openRange r key a s = (.opened, setMark r false (setRun r (.opened ⟨levelOf a, key, k, none⟩)
      (setSlot k (.live r m.media 0) s))) := by
  have taken := takeSlots_one current off
  rw [empties] at taken
  have still : resumeRekey r (setMark r false (setRun r (.opened ⟨levelOf a, key, k, none⟩)
      (setSlot k (.live r m.media 0) s))) = setMark r false (setRun r (.opened ⟨levelOf a, key, k, none⟩)
      (setSlot k (.live r m.media 0) s)) := by
    have same : (setMark r false (setRun r (.opened ⟨levelOf a, key, k, none⟩)
      (setSlot k (.live r m.media 0) s))).copies.rekey = s.copies.rekey := rfl
    unfold resumeRekey
    rw [same]
    cases hk : s.copies.rekey with
    | none => rfl
    | some x =>
      refine if_neg fun e => ?_
      unfold rekeyOn at off
      simp [hk, e] at off
  unfold openRange
  simp only [locked, current, taken, still, Option.isNone_some, Bool.false_eq_true, if_false]

/-- R19, R20: without a slot it stays as it is. -/
theorem openRange_full {key : Key} {a : Access} (locked : s.ranges[r].run = .locked)
    (current : s.copies.ranges[r].current = some m) (off : rekeyOn r s.copies = false) (empties : emptySlots s = []) :
    openRange r key a s = (.noSlot, s) := by
  have taken := takeSlots_one current off
  rw [empties] at taken
  unfold openRange
  simp only [locked, current, taken, Option.isNone_some, Bool.false_eq_true, if_false]

end Open

/-- R15: an entry that fits is not purged. -/
theorem purgeStale_of_fresh {who : Holder} {r : Fin 16} {e : WrapEntry} {s : State}
    (h : freshEntry who r s.copies = some e) : purgeStale who r s = s := by
  unfold freshEntry at h
  unfold purgeStale
  split at h
  · split at h
    · split at h
      · cases h
      · rename_i k _ x hx fresh
        simp only [if_neg fresh]
    · cases h
  · cases h

/-! ## Auto-open -/

/-- R81: a LOCKED range, under no rekey, that auto-open can open with the entry `e` and the sealed key `m`. -/
structure Auto (r : Fin 16) (e : WrapEntry) (m : SealedKey) (s : State) : Prop where
  defined : rangeDefined s.copies r = true
  auto : s.copies.ranges[r].attributes.autoOpen = true
  locked : s.ranges[r].run = .locked
  fresh : freshEntry .device r s.copies = some e
  under : e.wrapped.under = .device s.deviceKey
  current : s.copies.ranges[r].current = some m
  off : rekeyOn r s.copies = false

section Auto

variable {r : Fin 16} {e : WrapEntry} {m : SealedKey} {s t : State}

theorem Auto.fits (h : Auto r e m s) : autoOpenFits r s = true := by
  unfold autoOpenFits
  simp only [h.defined, h.locked, h.auto, h.fresh, decide_true, Option.isSome_some, Bool.and_self]

theorem Auto.of (h : Auto r e m s) (records : t.copies.ranges = s.copies.ranges) (wraps : t.copies.wraps = s.copies.wraps)
    (rekey : t.copies.rekey = s.copies.rekey) (run : t.ranges[r].run = s.ranges[r].run) (key : t.deviceKey = s.deviceKey) :
    Auto r e m t := by
  obtain ⟨h1, h2, h3, h4, h5, h6, h7⟩ := h
  unfold rangeDefined at h1
  unfold freshEntry findWrap isStale at h4
  unfold rekeyOn at h7
  exact ⟨by unfold rangeDefined; rw [records]; exact h1, by rw [records]; exact h2, run.trans h3,
    by unfold freshEntry findWrap isStale; rw [records, wraps]; exact h4, by rw [key]; exact h5,
    by rw [records]; exact h6, by unfold rekeyOn; rw [rekey]; exact h7⟩

/-- What an auto-open makes of its range, from `before` where no slot is EMPTY. -/
structure AutoOpened (r : Fin 16) (e : WrapEntry) (m : SealedKey) (before : RangeRt) (s t : State) : Prop where
  some : ∀ k l, emptySlots s = k :: l →
    t.ranges = s.ranges.set r ⟨.opened ⟨levelOf e.access, e.wrapped.key, k, none⟩, false⟩
    ∧ t.slots = s.slots.set k (.live r m.media 0)
  none : emptySlots s = [] → t.ranges = s.ranges.set r before ∧ t.slots = s.slots
    ∧ t.cmd.secQueue = joinQueue 32 ⟨.autoOpenFailed r, false, s.cmd.seq⟩ s.cmd.secQueue

/-- R84: with the watch calm such a range is opened, or the part says that it was not. -/
theorem autoOpen_eq (h : Auto r e m s) (calm_ : calm s.copies.watch.state = true) :
    (∀ u, openRange r e.wrapped.key e.access s = (.noSlot, u) → autoOpen r s = noticeSec (.autoOpenFailed r) u)
      ∧ ∀ u, openRange r e.wrapped.key e.access s = (.opened, u) → autoOpen r s = u := by
  refine ⟨fun u hu => ?_, fun u hu => ?_⟩
  all_goals
    unfold autoOpen
    simp only [purgeStale_of_fresh h.fresh, calm_, h.fits, h.fresh, Bool.and_self, if_true, unwrap, deviceWrap, h.under, hu]

theorem setMark_setRun_ranges (r : Fin 16) (b : Bool) (run : RangeRun) (s : State) :
    (setMark r b (setRun r run s)).ranges = s.ranges.set r ⟨run, b⟩ := by
  change (s.ranges.set r { s.ranges[r] with run := run }).set r
    { (s.ranges.set r { s.ranges[r] with run := run })[r] with sleepMark := b } = _
  simp

theorem autoOpen_opened (h : Auto r e m s) (calm_ : calm s.copies.watch.state = true) :
    AutoOpened r e m s.ranges[r] s (autoOpen r s) ∧ Frame [.ranges, .slots, .secQueue, .marks] s (autoOpen r s) := by
  obtain ⟨fails, opens⟩ := autoOpen_eq h calm_
  cases empties : emptySlots s with
  | nil =>
    rw [fails _ (openRange_full h.locked h.current h.off empties)]
    refine ⟨⟨fun k l x => (nomatch empties.symm.trans x), fun _ => ⟨?_, rfl, rfl⟩⟩, (frame_noticeSec _ s).within⟩
    exact (Vector.set_getElem_self _).symm
  | cons k l =>
    rw [opens _ (openRange_one h.locked h.current h.off empties)]
    refine ⟨⟨fun k' l' x => ?_, fun x => (nomatch empties.symm.trans x)⟩, ?_⟩
    · cases empties.symm.trans x
      exact ⟨setMark_setRun_ranges r false _ _, rfl⟩
    · exact (frame_setMark _ _ _).after (N := [.ranges, .slots, .secQueue, .marks])
        ((frame_setRun _ _ _).after (N := [.ranges, .slots]) (frame_setSlot _ _ s))

/-- The part of the state that an auto-open starts from need not be the whole state. -/
theorem AutoOpened.of {u : State} {before after : RangeRt} (h : AutoOpened r e m after t u)
    (ranges : ∀ x, t.ranges.set r x = s.ranges.set r x) (slots : t.slots = s.slots) (queue : t.cmd.secQueue = s.cmd.secQueue)
    (seq : t.cmd.seq = s.cmd.seq) (same : after = before) : AutoOpened r e m before s u := by
  obtain ⟨h1, h2⟩ := h
  subst same
  rw [emptySlots_congr slots, slots] at h1 h2
  simp only [ranges, queue, seq] at h1 h2
  exact ⟨h1, h2⟩

theorem AutoOpened.left {u : State} {before : RangeRt} (h : AutoOpened r e m before s t) (ranges : u.ranges = t.ranges)
    (slots : u.slots = t.slots) (queue : u.cmd.secQueue = t.cmd.secQueue) : AutoOpened r e m before s u :=
  ⟨by rw [ranges, slots]; exact h.some, by rw [ranges, slots, queue]; exact h.none⟩

/-- R81, R83: a range that WAKE or the start of the part finds opens where its binding lets it. -/
theorem autoOpenOrPend_eq (h : Auto r e m s) (bound : Binding → Bool) : autoOpenOrPend bound r s
    = if (s.copies.ranges[r].attributes.bindingRequired && !bound s.watch.binding) = true then
        setPending (withPending r s.cred.pendingSet) s
      else autoOpen r s := by
  unfold autoOpenOrPend
  simp only [purgeStale_of_fresh h.fresh, h.fits, if_true]

/-! ## A pass that finds one range -/

/-- A pass whose steps change nothing but at `r`. -/
theorem foldl_alone {α : Type} {f : State → α → State} {r : α} {l : List α} (mem : r ∈ l) (once : l.Nodup)
    (still : ∀ q ∈ l, q ≠ r → f s q = s) (after : ∀ q ∈ l, q ≠ r → f (f s r) q = f s r) : l.foldl f s = f s r := by
  have idle : ∀ (l : List α) (s : State), (∀ q ∈ l, f s q = s) → l.foldl f s = s := by
    intro l s h
    induction l with
    | nil => rfl
    | cons q l ih =>
      rw [List.foldl_cons, h q List.mem_cons_self]
      exact ih fun q hq => h q (List.mem_cons_of_mem _ hq)
  induction l with
  | nil => cases mem
  | cons a l ih =>
    obtain ⟨fresh, once⟩ := List.nodup_cons.mp once
    rw [List.foldl_cons]
    by_cases ha : a = r
    · subst ha
      exact idle l _ fun q hq => after q (List.mem_cons_of_mem _ hq) fun x => fresh (x ▸ hq)
    · rw [still a List.mem_cons_self ha]
      exact ih ((List.mem_cons.mp mem).resolve_left fun x => ha x.symm) once
        (fun q hq => still q (List.mem_cons_of_mem _ hq)) fun q hq => after q (List.mem_cons_of_mem _ hq)

theorem filter_alone (r : Fin 16) : (List.finRange 16).filter (fun q => [r].contains q) = [r] := by
  revert r
  decide

/-- R82: a pending set of one range, applied. -/
theorem applyPending_one (pending : s.cred.pendingSet = [r]) : applyPending s
    = if calm s.copies.watch.state = true then autoOpen r (setPending [] s) else setPending [] s := by
  have left : leavePending r s = setPending [] s := by
    unfold leavePending
    rw [pending]
    simp
  unfold applyPending
  rw [pending, filter_alone, List.foldl_cons, List.foldl_nil, left]

/-! ## WAKE -/

/-- R136: what WAKE makes of a marked range that auto-open can open. -/
structure Woken (r : Fin 16) (e : WrapEntry) (m : SealedKey) (s t : State) : Prop where
  alone : ∃ x, t.ranges = s.ranges.set r x
  frame : Frame [.ranges, .slots, .secQueue, .marks, .pendingSet] s t
  uneasy : calm s.copies.watch.state = false → t.ranges = s.ranges.set r ⟨.locked, false⟩ ∧ t.slots = s.slots ∧ t.cred = s.cred
  opens : calm s.copies.watch.state = true →
    s.copies.ranges[r].attributes.bindingRequired = false ∨ bindingLets s.watch.binding = true →
    AutoOpened r e m ⟨.locked, false⟩ s t ∧ t.cred = s.cred
  pends : calm s.copies.watch.state = true → s.copies.ranges[r].attributes.bindingRequired = true →
    bindingLets s.watch.binding = false → t.ranges = s.ranges.set r ⟨.locked, false⟩ ∧ t.slots = s.slots
    ∧ t.cred = { s.cred with pendingSet := withPending r s.cred.pendingSet }

theorem wakeRange_woken (h : Auto r e m s) (mark : s.ranges[r].sleepMark = true) : Woken r e m s (wakeRange r s) := by
  have cleared : (setMark r false s).ranges = s.ranges.set r ⟨.locked, false⟩ := by
    change s.ranges.set r { s.ranges[r] with sleepMark := false } = _
    rw [← h.locked]
  have run : (setMark r false s).ranges[r] = ⟨.locked, false⟩ := by rw [ranges_set_get cleared, if_pos rfl]
  have auto : Auto r e m (setMark r false s) := h.of rfl rfl rfl (by rw [run, h.locked]) rfl
  have f := frame_setMark r false s
  unfold wakeRange
  rw [if_pos mark]
  generalize setMark r false s = u at cleared run auto f ⊢
  have again : ∀ x, u.ranges.set r x = s.ranges.set r x := fun x => by
    rw [cleared]
    simp
  have eased : calm u.copies.watch.state = calm s.copies.watch.state := by rw [f.copies]
  dsimp only
  rw [autoOpenOrPend_eq auto, eased, f.copies, f.binding]
  by_cases calm_ : calm s.copies.watch.state = true
  · rw [if_pos calm_]
    by_cases held : (s.copies.ranges[r].attributes.bindingRequired && !bindingLets s.watch.binding) = true
    · rw [if_pos held]
      obtain ⟨required, lets⟩ := Bool.and_eq_true_iff.mp held
      have lets : bindingLets s.watch.binding = false := by simpa using lets
      refine ⟨⟨_, cleared⟩, (frame_setPending _ u).after f, fun x => absurd calm_ (by rw [x]; decide),
        fun _ x => ?_, fun _ _ _ => ⟨cleared, f.slots, ?_⟩⟩
      · rw [required, lets] at x
        simp at x
      · change { u.cred with pendingSet := withPending r u.cred.pendingSet } = _
        rw [f.cred]
    · rw [if_neg held]
      obtain ⟨opened, g⟩ := autoOpen_opened auto (eased.trans calm_)
      have left := opened.of again f.slots f.secQueue f.seq run
      refine ⟨?_, g.after f, fun x => absurd calm_ (by rw [x]; decide), fun _ _ => ⟨left, g.cred.trans f.cred⟩,
        fun _ x y => ?_⟩
      · cases empties : emptySlots s with
        | nil => exact ⟨_, (left.none empties).1⟩
        | cons k l => exact ⟨_, (left.some k l empties).1⟩
      · rw [x, y] at held
        exact absurd rfl held
  · rw [if_neg calm_]
    exact ⟨⟨_, cleared⟩, f.within, fun _ => ⟨cleared, f.slots, f.cred⟩, fun x => absurd x calm_, fun x => absurd x calm_⟩

theorem wakeRange_unmarked {q : Fin 16} (mark : s.ranges[q].sleepMark = false) : wakeRange q s = s := by
  unfold wakeRange
  rw [mark]
  rfl

/-- R136: with one range marked WAKE passes no other. -/
theorem wakeAll_woken (h : Auto r e m s) (marks : ∀ q : Fin 16, s.ranges[q].sleepMark = decide (q = r)) :
    Woken r e m s ((List.finRange 16).foldl (fun s r => wakeRange r s) s) := by
  have woken := wakeRange_woken h ((marks r).trans (decide_eq_true rfl))
  obtain ⟨x, alone⟩ := woken.alone
  have fold := foldl_alone (f := fun s r => wakeRange r s) (List.mem_finRange r) (List.nodup_finRange 16)
    (fun q _ n => wakeRange_unmarked ((marks q).trans (decide_eq_false n)))
    fun q _ n => wakeRange_unmarked (by
      rw [ranges_set_get alone, if_neg n]
      exact (marks q).trans (decide_eq_false n))
  rw [fold]
  exact woken

end Auto

/-! ## Messages -/

/-- R177: the message is taken. -/
def messageTaken (kind : Byte) (s : State) : State :=
  { setBuffer none s with cmd := { s.cmd with plat := some ⟨kind, false, .taken, [], false⟩ } }

theorem exec_message {m : Instr} {kind : Byte} {f : State → State} {s : State} (h : MessageTaken s)
    (code : messageCode m = some kind) :
    event (writeTransaction m false f) s = .next (clearTouched (f (messageTaken kind s))) := by
  obtain ⟨up, idle, hb⟩ := h
  refine (event_of_between hb).trans (congrArg (fun u => Host.Outcome.next (clearTouched u)) ?_)
  unfold writeTransaction
  simp only [up, idle, code, Option.isSome_none, Bool.false_eq_true, if_false, Option.getD_some, Bool.true_eq_false]
  rfl

/-- R177: an answer that waits for no write is placed at once. -/
theorem platFinish_atOnce {c : Code} {s : State} {j : PlatJob} (hj : s.cmd.plat = some j) (hd : j.dropped = false)
    (hb : Between s) : platFinish c s.store.touched s = answered j.kind c .empty { s with cmd := { s.cmd with plat := none } } := by
  have started : eraseStartedHere s = false := by
    unfold eraseStartedHere
    rw [hb]
    cases s.erase.starting <;> rfl
  have none_ : s.store.touched = [] := hb
  rw [none_]
  unfold platFinish platAnswerDue
  simp only [modPlat, hj, Option.map_some, started, and_self, if_true]
  unfold platReply
  simp only [hd]
  rfl

section Pending

variable {r : Fin 16} {e : WrapEntry} {m : SealedKey} {s : State}

/-- R136: the host is AWAKE again, and supervision with it. -/
def awakened (s : State) : State :=
  if s.watch.supervision = .suspended then arm { s with watch := { s.watch with sleep := .awake } }
  else { s with watch := { s.watch with sleep := .awake } }

theorem wakeMessage_asleep (h : s.watch.sleep = .asleep) : wakeMessage s
    = platFinish .ok ((List.finRange 16).foldl (fun s r => wakeRange r s) (awakened s)).store.touched
      ((List.finRange 16).foldl (fun s r => wakeRange r s) (awakened s)) := by
  unfold wakeMessage awakened
  rw [if_neg (by rw [h]; decide)]

theorem frame_awakened (s : State) : Frame [.sensors] s (awakened s) := by
  unfold awakened
  split <;> exact ⟨rfl, rfl, le_rfl⟩

theorem awakened_watch (s : State) :
    (awakened s).watch.sleep = .awake ∧ (awakened s).watch.binding = s.watch.binding := by
  unfold awakened
  split <;> exact ⟨rfl, rfl⟩

theorem frame_messageTaken (kind : Byte) (s : State) : Frame [.plat, .buffer] s (messageTaken kind s) := ⟨rfl, rfl, le_rfl⟩

/-- R136: WAKE, with the message answered at once. -/
theorem exec_wake (h : Auto r e m s) (taken : MessageTaken s) (asleep : s.watch.sleep = .asleep)
    (marks : ∀ q : Fin 16, s.ranges[q].sleepMark = decide (q = r)) : ∃ a u, Frame [.sensors, .plat, .buffer] s a
      ∧ a.watch.sleep = .awake ∧ a.watch.binding = s.watch.binding ∧ Woken r e m a u ∧ Between u
      ∧ exec .wake s = .next (answered 0x04 .ok .empty { u with cmd := { u.cmd with plat := none } }) := by
  have plat : (messageTaken 0x04 s).cmd.plat = some ⟨0x04, false, .taken, [], false⟩ := rfl
  have f := frame_messageTaken 0x04 s
  have run := exec_message (f := wakeMessage) taken (show messageCode .wake = some 0x04 from rfl)
  generalize messageTaken 0x04 s = b at plat f run
  rw [wakeMessage_asleep ((congrArg TheftWatch.sleep f.watch).trans asleep)] at run
  have woke := frame_awakened b
  obtain ⟨awake, binding⟩ := awakened_watch b
  generalize awakened b = a at woke awake binding run
  have g : Frame [.sensors, .plat, .buffer] s a := woke.after f
  have auto : Auto r e m a := h.of g.cRanges g.cWraps (by rw [g.copies]) (by rw [g.ranges]) g.deviceKey
  have woken := wakeAll_woken auto (by rw [g.ranges]; exact marks)
  generalize (List.finRange 16).foldl (fun s r => wakeRange r s) a = u at run woken
  have between : Between u := (congrArg Store.touched (woken.frame.store.trans g.store)).trans taken.2.2
  have answers := platFinish_atOnce (c := .ok) (woken.frame.plat.trans (woke.plat.trans plat)) rfl between
  refine ⟨a, u, g, awake, binding.trans f.binding, woken, between, run.trans ?_⟩
  rw [answers]
  exact congrArg Host.Outcome.next (clearTouched_of_between between)

/-- R82, R85: the set of one range applied, for a range that auto-open can open. -/
theorem applyPending_auto (h : Auto r e m s) (pending : s.cred.pendingSet = [r]) :
    Frame [.ranges, .slots, .secQueue, .marks, .pendingSet] s (applyPending s)
      ∧ (applyPending s).cred = { s.cred with pendingSet := [] }
      ∧ (calm s.copies.watch.state = true → AutoOpened r e m s.ranges[r] s (applyPending s))
      ∧ (calm s.copies.watch.state = false → (applyPending s).ranges = s.ranges ∧ (applyPending s).slots = s.slots) := by
  have emptied : (setPending [] s).cred = { s.cred with pendingSet := [] } := rfl
  have auto : Auto r e m (setPending [] s) := h.of rfl rfl rfl rfl rfl
  have f := frame_setPending [] s
  rw [applyPending_one pending]
  generalize setPending [] s = a at emptied auto f ⊢
  by_cases on : calm s.copies.watch.state = true
  · rw [if_pos on]
    obtain ⟨opened, g⟩ := autoOpen_opened auto (by rw [f.copies]; exact on)
    exact ⟨g.after f, g.cred.trans emptied,
      fun _ => opened.of (fun x => by rw [f.ranges]) f.slots f.secQueue f.seq (by rw [f.ranges]),
      fun off => absurd on (by rw [off]; decide)⟩
  · rw [if_neg on]
    exact ⟨f.within, emptied, fun x => absurd x on, fun _ => ⟨f.ranges, f.slots⟩⟩

theorem bindMessage_matches {w : BindingWord} (digest : s.copies.digest = some ⟨w⟩) : bindMessage w s
    = platReply .ok .empty (if s.watch.binding = .matched then
        setBinding .matched { s with watch := { s.watch with lastWord := some w } }
      else applyPending (setBinding .matched { s with watch := { s.watch with lastWord := some w } })) := by
  unfold bindMessage digestMatches
  simp only [digest, Option.isNone_some, Bool.false_eq_true, if_false, decide_true, if_true]

/-- R128: a BIND with the word of the digest. -/
theorem exec_bind_matches {w : BindingWord} (taken : MessageTaken s) (digest : s.copies.digest = some ⟨w⟩) :
    ∃ a u, Frame [.sensors, .plat, .buffer] s a ∧ a.watch = { s.watch with binding := .matched, lastWord := some w }
      ∧ u = (if s.watch.binding = .matched then a else applyPending a)
      ∧ exec (.bind w) s = .next (clearTouched (answered 0x01 .ok .empty { u with cmd := { u.cmd with plat := none } })) := by
  have plat : (messageTaken 0x01 s).cmd.plat = some ⟨0x01, false, .taken, [], false⟩ := rfl
  have f := frame_messageTaken 0x01 s
  have run := exec_message (f := bindMessage w) taken (show messageCode (.bind w) = some 0x01 from rfl)
  generalize messageTaken 0x01 s = b at plat f run
  rw [bindMessage_matches ((congrArg Records.digest f.copies).trans digest), f.binding] at run
  have g : Frame [.sensors] b (setBinding .matched { b with watch := { b.watch with lastWord := some w } }) :=
    ⟨rfl, rfl, le_rfl⟩
  have watch : (setBinding .matched { b with watch := { b.watch with lastWord := some w } }).watch
      = { s.watch with binding := .matched, lastWord := some w } := by
    rw [← f.watch]
    rfl
  generalize setBinding .matched { b with watch := { b.watch with lastWord := some w } } = a at run g watch
  refine ⟨a, _, g.after f, watch, rfl, run.trans ?_⟩
  have still : (if s.watch.binding = .matched then a else applyPending a).cmd.plat = a.cmd.plat := by
    split
    · rfl
    · exact (frame_applyPending a).plat
  generalize (if s.watch.binding = .matched then a else applyPending a) = u at still ⊢
  exact congrArg (fun u => Host.Outcome.next (clearTouched u)) (platReply_answered (still.trans (g.plat.trans plat)) rfl)

theorem mem_withPending {q : Fin 16} {l : List (Fin 16)} : q ∈ withPending r l ↔ q = r ∨ q ∈ l := by
  unfold withPending
  simp

end Pending

/-- Settles O52: WAKE passes the one marked range; BIND and UNBIND apply a set of one. -/
theorem autoOpenAndPending : Obligations.AutoOpenAndPending := by
  intro r e m s defined auto locked fresh under current off bound closed opens
  have h : Auto r e m s := ⟨defined, auto, locked, fresh, under, current, off⟩
  have opens_of : ∀ {before t}, AutoOpened r e m before s t → opens before t := fun x => ⟨x.some, x.none⟩
  refine ⟨fun taken asleep marks => ?_, fun pending => ⟨fun w taken digest => ?_, fun id cb secret c key hs rest digest => ?_⟩⟩
  · obtain ⟨a, u, f, awake, binding, woken, between, ht⟩ := exec_wake h taken asleep marks
    have g := woken.frame
    have uneasy : calm a.copies.watch.state = calm s.copies.watch.state := by rw [f.copies]
    have record : a.copies.ranges[r] = s.copies.ranges[r] := by rw [f.copies]
    have same : ∀ x, a.ranges.set r x = s.ranges.set r x := fun x => by rw [f.ranges]
    refine ⟨_, ht, g.watch.symm ▸ awake, rfl, rfl, g.copies.trans f.copies, g.store.trans f.store, fun off => ?_, fun on =>
      ⟨fun lets => ?_, fun required out1 out2 => ?_⟩⟩
    · obtain ⟨h1, h2, h3⟩ := woken.uneasy (uneasy.trans off)
      exact ⟨h1.trans (same _), h2.trans f.slots, h3.trans f.cred⟩
    · obtain ⟨opened, cred⟩ := woken.opens (uneasy.trans on) (by
        rw [record, binding]
        exact lets.imp_right fun x => x.elim (fun y => by rw [y]; rfl) fun y => by rw [y]; rfl)
      exact ⟨opens_of ((opened.of same f.slots f.secQueue f.seq rfl).left rfl rfl rfl), cred.trans f.cred⟩
    · obtain ⟨h1, h2, h3⟩ := woken.pends (uneasy.trans on) (by rw [record]; exact required) (by
        rw [binding]
        cases hb : s.watch.binding with
        | matched => exact absurd hb out1
        | unbound => exact absurd hb out2
        | unknown | mismatched | absent => rfl)
      refine ⟨h1.trans (same _), h2.trans f.slots, (congrArg CredUnit.holdoff h3).trans f.holdoff, fun q => ?_⟩
      have : (answered 0x04 .ok .empty { u with cmd := { u.cmd with plat := none } }).cred.pendingSet
          = withPending r s.cred.pendingSet := (congrArg CredUnit.pendingSet h3).trans (by rw [f.cred])
      rw [this, mem_withPending]
  · obtain ⟨a, u, f, watch, hu, ht⟩ := exec_bind_matches taken digest
    refine ⟨_, ht, ?_⟩
    by_cases was : s.watch.binding = .matched
    · rw [if_pos was] at hu
      subst hu
      exact ⟨watch, f.copies, rfl, fun _ => ⟨f.cred, f.ranges, f.slots⟩, fun x => absurd was x⟩
    · rw [if_neg was] at hu
      obtain ⟨g, cred, opened, stays⟩ := applyPending_auto (h.of f.cRanges f.cWraps f.cRekey (by rw [f.ranges]) f.deviceKey)
        (f.pendingSet.trans pending)
      rw [← hu] at g cred opened stays
      have calm_ : calm a.copies.watch.state = calm s.copies.watch.state := by rw [f.copies]
      refine ⟨g.watch.trans watch, g.copies.trans f.copies, rfl, fun x => absurd x was, fun _ => ⟨cred.trans ?_, fun on => ?_,
        fun off => ?_⟩⟩
      · rw [f.cred]
      · exact opens_of (((opened (calm_.trans on)).of (fun x => by rw [f.ranges]) f.slots f.secQueue f.seq
          (by rw [f.ranges])).left rfl rfl rfl)
      · obtain ⟨ranges, slots⟩ := stays (calm_.trans off)
        exact ⟨ranges.trans f.ranges, slots.trans f.slots⟩
  · have way : UnderWay (.unbind id cb secret) (setBinding .unbound (put (.digest none) (atVerdict c key s))) :=
      underWay_keeps (s := put (.digest none) (atVerdict c key s)) (Frame.within (L := [.sensors]) ⟨rfl, rfl, le_rfl⟩)
        (underWay_put _ _ (underWay_atVerdict hs))
    have begins : Auto r e m (setBinding .unbound (put (.digest none) (atVerdict c key s)))
        ∧ (setBinding .unbound (put (.digest none) (atVerdict c key s))).watch = { s.watch with binding := .unbound }
        ∧ (setBinding .unbound (put (.digest none) (atVerdict c key s))).copies.watch = s.copies.watch :=
      ⟨h.of rfl rfl rfl rfl rfl, rfl, rfl⟩
    have left : (setBinding .unbound (put (.digest none) (atVerdict c key s))).ranges = s.ranges
        ∧ (setBinding .unbound (put (.digest none) (atVerdict c key s))).slots = s.slots
        ∧ (setBinding .unbound (put (.digest none) (atVerdict c key s))).cmd.secQueue = s.cmd.secQueue
        ∧ (setBinding .unbound (put (.digest none) (atVerdict c key s))).cmd.seq = s.cmd.seq
        ∧ (setBinding .unbound (put (.digest none) (atVerdict c key s))).cred.pendingSet = s.cred.pendingSet :=
      ⟨rfl, rfl, rfl, rfl, rfl⟩
    have effect : requestEffect (.unbind id cb secret) c key (atVerdict c key s)
        = secFinish .ok .empty (applyPending (setBinding .unbound (put (.digest none) (atVerdict c key s)))) := by
      change unbindEffect (atVerdict c key s) = _
      unfold unbindEffect
      refine if_neg ?_
      change ¬ s.copies.digest.isNone = true
      rw [Option.isNone_eq_false_iff.mpr digest]
      decide
    generalize setBinding .unbound (put (.digest none) (atVerdict c key s)) = a at way begins left effect
    obtain ⟨auto, watch, calm_⟩ := begins
    obtain ⟨ranges, slots, queue, seq, set_⟩ := left
    obtain ⟨g, cred, opened, -⟩ := applyPending_auto auto (set_.trans pending)
    refine next_answering hs rest rfl effect (underWay_keeps.of way g) fun t f _ => ⟨f.watch.trans (g.watch.trans watch), ?_, ?_⟩
    · rw [f.pendingSet]
      exact congrArg CredUnit.pendingSet cred
    · have eased : calm a.copies.watch.state = true := by
        rw [calm_, rest.1]
        rfl
      exact opens_of (((opened eased).of (fun x => by rw [ranges]) slots queue seq
        (by rw [ranges])).left f.ranges f.slots f.secQueue)

end Sys2Proof.Machine
end


-- ==== Sys2Proof/Proofs/EvidenceTakings.lean ====
section
/-! PROOF. What evidence leaves of the watch, the incidents and the ranges when it is taken in SETTLED (R143, R144, R147,
R148, R153), while a request is at its verdict. -/

-- As in the tests: each theorem that waits for the kernel in parallel would keep a thread.
set_option Elab.async false

namespace Sys2Proof.Machine

/-! ## Immediate closes leave ranges as they are or LOCKED -/

/-- The runtime state of range `q` satisfies `p`. -/
def RunIs (p : RangeRun → Prop) (q : Fin 16) (s : State) : Prop := p s.ranges[q].run

section RunIs

variable {p : RangeRun → Prop}

theorem runIs_keeps (p : RangeRun → Prop) (q : Fin 16) : Keeps (RunIs p q) (allFields.filter (· ≠ .ranges)) := by
  intro s t f h
  rwa [RunIs, f.ranges]

theorem runIs_closeFinish (locked : p .locked) (q r : Fin 16) (s : State) (h : RunIs p q s) : RunIs p q (closeFinish r s) := by
  cases e : heldBy s.ranges[r].run with
  | none => rwa [closeFinish_none e]
  | some g =>
    rw [RunIs, ranges_set_get (closeFinish_ranges e)]
    split
    · exact locked
    · exact h

theorem runIs_closeIfDrained (locked : p .locked) (q r : Fin 16) (s : State) (h : RunIs p q s) :
    RunIs p q (closeIfDrained r s) := by
  rw [closeIfDrained_eq]
  split
  · exact runIs_closeFinish locked q r s h
  · exact h

theorem runIs_leaveAdmitted (locked : p .locked) (q : Fin 16) (x : Xfer) (s : State) (h : RunIs p q s) :
    RunIs p q (leaveAdmitted x s) := by
  have pins := Frame.foldl (f := fun s k => unpinSlot k s) (fun s k => frame_setSlot k _ s) (slotsNamed x.segs) s
  have closes := keeps_foldl (f := fun s r => closeIfDrained r s) (fun s r => runIs_closeIfDrained locked q r s)
    (rangesNamed x.segs) _ ((runIs_keeps p q).of h pins)
  unfold leaveAdmitted
  dsimp only
  split
  · exact (runIs_keeps p q).of closes (frame_sendMigrateOrder _)
  · exact closes

theorem runIs_abortWhere (locked : p .locked) (q : Fin 16) (o : Entry → Bool) (s : State) (h : RunIs p q s) :
    RunIs p q (abortWhere o s) := by
  refine keeps_foldl (fun s t h => ?_) _ s h
  split
  · unfold abortTag
    split
    · exact runIs_leaveAdmitted locked q _ _ ((runIs_keeps p q).of h (frame_setEntry t _ s))
    · exact h
  · exact h

theorem runIs_immediateClose (locked : p .locked) (q r : Fin 16) (s : State) (h : RunIs p q s) :
    RunIs p q (immediateClose r s) := by
  have aborted := runIs_abortWhere locked q (admittedIn r) s h
  unfold immediateClose
  split
  · exact h
  · refine runIs_closeFinish locked q r _ ?_
    split
    · exact (runIs_keeps p q).of aborted (frame_refuseHeldWhere _ _ _ _)
    · exact aborted

/-- R148: an immediate close of every range leaves each as it was, or LOCKED. -/
theorem runIs_closeAllAtOnce (locked : p .locked) (q : Fin 16) (s : State) (h : RunIs p q s) :
    RunIs p q (closeAllAtOnce s) :=
  keeps_foldl (f := fun s r => immediateClose r s) (fun s r => runIs_immediateClose locked q r s) _ _
    ((runIs_keeps p q).of h (frame_withdrawWindow s))

theorem locked_closeAllAtOnce {q : Fin 16} {s : State} (h : s.ranges[q].run ≠ .erased) :
    (closeAllAtOnce s).ranges[q].run = .locked :=
  ((heldBy_eq_none _).mp (unheld_closeAllAtOnce q s)).resolve_right
    (runIs_closeAllAtOnce (p := (· ≠ .erased)) nofun q s h)

end RunIs

/-! ## A change of watch state -/

theorem enterWatch_records (w : WatchRec) (s : State) : (enterWatch w s).copies.watch = w
    ∧ (enterWatch w s).copies.incidents
      = joinIncident ⟨.stateChange w.state, s.copies.boot, s.uptime, w.score⟩ s.copies.incidents := by
  have f := frame_entryEffects s.copies.watch.state w.state (addIncident (.stateChange w.state) (putWatch w s))
  have g := frame_noticeBoth (.watchState w.state)
    (entryEffects s.copies.watch.state w.state (addIncident (.stateChange w.state) (putWatch w s)))
  unfold enterWatch
  exact ⟨g.cWatch.trans f.cWatch, g.cIncidents.trans f.cIncidents⟩

/-- R147, R148: an alarm leaves no range open; any other change leaves them all. -/
theorem enterWatch_ranges (w : WatchRec) (s : State) :
    (w.state ≠ .alarmed → (enterWatch w s).ranges = s.ranges ∧ (enterWatch w s).slots = s.slots)
      ∧ (w.state = .alarmed → ∀ q : Fin 16, s.ranges[q].run ≠ .erased → (enterWatch w s).ranges[q].run = .locked) := by
  have f := (frame_addIncident (.stateChange w.state) _).after (N := [.cWatch, .cIncidents, .requests])
    (frame_put (.watch w) s .cWatch)
  have g := frame_noticeBoth (.watchState w.state)
    (entryEffects s.copies.watch.state w.state (addIncident (.stateChange w.state) (putWatch w s)))
  unfold enterWatch
  change Frame _ s (addIncident (.stateChange w.state) (putWatch w s)) at f
  generalize addIncident (.stateChange w.state) (putWatch w s) = a at f g
  dsimp only
  rw [g.ranges, g.slots, ← f.ranges, ← f.slots]
  generalize s.copies.watch.state = old
  refine ⟨fun other => ?_, fun alarmed q run => ?_⟩
  · have e : Frame [.decay, .pendingSet] a (entryEffects old w.state a) := by
      unfold entryEffects
      cases hw : w.state with
      | alarmed => exact absurd hw other
      | settled => exact .ite (frame_setDecay _ a).within (.refl _ a)
      | wary => exact .refl _ a
      | erasing => exact (frame_setPending _ a).andThen (frame_setDecay _ _)
      | erased => exact (frame_setDecay _ a).within
    exact ⟨e.ranges, e.slots⟩
  · have e : Frame [.decay, .pendingSet] (closeAllAtOnce a) (entryEffects old w.state a) := by
      rw [alarmed]
      exact (frame_setPending _ _).andThen (frame_setDecay _ _)
    rw [e.ranges]
    exact locked_closeAllAtOnce run

theorem startErase_watch {cause : EraseCause} {s : State} (h : alive s.copies.watch.state = true) :
    (startErase cause s).copies.watch = ⟨.erasing, s.copies.watch.score⟩ := by
  have journal := frame_withTouched (fun s => frame_put (.journal (some ⟨cause, 0, 0, [], none⟩)) s .cJournal) s
  unfold startErase
  rw [if_pos h]
  exact congrArg (fun w : WatchRec => { w with state := .erasing }) journal.cWatch

/-! ## Evidence in SETTLED -/

theorem mem_joinIncident_last (i j : Incident) (l : List Incident) : i ∈ joinIncident j (joinIncident i l) := by
  have last : ∀ m : List Incident, i ∈ joinIncident j (m ++ [i]) := by
    intro m
    unfold joinIncident
    split
    · simp
    · cases m with
      | nil => simp_all
      | cons a m => simp
  have ends : ∃ m, joinIncident i l = m ++ [i] := by
    unfold joinIncident
    split
    · exact ⟨_, rfl⟩
    · exact ⟨_, rfl⟩
  obtain ⟨m, e⟩ := ends
  rw [e]
  exact last m

/-- R143 to R148: what an evaluation in SETTLED leaves. -/
structure Judged (s t : State) : Prop where
  watch : t.copies.watch = ⟨watchAt s.copies.policy .settled s.copies.watch.score, s.copies.watch.score⟩
  incidents : t.copies.incidents = s.copies.incidents ∨ ∃ j, t.copies.incidents = joinIncident j s.copies.incidents
  stays : t.copies.watch.state ≠ .alarmed → t.ranges = s.ranges ∧ t.slots = s.slots
  closes : t.copies.watch.state = .alarmed → ∀ q : Fin 16, s.ranges[q].run ≠ .erased → t.ranges[q].run = .locked

theorem judged_enterWatch {s : State} {w : WatchState}
    (h : watchAt s.copies.policy .settled s.copies.watch.score = w) : Judged s (enterWatch ⟨w, s.copies.watch.score⟩ s) := by
  obtain ⟨watch, incidents⟩ := enterWatch_records ⟨w, s.copies.watch.score⟩ s
  obtain ⟨stays, closes⟩ := enterWatch_ranges ⟨w, s.copies.watch.score⟩ s
  refine ⟨by rw [watch, h], .inr ⟨_, incidents⟩, fun other => stays ?_, fun alarmed => closes ?_⟩
  · rwa [watch] at other
  · rwa [watch] at alarmed

theorem evaluate_judged {s : State} (h : s.copies.watch.state = .settled) (changed : Bool) :
    Judged s (evaluate changed s) := by
  unfold evaluate
  dsimp only
  rw [h]
  split
  · rename_i erases
    have watch := startErase_watch (cause := .score) (s := s) (by rw [h]; rfl)
    have f := frame_startErase .score s
    refine ⟨?_, .inl f.cIncidents, fun _ => ⟨f.ranges, f.slots⟩, fun x => ?_⟩
    · rw [watch]
      unfold watchAt
      rw [if_pos ⟨erases.1, erases.2.1⟩]
    · rw [watch] at x
      cases x
  · rename_i spares
    have spared : ¬(s.copies.policy.eraseByScore = true ∧ s.copies.policy.t3 ≤ s.copies.watch.score) :=
      fun x => spares ⟨x.1, x.2, rfl⟩
    split
    · rename_i alarms
      refine judged_enterWatch ?_
      unfold watchAt
      rw [if_neg spared, if_pos (.inr alarms.1)]
    · rename_i calm_
      have below : ¬(WatchState.settled = .alarmed ∨ s.copies.policy.t2 ≤ s.copies.watch.score) := by
        rintro (x | x)
        · cases x
        · exact calm_ ⟨x, rfl⟩
      split
      · rename_i warns
        refine judged_enterWatch ?_
        unfold watchAt
        rw [if_neg spared, if_neg below, if_pos warns.1]
      · rename_i low
        have level : watchAt s.copies.policy .settled s.copies.watch.score = .settled := by
          unfold watchAt
          rw [if_neg spared, if_neg below, if_neg fun x => low ⟨x, rfl⟩]
        have same : s.copies.watch = ⟨watchAt s.copies.policy .settled s.copies.watch.score, s.copies.watch.score⟩ := by
          rw [level, ← h]
        rw [if_neg (by simp)]
        split
        · have f := frame_put (.watch s.copies.watch) s .cWatch
          refine ⟨same, .inl f.cIncidents, fun _ => ⟨f.ranges, f.slots⟩, fun x => ?_⟩
          change s.copies.watch.state = .alarmed at x
          rw [h] at x
          cases x
        · refine ⟨same, .inl rfl, fun _ => ⟨rfl, rfl⟩, fun x => ?_⟩
          rw [h] at x
          cases x

/-- A frame that names no record but those of the watch, a rekey and an erase. -/
theorem Frame.watchOnly {L : List Field} {s t : State} (f : Frame L s t)
    (hf : ∀ f ∈ ([.cFactory, .cRanges, .cCreds, .cWraps, .cCharged, .cPolicy, .cDigest, .cToken, .cBoot] : List Field),
      f ∉ L := by decide +kernel) : t.copies = { s.copies with
        watch := t.copies.watch, incidents := t.copies.incidents, rekey := t.copies.rekey, journal := t.copies.journal } := by
  have watch := congrArg (fun m => m.copies.watch) f.eq
  have incidents := congrArg (fun m => m.copies.incidents) f.eq
  have rekey := congrArg (fun m => m.copies.rekey) f.eq
  have journal := congrArg (fun m => m.copies.journal) f.eq
  simp only [List.forall_mem_cons] at hf
  simp only [overlay] at watch incidents rekey journal
  conv_lhs => rw [← f.eq]
  simp only [overlay, hf, if_false, watch, incidents, rekey, journal]

/-- R143, R153: evidence taken in SETTLED. -/
theorem takeEvidence_settled {s : State} (h : s.copies.watch.state = .settled) (e : Evidence) :
    EvidenceTaken e s (takeEvidence e s)
      ∧ ((takeEvidence e s).copies.watch.state ≠ .alarmed →
        (takeEvidence e s).ranges = s.ranges ∧ (takeEvidence e s).slots = s.slots)
      ∧ ((takeEvidence e s).copies.watch.state = .alarmed →
        ∀ q : Fin 16, s.ranges[q].run ≠ .erased → (takeEvidence e s).ranges[q].run = .locked) := by
  have only := (frame_takeEvidence e s).watchOnly
  have counted := frame_setScore (scoreAfter s.copies.watch.score s.copies.policy.weights[evidenceIx e]) s
  have score : (setScore (scoreAfter s.copies.watch.score s.copies.policy.weights[evidenceIx e]) s).copies.watch
      = ⟨.settled, scoreAfter s.copies.watch.score s.copies.policy.weights[evidenceIx e]⟩ := by
    rw [← h]
    rfl
  have taken : takeEvidence e s = evaluate
      (decide (scoreAfter s.copies.watch.score s.copies.policy.weights[evidenceIx e] ≠ s.copies.watch.score))
      (addIncident (.evidence e) (setScore (scoreAfter s.copies.watch.score s.copies.policy.weights[evidenceIx e]) s)) := by
    unfold takeEvidence
    rw [if_pos (by rw [h]; rfl)]
  rw [taken] at only ⊢
  generalize hn : scoreAfter s.copies.watch.score s.copies.policy.weights[evidenceIx e] = n at counted score only ⊢
  have joined := addIncident_copies (.evidence e) (setScore n s)
  have f := frame_addIncident (.evidence e) (setScore n s)
  generalize setScore n s = a at counted score joined f only ⊢
  generalize addIncident (.evidence e) a = m at joined f only ⊢
  have at_ : m.copies.watch = ⟨.settled, n⟩ := f.cWatch.trans score
  obtain ⟨watch, incidents, stays, closes⟩ := evaluate_judged (s := m) (by rw [at_]) (decide (n ≠ s.copies.watch.score))
  generalize evaluate (decide (n ≠ s.copies.watch.score)) m = t at watch incidents stays closes only ⊢
  rw [at_, f.cPolicy, counted.cPolicy] at watch
  have ranges : m.ranges = s.ranges := f.ranges.trans counted.ranges
  have slots : m.slots = s.slots := f.slots.trans counted.slots
  rw [ranges] at stays closes
  rw [slots] at stays
  refine ⟨⟨fun _ => ⟨?_, ?_⟩, fun x => ?_, ?_, only⟩, stays, closes⟩
  · rw [watch, ← hn]
    rfl
  · rw [watch, h]
  · rw [h] at x
    cases x
  · refine ⟨_, ?_, rfl⟩
    have placed : m.copies.incidents = joinIncident ⟨.evidence e, s.copies.boot, s.uptime, t.copies.watch.score⟩
        s.copies.incidents := by
      rw [joined, score, watch, counted.cIncidents, counted.cBoot, counted.uptime]
    rcases incidents with same | ⟨j, same⟩
    · rw [same, placed]
      unfold joinIncident
      split <;> simp
    · rw [same, placed]
      exact mem_joinIncident_last _ _ _

/-! ## The request under way -/

section UnderWay

variable {req : Instr}

theorem underWay_enterWatch (w : WatchRec) (s : State) (h : UnderWay req s) : UnderWay req (enterWatch w s) := by
  have recorded : UnderWay req (addIncident (.stateChange w.state) (putWatch w s)) :=
    underWay_put _ _ (underWay_put _ _ h)
  have effects : UnderWay req (entryEffects s.copies.watch.state w.state (addIncident (.stateChange w.state) (putWatch w s))) := by
    unfold entryEffects
    split
    · split
      · exact underWay_keeps.of recorded (frame_setDecay _ _)
      · exact recorded
    · exact recorded
    · exact underWay_keeps.of (underWay_closeAllAtOnce _ recorded) ((frame_setPending _ _).andThen
        (N := [.pendingSet, .decay]) (frame_setDecay _ _))
    · exact underWay_keeps.of recorded ((frame_setPending _ _).andThen (N := [.pendingSet, .decay]) (frame_setDecay _ _))
    · exact underWay_keeps.of recorded (frame_setDecay _ _)
  exact underWay_keeps.of effects (frame_noticeBoth _ _)

theorem underWay_startErase (cause : EraseCause) (s : State) (h : UnderWay req s) : UnderWay req (startErase cause s) := by
  refine h.of_noted (frame_startErase cause s) fun noted => ?_
  unfold startErase
  split
  · exact noted_withTouched (putJournal _) noted
  · exact noted

theorem underWay_evaluate (changed : Bool) (s : State) (h : UnderWay req s) : UnderWay req (evaluate changed s) := by
  unfold evaluate
  dsimp only
  split
  · exact underWay_startErase _ s h
  · split
    · exact underWay_enterWatch _ s h
    · split
      · exact underWay_enterWatch _ s h
      · split
        · exact underWay_enterWatch _ s h
        · split
          · exact underWay_put _ _ h
          · exact h

theorem underWay_takeEvidence (e : Evidence) (s : State) (h : UnderWay req s) : UnderWay req (takeEvidence e s) := by
  unfold takeEvidence
  split
  · exact underWay_evaluate _ _ (underWay_put _ _ (underWay_keeps.of h (frame_setScore _ s)))
  · exact underWay_put _ _ h

end UnderWay

end Sys2Proof.Machine
end


-- ==== Sys2Proof/Proofs/Unlocks.lean ====
section
/-! PROOF. UNLOCK: the results of its pass, the ranges that it opens, and the window of a rekey that its opening resumes
(R19, R78 to R80, R114, R115, R122): O37. -/

-- As in the tests: each theorem that waits for the kernel in parallel would keep a thread.
set_option Elab.async false

namespace Sys2Proof.Machine

/-! ## The window of a rekey -/

/-- R115: the window at the frontier. -/
theorem windowAt_eq (recs : Records) (r : Fin 16) (f : Nat) :
    windowAt recs r f = ⟨f, min 256 (pieceStop recs r f - f)⟩ := rfl

/-- R109, R110: a window is fenced, and its order goes unless an ADMITTED WRITE overlaps it. -/
theorem windowFenced_sent {k : RekeyRec} {s : State} (up : s.drive.up = true) (idle : s.rekey.order = none) :
    WindowChosen k s (sendMigrateOrder { s with rekey := { s.rekey with
      fence := some (windowAt s.copies k.range k.frontier), intended := some (windowAt s.copies k.range k.frontier) } }) := by
  rw [windowAt_eq]
  generalize hw : (⟨k.frontier, min 256 (pieceStop s.copies k.range k.frontier - k.frontier)⟩ : Extent) = w
  unfold WindowChosen
  rw [hw]
  have iff_ : ((List.finRange 32).any fun t => admittedWriteOn w s.adm.table[t]) = true
      ↔ ∃ (g : Fin 32) (x : Xfer), s.adm.table[g] = .admitted x ∧ x.cls = .write ∧ extentsOverlap x.extent w = true := by
    simp only [List.any_eq_true, List.mem_finRange, true_and]
    refine exists_congr fun g => ?_
    unfold admittedWriteOn
    cases he : s.adm.table[g] <;> simp
  unfold sendMigrateOrder
  dsimp only
  by_cases blocked : ((List.finRange 32).any fun t => admittedWriteOn w s.adm.table[t]) = true
  · rw [if_pos blocked]
    refine ⟨rfl, fun _ => ⟨rfl, idle⟩, fun none_ => ?_⟩
    obtain ⟨g, x, hx, write, overlap⟩ := iff_.mp blocked
    rw [none_ g x hx write] at overlap
    cases overlap
  · rw [if_neg blocked]
    unfold takeOrderNumber
    dsimp only
    rw [pushFrame_up (by exact up)]
    exact ⟨rfl, fun some_ => absurd (iff_.mpr some_) blocked, fun _ => ⟨rfl, rfl, List.mem_append_right _ List.mem_cons_self⟩⟩

theorem chooseWindow_due {k : RekeyRec} {s : State} (hk : s.copies.rekey = some k) (due : windowDue s = true) :
    WindowChosen k s (chooseWindow s) := by
  have parts := due
  unfold windowDue at parts
  simp only [hk, Bool.and_eq_true, Option.isNone_iff_eq_none] at parts
  obtain ⟨⟨⟨⟨⟨⟨-, -⟩, up⟩, idle⟩, -⟩, -⟩, -⟩ := parts
  unfold chooseWindow
  rw [if_pos due]
  simp only [hk]
  exact windowFenced_sent up idle

theorem chooseWindow_not_due {s : State} (h : windowDue s = false) : chooseWindow s = s := by
  unfold chooseWindow
  rw [h]
  rfl

/-- The choice of a window looks at the records, the transfers and the counter alone. -/
theorem WindowChosen.of {k : RekeyRec} {s m t : State} (h : WindowChosen k m t) (ranges : m.copies.ranges = s.copies.ranges)
    (factory : m.copies.factory = s.copies.factory) (adm : m.adm = s.adm) (counter : m.rekey.counter = s.rekey.counter) :
    WindowChosen k s t := by
  have stop : pieceStop m.copies k.range k.frontier = pieceStop s.copies k.range k.frontier := by
    unfold pieceStop nextStart definedExtent
    rw [ranges, factory]
  unfold WindowChosen at h ⊢
  rw [stop, adm, counter] at h
  exact h

/-! ## A range that an UNLOCK tries to open -/

section Open

variable {r : Fin 16} {m : SealedKey} {s : State}

theorem takeSlots_full (empties : emptySlots s = []) : takeSlots r s = none := by
  unfold takeSlots allocOne allocTwo
  rw [empties]
  split <;> rfl

/-- R19: the range under rekey takes the two lowest EMPTY slots. -/
theorem takeSlots_two {n : SealedKey} (current : s.copies.ranges[r].current = some m)
    (next : s.copies.ranges[r].next = some n) (on : rekeyOn r s.copies = true) : takeSlots r s = match emptySlots s with
      | i :: j :: _ => some (i, some j, setSlot j (.live r n.media 0) (setSlot i (.live r m.media 0) s))
      | _ => none := by
  unfold takeSlots allocTwo
  simp only [current, on, if_true, next]
  cases emptySlots s with
  | nil => rfl
  | cons i l => cases l <;> rfl

/-- What an attempt to open range `r` leaves (R19, R20). -/
structure OpenTried (r : Fin 16) (key : Key) (a : Access) (s : State) (code : Code) (t : State) : Prop where
  others : ∀ q : Fin 16, q ≠ r → t.ranges[q] = s.ranges[q]
  codes : code ≠ .boundElsewhere
  stays : code ≠ .opened → code ≠ .alreadyOpen → t = s
  raises : ∀ h, s.ranges[r].run = .opened h →
    code = .alreadyOpen ∧ t.ranges[r].run = .opened (if a = .full then { h with level := .readWrite } else h)
  opens : s.ranges[r].run = .locked → s.copies.ranges[r].current.isSome = true → code = .noSlot
    ∨ code = .opened ∧ ∃ h, t.ranges[r] = ⟨.opened h, false⟩ ∧ h.level = levelOf a ∧ h.key = key
  full : emptySlots s = [] → emptySlots t = []
    ∧ (s.ranges[r].run = .locked → s.copies.ranges[r].current.isSome = true → code = .noSlot)

theorem openRange_tried (r : Fin 16) (key : Key) (a : Access) (s : State) :
    OpenTried r key a s (openRange r key a s).1 (openRange r key a s).2 := by
  have still : ∀ code, code ≠ .boundElsewhere → code ≠ .opened → (∀ h, s.ranges[r].run ≠ .opened h) →
      (s.ranges[r].run = .locked → s.copies.ranges[r].current.isSome = true → code = .noSlot) → OpenTried r key a s code s :=
    fun code h1 h2 h3 h4 => ⟨fun _ _ => rfl, h1, fun _ _ => rfl, fun h x => absurd x (h3 h), fun x y => .inl (h4 x y),
      fun e => ⟨e, h4⟩⟩
  unfold openRange
  cases run : s.ranges[r].run with
  | opened h =>
    dsimp only
    have ranges := setMark_setRun_ranges r false (.opened (if a = .full then { h with level := .readWrite } else h)) s
    refine ⟨fun q n => ?_, by decide, fun _ x => absurd rfl x, fun h' x => ⟨rfl, ?_⟩, fun x => ?_, fun e => ⟨e, fun x => ?_⟩⟩
    · rw [ranges_set_get ranges, if_neg n]
    · cases run.symm.trans x
      rw [ranges_set_get ranges, if_pos rfl]
    · cases run.symm.trans x
    · cases run.symm.trans x
  | closing h d ws => exact still .busyClosing nofun nofun (by rw [run]; nofun) (by rw [run]; nofun)
  | erased => exact still .erased nofun nofun (by rw [run]; nofun) (by rw [run]; nofun)
  | locked =>
    dsimp only
    split
    · rename_i none_
      refine still .erased nofun nofun (by rw [run]; nofun) fun _ x => ?_
      rw [Option.isNone_iff_eq_none.mp none_] at x
      cases x
    · cases taken : takeSlots r s with
      | none => exact still .noSlot nofun nofun (by rw [run]; nofun) fun _ _ => rfl
      | some x =>
        obtain ⟨k, l, u⟩ := x
        have f := frame_takeSlots taken
        have resumed := frame_resumeRekey r (setMark r false (setRun r (.opened ⟨levelOf a, key, k, l⟩) u))
        have ranges := resumed.ranges.trans (setMark_setRun_ranges r false (.opened ⟨levelOf a, key, k, l⟩) u)
        dsimp only
        refine ⟨fun q n => ?_, by decide, fun x => absurd rfl x, fun h x => ?_, fun _ _ => .inr ⟨rfl, ⟨levelOf a, key, k, l⟩, ?_, rfl, rfl⟩,
          fun e => ?_⟩
        · rw [ranges_set_get ranges, if_neg n, f.ranges]
        · cases run.symm.trans x
        · rw [ranges_set_get ranges, if_pos rfl]
        · rw [takeSlots_full e] at taken
          cases taken

end Open

theorem openMarked_eq {c : Fin 8} {key : CredKey} {r : Fin 16} {e : WrapEntry} {s : State}
    (fresh : freshEntry (.slot c) r s.copies = some e) : openMarked c key r s
      = if e.wrapped.under = .cred key then openRange r e.wrapped.key e.access s else (.denied, s) := by
  unfold openMarked unwrap
  simp only [fresh]
  by_cases h : e.wrapped.under = .cred key
  · rw [if_pos h, if_pos h]
  · rw [if_neg h, if_neg h]

/-! ## The pass -/

/-- What the opening of one marked range leaves, whatever it comes to (R80, step 3). -/
structure MarkTried (r : Fin 16) (s : State) (code : Code) (t : State) : Prop where
  others : ∀ q : Fin 16, q ≠ r → t.ranges[q] = s.ranges[q]
  codes : code ≠ .boundElsewhere
  stays : code ≠ .opened → code ≠ .alreadyOpen → t = s
  full : emptySlots s = [] → emptySlots t = []

theorem openMarked_tried (c : Fin 8) (key : CredKey) (r : Fin 16) (s : State) :
    MarkTried r s (openMarked c key r s).1 (openMarked c key r s).2 := by
  have still : ∀ code, code ≠ .boundElsewhere → MarkTried r s code s := fun code h =>
    ⟨fun _ _ => rfl, h, fun _ _ => rfl, fun e => e⟩
  unfold openMarked
  split
  · exact still .notGranted nofun
  · split
    · exact still .denied nofun
    · obtain ⟨others, codes, stays, -, -, full⟩ := openRange_tried r _ _ s
      exact ⟨others, codes, stays, fun e => (full e).1⟩

/-- What the pass over the marks of distinct ranges makes of them (R80): a marked range is tried in a state that differs
from the first in other ranges and in slots taken. -/
structure Passed (c : Fin 8) (key : CredKey) (held : Option Code) (l : List (Fin 16 × Option Code)) (s : State)
    (out : List (Fin 16 × Code)) (t : State) : Prop where
  names : out.map Prod.fst = l.map Prod.fst
  others : ∀ q : Fin 16, (q, none) ∉ l → t.ranges[q] = s.ranges[q]
  settled : ∀ r k, (r, k) ∈ out → ∀ code, (r, some code) ∈ l → k = code
  withheld : ∀ r k, (r, k) ∈ out → (r, none) ∈ l → ∀ code, held = some code → k = code ∧ t.ranges[r] = s.ranges[r]
  tried : ∀ r k, (r, k) ∈ out → (r, none) ∈ l → held = none → ∃ u, Frame openFields s u ∧ u.ranges[r] = s.ranges[r]
    ∧ (emptySlots s = [] → emptySlots u = []) ∧ (openMarked c key r u).1 = k ∧ t.ranges[r] = (openMarked c key r u).2.ranges[r]

theorem completePass_passed (c : Fin 8) (key : CredKey) (held : Option Code) (l : List (Fin 16 × Option Code)) (s : State)
    (once : (l.map Prod.fst).Nodup) :
    Passed c key held l s (completePass c key held l s).1 (completePass c key held l s).2 := by
  induction l generalizing s with
  | nil => exact ⟨rfl, fun _ _ => rfl, fun _ _ x => (nomatch x), fun _ _ x => (nomatch x), fun _ _ x => (nomatch x)⟩
  | cons x l ih =>
    obtain ⟨fresh, tail⟩ := List.nodup_cons.mp once
    have apart : ∀ {q o}, (q, o) ∈ l → q ≠ x.1 := fun h e => fresh (e ▸ List.mem_map_of_mem h)
    have grow : ∀ (code : Code) (m t : State) (out : List (Fin 16 × Code)), Passed c key held l m out t →
        (∀ q : Fin 16, (q, none) ∉ x :: l → m.ranges[q] = s.ranges[q]) → (∀ q : Fin 16, q ≠ x.1 → m.ranges[q] = s.ranges[q]) →
        Frame openFields s m → (emptySlots s = [] → emptySlots m = []) → (∀ k, x.2 = some k → code = k) →
        (x.2 = none → ∀ k, held = some k → code = k ∧ m.ranges[x.1] = s.ranges[x.1]) →
        (x.2 = none → held = none → (openMarked c key x.1 s).1 = code ∧ (openMarked c key x.1 s).2 = m) →
        Passed c key held (x :: l) s ((x.1, code) :: out) t := by
      intro code m t out ⟨names, others, settled, withheld, tried⟩ still elsewhere frame full given kept opened
      have apart' : ∀ {q k}, (q, k) ∈ out → q ≠ x.1 := fun h e =>
        fresh (names ▸ (e ▸ List.mem_map_of_mem h : x.1 ∈ out.map Prod.fst))
      have last : t.ranges[x.1] = m.ranges[x.1] := others x.1 fun h => apart h rfl
      refine ⟨by simp [names], fun q out_ => ?_, fun r k hk code' hc => ?_, fun r k hk hn code' hc => ?_, fun r k hk hn hc => ?_⟩
      · rw [others q fun h => out_ (List.mem_cons_of_mem _ h), still q out_]
      · rcases List.mem_cons.mp hk with e | hk
        · cases e
          rcases List.mem_cons.mp hc with e | hc
          · exact given code' (congrArg Prod.snd e).symm
          · exact absurd rfl (apart hc)
        · rcases List.mem_cons.mp hc with e | hc
          · exact absurd (congrArg Prod.fst e) (apart' hk)
          · exact settled r k hk code' hc
      · rcases List.mem_cons.mp hk with e | hk
        · cases e
          rcases List.mem_cons.mp hn with e | hn
          · obtain ⟨h1, h2⟩ := kept (congrArg Prod.snd e).symm code' hc
            exact ⟨h1, last.trans h2⟩
          · exact absurd rfl (apart hn)
        · rcases List.mem_cons.mp hn with e | hn
          · exact absurd (congrArg Prod.fst e) (apart' hk)
          · obtain ⟨h1, h2⟩ := withheld r k hk hn code' hc
            exact ⟨h1, h2.trans (elsewhere r (apart hn))⟩
      · rcases List.mem_cons.mp hk with e | hk
        · cases e
          rcases List.mem_cons.mp hn with e | hn
          · obtain ⟨h1, h2⟩ := opened (congrArg Prod.snd e).symm hc
            exact ⟨s, .refl _ s, rfl, fun x => x, h1, by rw [last, h2]⟩
          · exact absurd rfl (apart hn)
        · rcases List.mem_cons.mp hn with e | hn
          · exact absurd (congrArg Prod.fst e) (apart' hk)
          · obtain ⟨u, f, same, e, h1, h2⟩ := tried r k hk hn hc
            exact ⟨u, frame.trans f, same.trans (elsewhere r (apart hn)), fun y => e (full y), h1, h2⟩
    obtain ⟨r, code | _⟩ := x
    · cases held with
      | some code =>
        exact grow code s _ _ (ih s tail) (fun _ _ => rfl) (fun _ _ => rfl) (.refl _ s) (fun e => e) nofun
          (fun _ k hk => ⟨Option.some.inj hk, rfl⟩) nofun
      | none =>
        obtain ⟨others, -, -, full⟩ := openMarked_tried c key r s
        exact grow _ _ _ _ (ih (openMarked c key r s).2 tail)
          (fun q out_ => others q fun e => out_ (e ▸ List.mem_cons_self)) others (frame_openMarked c key r s) full nofun nofun
          fun _ _ => ⟨rfl, rfl⟩
    · rename_i code
      exact grow code s _ _ (ih s tail) (fun _ _ => rfl) (fun _ _ => rfl) (.refl _ s) (fun e => e)
        (fun k hk => Option.some.inj hk) nofun nofun

/-! ## The results before the opening -/

section Classify

variable {c : Fin 8} {r : Fin 16} {e : WrapEntry} {s : State}

/-- R79: a range without an entry, or undefined. -/
theorem classify_notGranted (h : freshEntry (.slot c) r s.copies = none ∨ rangeDefined s.copies r = false) :
    classify c r s = some .notGranted := by
  unfold classify
  rcases h with h | h
  · simp only [h]
  · simp only [h, Bool.not_false, if_true]
    split <;> rfl

/-- R79: what the binding says of a range that would open. -/
def boundResult (r : Fin 16) (s : State) : Option Code :=
  if s.copies.ranges[r].attributes.bindingRequired then
    match s.watch.binding with
    | .unknown => some .bindingPending
    | .mismatched => some .boundElsewhere
    | .absent => some .boundElsewhere
    | .matched => none
    | .unbound => none
  else none

theorem boundResult_lets (h : s.copies.ranges[r].attributes.bindingRequired = false ∨ s.watch.binding = .matched
    ∨ s.watch.binding = .unbound) : boundResult r s = none := by
  unfold boundResult
  rcases h with h | h | h
  · rw [h]
    rfl
  · rw [h, ite_self]
  · rw [h, ite_self]

theorem boundResult_pending (required : s.copies.ranges[r].attributes.bindingRequired = true)
    (unknown : s.watch.binding = .unknown) : boundResult r s = some .bindingPending := by
  unfold boundResult
  rw [if_pos required, unknown]

theorem boundResult_elsewhere (required : s.copies.ranges[r].attributes.bindingRequired = true)
    (off : s.watch.binding = .mismatched ∨ s.watch.binding = .absent) : boundResult r s = some .boundElsewhere := by
  unfold boundResult
  rw [if_pos required]
  rcases off with off | off <;> rw [off]

variable (fresh : freshEntry (.slot c) r s.copies = some e) (defined : rangeDefined s.copies r = true)

include fresh defined

theorem classify_closing {h : Held} {d : Nat} {ws : List Waiter} (run : s.ranges[r].run = .closing h d ws) :
    classify c r s = some .busyClosing := by
  unfold classify
  simp only [fresh, defined, run, Bool.not_true, Bool.false_eq_true, if_false]

theorem classify_erased (run : s.ranges[r].run = .erased) : classify c r s = some .erased := by
  unfold classify
  simp only [fresh, defined, run, Bool.not_true, Bool.false_eq_true, if_false]

/-- R79: a range that is marked unless its binding holds it. -/
theorem classify_marked (marked : s.ranges[r].run = .locked
    ∨ ∃ h, s.ranges[r].run = .opened h ∧ e.access = .full ∧ h.level = .readOnly) : classify c r s = boundResult r s := by
  unfold classify
  rcases marked with run | ⟨h, run, full, low⟩
  · simp only [fresh, defined, run, Bool.not_true, Bool.false_eq_true, if_false]
    rfl
  · simp only [fresh, defined, run, full, low, reduceCtorEq, or_self, Bool.not_true, Bool.false_eq_true, if_false]
    rfl

theorem classify_open {h : Held} (run : s.ranges[r].run = .opened h) (other : ¬(e.access = .full ∧ h.level = .readOnly)) :
    classify c r s = some .alreadyOpen := by
  have high : e.access = .read ∨ h.level = .readWrite := by
    cases ha : e.access with
    | read => exact .inl rfl
    | full =>
      cases hl : h.level with
      | readWrite => exact .inr rfl
      | readOnly => exact absurd ⟨ha, hl⟩ other
  unfold classify
  simp only [fresh, defined, run, if_pos high, Bool.not_true, Bool.false_eq_true, if_false]

end Classify

/-! ## The effect -/

theorem underWay_completePass {req : Instr} (c : Fin 8) (key : CredKey) (held : Option Code) (l : List (Fin 16 × Option Code))
    (s : State) (h : UnderWay req s) : UnderWay req (completePass c key held l s).2 := by
  induction l generalizing s with
  | nil => exact h
  | cons x l ih =>
    obtain ⟨r, code | _⟩ := x
    · cases held with
      | some code => exact ih s h
      | none =>
        refine ih (openMarked c key r s).2 ?_
        unfold openMarked
        split
        · exact h
        · split
          · exact h
          · exact underWay_openRange r _ _ s h
    · exact ih s h

/-- R79: the results before the opening, for the requested ranges. -/
def unlockMarks (c : Fin 8) (l : List Byte) (s : State) : List (Fin 16 × Option Code) :=
  (requestedRanges c l s).map fun r => (r, classify c r s)

/-- R80, step 1: the state in which the pass begins. -/
def unlockJudged (c : Fin 8) (l : List Byte) (s : State) : State :=
  if (unlockMarks c l s).any fun m => decide (m.2 = some .boundElsewhere) then takeEvidence (.bindingMismatch 2) s else s

/-- R15: a visit that meets no stale entry removes none. -/
theorem unlockEffect_eq (c : Fin 8) (key : CredKey) (l : List Byte) {s : State} (fresh : NoneStale s.copies) :
    unlockEffect c key l s = secFinish .ok
      (.rangeResults (completePass c key (passWithheld c (unlockJudged c l s)) (unlockMarks c l s) (unlockJudged c l s)).1)
      (completePass c key (passWithheld c (unlockJudged c l s)) (unlockMarks c l s) (unlockJudged c l s)).2 := by
  have visit : ∀ v : List (Fin 16), v.foldl (fun s r => purgeStale (.slot c) r s) s = s := fun v =>
    keeps_foldl (Inv := (· = s)) (f := fun s r => purgeStale (.slot c) r s) (fun t r ht => by
      rw [ht]
      exact purgeStale_eq_self fresh _ _) v s rfl
  unfold unlockEffect unlockJudged unlockMarks
  simp only [visit]

theorem requestedRanges_eq (c : Fin 8) (l : List Byte) (s : State) : ∃ p : Fin 16 → Bool,
    requestedRanges c l s = (List.finRange 16).filter p
      ∧ ∀ r, p r = true ↔ if l = [] then (freshEntry (.slot c) r s.copies).isSome = true else ∃ b ∈ l, b.toNat = r := by
  unfold requestedRanges listedRanges
  cases l with
  | nil => exact ⟨fun r => (freshEntry (.slot c) r s.copies).isSome, rfl, fun r => by simp⟩
  | cons b l => exact ⟨fun r => (b :: l).any fun b => decide (b.toNat = r.val), rfl, fun r => by simp⟩

theorem unlockMarks_names (c : Fin 8) (l : List Byte) (s : State) :
    (unlockMarks c l s).map Prod.fst = requestedRanges c l s := by
  unfold unlockMarks
  rw [List.map_map]
  exact List.map_id _

theorem unlockMarks_nodup (c : Fin 8) (l : List Byte) (s : State) : ((unlockMarks c l s).map Prod.fst).Nodup := by
  obtain ⟨p, e, -⟩ := requestedRanges_eq c l s
  rw [unlockMarks_names, e]
  exact (List.nodup_finRange 16).filter p

/-- A success of UNLOCK with the watch at rest and no stale entry. -/
theorem exec_unlock {id : BitVec 16} {cb : Byte} {secret : Secret} {l : List Byte} {c : Fin 8} {key : CredKey} {s : State}
    (h : Succeeds (.unlock id cb secret l) c key s) (rest : AtRest s) (fresh : NoneStale s.copies) :
    ∃ res u, Passed c key (passWithheld c (unlockJudged c l (atVerdict c key s))) (unlockMarks c l (atVerdict c key s))
        (unlockJudged c l (atVerdict c key s)) res u
      ∧ Frame openFields (unlockJudged c l (atVerdict c key s)) u
      ∧ ∃ t, exec .derivationComplete s = .next t ∧ Frame [.sec, .requests] u t
        ∧ Answering (.unlock id cb secret l) .ok (.rangeResults res) t := by
  have effect : requestEffect (.unlock id cb secret l) c key (atVerdict c key s) = _ :=
    unlockEffect_eq c key l (s := atVerdict c key s) fresh
  have way : UnderWay (.unlock id cb secret l) (unlockJudged c l (atVerdict c key s)) := by
    unfold unlockJudged
    split
    · exact underWay_takeEvidence _ _ (underWay_atVerdict h)
    · exact underWay_atVerdict h
  have ends := underWay_completePass c key (passWithheld c (unlockJudged c l (atVerdict c key s)))
    (unlockMarks c l (atVerdict c key s)) _ way
  refine ⟨_, _, completePass_passed c key _ _ _ (unlockMarks_nodup c l _), frame_completePass c key _ _ _, ?_⟩
  exact next_answering h rest rfl effect ends fun t f answers => ⟨f, answers⟩

/-! ## One range -/

theorem rangeIx_val {b : Byte} (h : b.toNat < 16) : (rangeIx b).val = b.toNat := Nat.mod_eq_of_lt h

theorem requestedRanges_one {c : Fin 8} {b : Byte} {s : State} (h : b.toNat < 16) :
    requestedRanges c [b] s = [rangeIx b] := by
  have same : (fun r : Fin 16 => [b].any fun b => decide (b.toNat = r.val)) = fun r => [rangeIx b].contains r := by
    funext r
    simp only [List.any_cons, List.any_nil, Bool.or_false, ← rangeIx_val h]
    by_cases e : rangeIx b = r
    · subst e
      simp
    · have : (rangeIx b).val ≠ r.val := fun x => e (Fin.ext x)
      simp [this, Ne.symm e]
  change (List.finRange 16).filter (fun r => [b].any fun b => decide (b.toNat = r.val)) = _
  rw [same, filter_alone]

/-- The effect of an UNLOCK of one range that is marked. -/
theorem unlockEffect_one {c : Fin 8} {key : CredKey} {b : Byte} {e : WrapEntry} {s : State} (hb : b.toNat < 16)
    (stale : NoneStale s.copies) (rest : AtRest s) (fresh : freshEntry (.slot c) (rangeIx b) s.copies = some e)
    (defined : rangeDefined s.copies (rangeIx b) = true) (locked : s.ranges[rangeIx b].run = .locked)
    (free : s.copies.ranges[rangeIx b].attributes.bindingRequired = false) (under : e.wrapped.under = .cred key) :
    unlockEffect c key [b] s = secFinish .ok
      (.rangeResults [(rangeIx b, (openRange (rangeIx b) e.wrapped.key e.access s).1)])
      (openRange (rangeIx b) e.wrapped.key e.access s).2 := by
  have marks : unlockMarks c [b] s = [(rangeIx b, none)] := by
    unfold unlockMarks
    rw [requestedRanges_one hb]
    have marked := (classify_marked fresh defined (.inl locked)).trans (boundResult_lets (.inl free))
    simp only [List.map_cons, List.map_nil, marked]
  have judged : unlockJudged c [b] s = s := by
    unfold unlockJudged
    rw [marks]
    rfl
  have lets : passWithheld c s = none := by
    unfold passWithheld
    rw [rest.1]
    rfl
  rw [unlockEffect_eq c key [b] stale, judged, marks, lets]
  simp only [completePass, openMarked_eq fresh, if_pos under]

/-! ## The range under rekey -/

/-- R122: the record of an opened range runs again, unless it is FAULTED. -/
def resumed (k : RekeyRec) : RekeyRec := { k with state := if k.state = .paused then .running else k.state }

theorem resumeRekey_resumed {r : Fin 16} {k : RekeyRec} {s : State} (hk : s.copies.rekey = some k) (hr : k.range = r) :
    ∃ y, Frame [.cRekey, .requests] s y ∧ y.copies.rekey = some (resumed k) ∧ resumeRekey r s = chooseWindow y := by
  have run : resumeRekey r s
      = chooseWindow (if k.state = .paused then putRekey (some { k with state := .running }) s else s) := by
    unfold resumeRekey
    simp only [hk]
    rw [if_pos hr]
  by_cases paused : k.state = .paused
  · rw [if_pos paused] at run
    refine ⟨_, frame_put (.rekey _) s .cRekey, ?_, run⟩
    unfold resumed
    rw [if_pos paused]
    rfl
  · rw [if_neg paused] at run
    refine ⟨s, .refl _ s, ?_, run⟩
    unfold resumed
    rw [if_neg paused]
    exact hk

/-- R19, R114, R122: what the resumed record leads to. -/
structure RekeyResumed (k : RekeyRec) (s t : State) : Prop where
  copies : t.copies = { s.copies with rekey := some (resumed k) }
  idle : k.state = .faulted ∨ s.rekey.order.isSome = true → t.rekey = s.rekey
  chosen : k.state ≠ .faulted → isOpen s.ranges[k.range].run = true → s.drive.up = true → s.rekey.order = none →
    s.rekey.intended = none → s.rekey.completing = false → (∀ w ∈ s.store.waits, w.job ≠ .rekeyWindow) → WindowChosen k s t

theorem resumeRekey_left {r : Fin 16} {k : RekeyRec} {s : State} (hk : s.copies.rekey = some k) (hr : k.range = r) :
    RekeyResumed k s (resumeRekey r s) := by
  obtain ⟨y, f, hy, run⟩ := resumeRekey_resumed hk hr
  rw [run]
  refine ⟨?_, fun off => ?_, fun lives open_ up order intended completing waits => ?_⟩
  · rw [(frame_chooseWindow y).copies, f.rekeyOnly, hy]
  · rw [chooseWindow_not_due, f.rekey]
    unfold windowDue
    simp only [hy, f.order]
    rcases off with faulted | busy
    · unfold resumed
      rw [faulted]
      simp
    · obtain ⟨o, ho⟩ := Option.isSome_iff_exists.mp busy
      simp [ho]
  · have runs : (resumed k).state = .running := by
      unfold resumed
      cases hs : k.state with
      | paused => rfl
      | running => rfl
      | faulted => exact absurd hs lives
    have due : windowDue y = true := by
      unfold windowDue
      simp only [hy, runs, f.order, f.intended, f.completing, f.up, f.ranges, f.waits, up, order, intended, completing]
      have here : isOpen s.ranges[(resumed k).range].run = true := open_
      rw [here]
      simpa using waits
    exact WindowChosen.of (s := s) (show WindowChosen k y (chooseWindow y) from
      (chooseWindow_due hy due : WindowChosen (resumed k) y (chooseWindow y))) f.cRanges f.capacity f.adm
      (by rw [f.rekey])

theorem openRange_two {r : Fin 16} {m n : SealedKey} {k : RekeyRec} {key : Key} {a : Access} {i j : Fin 18}
    {l : List (Fin 18)} {s : State} (locked : s.ranges[r].run = .locked) (current : s.copies.ranges[r].current = some m)
    (next : s.copies.ranges[r].next = some n) (hk : s.copies.rekey = some k) (hr : k.range = r)
    (empties : emptySlots s = i :: j :: l) : openRange r key a s = (.opened, resumeRekey r (setMark r false
      (setRun r (.opened ⟨levelOf a, key, i, some j⟩) (setSlot j (.live r n.media 0) (setSlot i (.live r m.media 0) s))))) := by
  have taken := takeSlots_two current next (by unfold rekeyOn; simp [hk, hr])
  rw [empties] at taken
  unfold openRange
  simp only [locked, current, taken, Option.isNone_some, Bool.false_eq_true, if_false]

theorem openRange_short {r : Fin 16} {m n : SealedKey} {k : RekeyRec} {key : Key} {a : Access} {s : State}
    (locked : s.ranges[r].run = .locked) (current : s.copies.ranges[r].current = some m)
    (next : s.copies.ranges[r].next = some n) (hk : s.copies.rekey = some k) (hr : k.range = r)
    (few : (emptySlots s).length < 2) : openRange r key a s = (.noSlot, s) := by
  have taken : takeSlots r s = none := by
    rw [takeSlots_two current next (by unfold rekeyOn; simp [hk, hr])]
    cases h : emptySlots s with
    | nil => rfl
    | cons i l =>
      cases l with
      | nil => rfl
      | cons j l =>
        rw [h] at few
        simp only [List.length_cons] at few
        omega
  unfold openRange
  simp only [locked, current, taken, Option.isNone_some, Bool.false_eq_true, if_false]

/-- R78, R79: an UNLOCK of one marked range opens it in the lowest EMPTY slot. -/
theorem unlock_one : (∀ (id : BitVec 16) (cb b : Byte) (secret : Secret) (c : Fin 8) (key : CredKey) (e : WrapEntry)
    (m : SealedKey) (k : Fin 18) (l : List (Fin 18)) (s : State), Succeeds (.unlock id cb secret [b]) c key s → AtRest s →
    b.toNat < 16 → NoneStale s.copies → freshEntry (.slot c) (rangeIx b) s.copies = some e → e.wrapped.under = .cred key →
    rangeDefined s.copies (rangeIx b) = true → s.ranges[rangeIx b].run = .locked →
    s.copies.ranges[rangeIx b].current = some m → rekeyOn (rangeIx b) s.copies = false →
    s.copies.ranges[rangeIx b].attributes.bindingRequired = false → emptySlots s = k :: l →
    Next (exec .derivationComplete s) fun t =>
      t = { s with
        ranges := s.ranges.set (rangeIx b) ⟨.opened ⟨levelOf e.access, e.wrapped.key, k, none⟩, false⟩
        slots := s.slots.set k (.live (rangeIx b) m.media 0)
        copies := countsReset c s.copies
        store := t.store
        cred := { s.cred with holdoff := none }
        cmd := { s.cmd with sec := t.cmd.sec }
        derive := { job := s.derive.waiting.head?, waiting := s.derive.waiting.tail } }
      ∧ Answering (.unlock id cb secret [b]) .ok (.rangeResults [(rangeIx b, .opened)]) t) := by
  intro id cb b secret c key e m k l s h rest hb stale fresh under defined locked current off free empties
  have opens := openRange_one (r := rangeIx b) (key := e.wrapped.key) (a := e.access) (s := atVerdict c key s)
    locked current off empties
  have effect := unlockEffect_one (c := c) (key := key) (s := atVerdict c key s) hb stale rest fresh defined locked free under
  have left : setMark (rangeIx b) false (setRun (rangeIx b) (.opened ⟨levelOf e.access, e.wrapped.key, k, none⟩)
      (setSlot k (.live (rangeIx b) m.media 0) (atVerdict c key s))) = { atVerdict c key s with
        ranges := s.ranges.set (rangeIx b) ⟨.opened ⟨levelOf e.access, e.wrapped.key, k, none⟩, false⟩
        slots := s.slots.set k (.live (rangeIx b) m.media 0) } := by
    have ranges := setMark_setRun_ranges (rangeIx b) false (.opened ⟨levelOf e.access, e.wrapped.key, k, none⟩)
      (setSlot k (.live (rangeIx b) m.media 0) (atVerdict c key s))
    change _ = { atVerdict c key s with
      ranges := (setSlot k (.live (rangeIx b) m.media 0) (atVerdict c key s)).ranges.set (rangeIx b)
        ⟨.opened ⟨levelOf e.access, e.wrapped.key, k, none⟩, false⟩
      slots := s.slots.set k (.live (rangeIx b) m.media 0) }
    rw [← ranges]
    rfl
  rw [opens, left] at effect
  exact next_secFinish h rest rfl effect rfl (noted_atVerdict c key s) fun st j hreq hphase =>
    ⟨rfl, j, rfl, hreq, hphase⟩

/-- R19, R122: of the range under rekey. -/
theorem unlock_rekeyed : ∀ (id : BitVec 16) (cb b : Byte) (secret : Secret) (c : Fin 8) (key : CredKey) (e : WrapEntry)
    (m n : SealedKey) (k : RekeyRec) (s : State), Succeeds (.unlock id cb secret [b]) c key s → AtRest s →
    b.toNat < 16 → NoneStale s.copies → freshEntry (.slot c) (rangeIx b) s.copies = some e → e.wrapped.under = .cred key →
    rangeDefined s.copies (rangeIx b) = true → s.ranges[rangeIx b].run = .locked →
    s.copies.ranges[rangeIx b].current = some m → s.copies.ranges[rangeIx b].next = some n → s.copies.rekey = some k →
    k.range = rangeIx b → s.copies.ranges[rangeIx b].attributes.bindingRequired = false →
    ((emptySlots s).length < 2 → Next (exec .derivationComplete s) fun t =>
      Answering (.unlock id cb secret [b]) .ok (.rangeResults [(rangeIx b, .noSlot)]) t
      ∧ t.copies = countsReset c s.copies ∧ t.ranges = s.ranges ∧ t.slots = s.slots ∧ t.rekey = s.rekey)
    ∧ ∀ i j l, emptySlots s = i :: j :: l → Next (exec .derivationComplete s) fun t =>
      Answering (.unlock id cb secret [b]) .ok (.rangeResults [(rangeIx b, .opened)]) t
      ∧ t.ranges = s.ranges.set (rangeIx b) ⟨.opened ⟨levelOf e.access, e.wrapped.key, i, some j⟩, false⟩
      ∧ t.slots = (s.slots.set i (.live (rangeIx b) m.media 0)).set j (.live (rangeIx b) n.media 0) ∧ t.adm = s.adm
      ∧ t.copies = { countsReset c s.copies with
          rekey := some { k with state := if k.state = .paused then .running else k.state } }
      ∧ (k.state = .faulted ∨ s.rekey.order.isSome = true → t.rekey = s.rekey)
      ∧ (k.state ≠ .faulted → s.drive.up = true → s.rekey.order = none → s.rekey.intended = none →
        s.rekey.completing = false → (∀ w ∈ s.store.waits, w.job ≠ .rekeyWindow) → WindowChosen k s t) := by
  intro id cb b secret c key e m n k s h rest hb stale fresh under defined locked current next hk hr free
  have effect := unlockEffect_one (c := c) (key := key) (s := atVerdict c key s) hb stale rest fresh defined locked free under
  have way := underWay_atVerdict h
  refine ⟨fun few => ?_, fun i j l empties => ?_⟩
  · have short := openRange_short (r := rangeIx b) (key := e.wrapped.key) (a := e.access) (s := atVerdict c key s) locked
      current next hk hr few
    rw [short] at effect
    exact next_answering h rest rfl effect way fun t f answers =>
      ⟨answers, f.copies, f.ranges, f.slots, f.rekey⟩
  · have opens := openRange_two (r := rangeIx b) (key := e.wrapped.key) (a := e.access) (s := atVerdict c key s) locked
      current next hk hr empties
    have under := underWay_openRange (rangeIx b) e.wrapped.key e.access (atVerdict c key s) way
    have ranges := setMark_setRun_ranges (rangeIx b) false (.opened ⟨levelOf e.access, e.wrapped.key, i, some j⟩)
      (setSlot j (.live (rangeIx b) n.media 0) (setSlot i (.live (rangeIx b) m.media 0) (atVerdict c key s)))
    have f : Frame [.ranges, .slots] (atVerdict c key s) (setMark (rangeIx b) false (setRun (rangeIx b)
        (.opened ⟨levelOf e.access, e.wrapped.key, i, some j⟩) (setSlot j (.live (rangeIx b) n.media 0)
          (setSlot i (.live (rangeIx b) m.media 0) (atVerdict c key s))))) := ⟨rfl, rfl, le_rfl⟩
    have slots : (setMark (rangeIx b) false (setRun (rangeIx b)
        (.opened ⟨levelOf e.access, e.wrapped.key, i, some j⟩) (setSlot j (.live (rangeIx b) n.media 0)
          (setSlot i (.live (rangeIx b) m.media 0) (atVerdict c key s))))).slots
        = (s.slots.set i (.live (rangeIx b) m.media 0)).set j (.live (rangeIx b) n.media 0) := rfl
    rw [opens] at effect under
    generalize setMark (rangeIx b) false (setRun (rangeIx b) (.opened ⟨levelOf e.access, e.wrapped.key, i, some j⟩)
      (setSlot j (.live (rangeIx b) n.media 0) (setSlot i (.live (rangeIx b) m.media 0) (atVerdict c key s)))) = x at *
    have hk' : x.copies.rekey = some k := f.cRekey.trans hk
    obtain ⟨copies, idle, chosen⟩ := resumeRekey_left hk' hr
    have g := frame_resumeRekey (rangeIx b) x
    have waits : x.store.waits = s.store.waits := f.waits.trans (by
      change (putCred c _ (put (.charged 0) s)).store.waits = _
      exact (frame_put (.cred c _) (put (.charged 0) s) .cCreds).waits.trans (frame_put (.charged 0) s .cCharged).waits)
    have rekey : x.rekey = s.rekey := f.rekey
    have open_ : isOpen x.ranges[k.range].run = true := by
      have : x.ranges[k.range].run = .opened ⟨levelOf e.access, e.wrapped.key, i, some j⟩ := by
        rw [ranges_set_get ranges, if_pos hr]
      rw [this]
      rfl
    rw [rekey] at idle chosen
    rw [waits] at chosen
    refine next_answering h rest rfl effect under fun t w answers => ⟨answers, w.ranges.trans (g.ranges.trans ranges),
      w.slots.trans (g.slots.trans slots), w.adm.trans (g.adm.trans f.adm), ?_, fun off => w.rekey.trans (idle off),
      fun lives up order intended completing waits => ?_⟩
    · rw [w.copies, copies, f.copies]
      rfl
    · have made := (chosen lives open_ (f.up.trans up) order intended completing waits).of (s := s) f.cRanges f.capacity f.adm
        (by rw [rekey])
      unfold WindowChosen at made ⊢
      rw [w.rekey, w.outbox]
      exact made

/-! ## Any list of ranges -/

section Pass

variable {c : Fin 8} {key : CredKey} {l : List Byte} {s : State}

theorem passWithheld_codes {code : Code} (h : passWithheld c s = some code) : code = .erased ∨ code = .roleRefused := by
  unfold passWithheld at h
  split at h
  · exact .inl (Option.some.inj h).symm
  · split at h
    · exact .inr (Option.some.inj h).symm
    · cases h

/-- R80, step 2: when the opening is withheld, and with which result. -/
theorem passWithheld_eq (c : Fin 8) (s : State) : passWithheld c s
    = if alive s.copies.watch.state = false ∨ s.copies.watch.state = .alarmed ∧ roleOf c = .user then
        some (if alive s.copies.watch.state = true then .roleRefused else .erased)
      else none := by
  unfold passWithheld
  cases alive s.copies.watch.state <;> simp

/-- R80: a result is BOUND_ELSEWHERE where the binding said so, and nowhere else. -/
theorem Passed.elsewhere {t u : State} {res : List (Fin 16 × Code)}
    (h : Passed c key (passWithheld c t) (unlockMarks c l s) t res u) :
    (∃ r, (r, .boundElsewhere) ∈ res)
      ↔ ((unlockMarks c l s).any fun m => decide (m.2 = some .boundElsewhere)) = true := by
  rw [List.any_eq_true]
  constructor
  · rintro ⟨r, hr⟩
    have named : r ∈ (unlockMarks c l s).map Prod.fst := h.names ▸ List.mem_map_of_mem hr
    obtain ⟨⟨r', o⟩, hm, rfl⟩ := List.mem_map.mp named
    cases o with
    | some code => exact ⟨_, hm, by simp [← h.settled r' _ hr code hm]⟩
    | none =>
      cases held : passWithheld c t with
      | some code =>
        have := (h.withheld r' _ hr hm code held).1
        rcases passWithheld_codes held with rfl | rfl <;> cases this
      | none =>
        obtain ⟨w, -, -, -, hk, -⟩ := h.tried r' _ hr hm held
        exact absurd hk (openMarked_tried c key r' w).codes
  · rintro ⟨⟨r, o⟩, hm, ho⟩
    obtain rfl : o = some .boundElsewhere := of_decide_eq_true ho
    have named : r ∈ res.map Prod.fst := h.names ▸ List.mem_map_of_mem hm
    obtain ⟨⟨r', k⟩, hr, rfl⟩ := List.mem_map.mp named
    exact ⟨r', h.settled r' k hr _ hm ▸ hr⟩

/-- Evidence, with an opening after it. -/
theorem EvidenceTaken.of {e : Evidence} {t u : State} (h : EvidenceTaken e s t) (f : Frame (.sec :: openFields) t u) :
    EvidenceTaken e s u := by
  obtain ⟨h1, h2, h3, h4⟩ := h
  unfold EvidenceTaken
  have records := f.rekeyOnly
  rw [f.cWatch, f.cIncidents]
  refine ⟨h1, h2, h3, ?_⟩
  rw [records, h4]

end Pass

/-- R80, step 1: what the evidence of the pass leaves, with the watch at rest before. -/
structure UnlockBegun (c : Fin 8) (l : List Byte) (s m : State) : Prop where
  taken : ((unlockMarks c l s).any fun m => decide (m.2 = some .boundElsewhere)) = true →
    EvidenceTaken (.bindingMismatch 2) s m
  idle : ¬((unlockMarks c l s).any fun m => decide (m.2 = some .boundElsewhere)) = true → m = s
  stays : m.copies.watch.state ≠ .alarmed → m.ranges = s.ranges ∧ m.slots = s.slots
  closes : m.copies.watch.state = .alarmed → ∀ q : Fin 16, s.ranges[q].run ≠ .erased → m.ranges[q].run = .locked
  frame : Frame evidenceFields s m

theorem unlockJudged_begun (c : Fin 8) (l : List Byte) {s : State} (rest : AtRest s) :
    UnlockBegun c l s (unlockJudged c l s) := by
  have settled : s.copies.watch.state = .settled := by rw [rest.1]
  unfold unlockJudged
  by_cases marked : ((unlockMarks c l s).any fun m => decide (m.2 = some .boundElsewhere)) = true
  · rw [if_pos marked]
    obtain ⟨taken, stays, closes⟩ := takeEvidence_settled settled (.bindingMismatch 2)
    exact ⟨fun _ => taken, fun x => absurd marked x, stays, closes, frame_takeEvidence _ s⟩
  · rw [if_neg marked]
    refine ⟨fun x => absurd x marked, fun _ => rfl, fun _ => ⟨rfl, rfl⟩, fun x => ?_, .refl _ s⟩
    rw [settled] at x
    cases x

/-- R80, step 3: a marked range whose entry unwraps. -/
theorem Passed.openTried {c : Fin 8} {key : CredKey} {l : List Byte} {s m u : State} {res : List (Fin 16 × Code)}
    {r : Fin 16} {k : Code} {e : WrapEntry} (h : Passed c key none (unlockMarks c l s) m res u) (hr : (r, k) ∈ res)
    (marked : (r, none) ∈ unlockMarks c l s) (f : Frame evidenceFields s m)
    (fresh : freshEntry (.slot c) r s.copies = some e) :
    (e.wrapped.under ≠ .cred key → k = .denied)
      ∧ (e.wrapped.under = .cred key → ∃ w x, w.ranges[r] = m.ranges[r] ∧ u.ranges[r] = x.ranges[r]
        ∧ w.copies.ranges = s.copies.ranges ∧ (emptySlots m = [] → emptySlots w = [])
        ∧ OpenTried r e.wrapped.key e.access w k x) := by
  obtain ⟨w, g, same, empties, hk, last⟩ := h.tried r k hr marked rfl
  have records : w.copies.ranges = s.copies.ranges := g.cRanges.trans f.cRanges
  have entry : freshEntry (.slot c) r w.copies = some e := by
    have wraps : w.copies.wraps = s.copies.wraps := g.cWraps.trans f.cWraps
    unfold freshEntry findWrap isStale at fresh ⊢
    rw [records, wraps]
    exact fresh
  rw [openMarked_eq entry] at hk last
  refine ⟨fun other => ?_, fun under => ?_⟩
  · rw [if_neg other] at hk
    exact hk.symm
  · rw [if_pos under] at hk last
    refine ⟨w, (openRange r e.wrapped.key e.access w).2, same, last, records, empties, ?_⟩
    rw [← hk]
    exact openRange_tried r _ _ w

/-- R80, step 3: what an UNLOCK makes of a marked range that its credential's entry opens. -/
theorem OpenTried.marked {r : Fin 16} {key : Key} {e : WrapEntry} {k : Code} {s m w x u : State}
    (h : OpenTried r key e.access w k x) (same : w.ranges[r] = m.ranges[r]) (last : u.ranges[r] = x.ranges[r])
    (records : w.copies.ranges = s.copies.ranges) (empties : emptySlots m = [] → emptySlots w = [])
    (stays : m.copies.watch.state ≠ .alarmed → m.ranges = s.ranges ∧ m.slots = s.slots)
    (closes : m.copies.watch.state = .alarmed → ∀ q : Fin 16, s.ranges[q].run ≠ .erased → m.ranges[q].run = .locked)
    (marked : s.ranges[r].run = .locked ∨ ∃ h, s.ranges[r].run = .opened h ∧ e.access = .full ∧ h.level = .readOnly) :
    (∀ h, s.ranges[r].run = .opened h → m.copies.watch.state ≠ .alarmed →
      k = .alreadyOpen ∧ u.ranges[r].run = .opened { h with level := .readWrite })
    ∧ (s.ranges[r].run = .locked ∨ m.copies.watch.state = .alarmed → s.copies.ranges[r].current.isSome = true →
      (k = .opened ∨ k = .noSlot)
      ∧ (m.copies.watch.state ≠ .alarmed → (emptySlots s = [] → k = .noSlot) ∧ (k = .noSlot → u.ranges[r] = s.ranges[r]))
      ∧ (k = .noSlot → u.ranges[r].run = .locked)
      ∧ (k = .opened → ∃ h, u.ranges[r] = ⟨.opened h, false⟩ ∧ h.level = levelOf e.access ∧ h.key = key)) := by
  refine ⟨fun hd run other => ?_, fun shut current => ?_⟩
  · have full : e.access = .full := by
      rcases marked with x | ⟨h', x, full, -⟩
      · cases run.symm.trans x
      · exact full
    obtain ⟨hk, after⟩ := h.raises hd (by rw [same, (stays other).1, run])
    rw [if_pos full] at after
    exact ⟨hk, last ▸ after⟩
  · have unerased : s.ranges[r].run ≠ .erased := by
      rcases marked with x | ⟨h', x, -⟩
      · rw [x]
        nofun
      · rw [x]
        nofun
    have locked : w.ranges[r].run = .locked := by
      rw [same]
      by_cases alarm : m.copies.watch.state = .alarmed
      · exact closes alarm r unerased
      · rw [(stays alarm).1]
        exact shut.resolve_right alarm
    have current' : w.copies.ranges[r].current.isSome = true := by rw [records]; exact current
    have untouched : k = .noSlot → u.ranges[r] = m.ranges[r] := by
      rintro rfl
      rw [last, h.stays nofun nofun, same]
    refine ⟨?_, fun other => ⟨fun none_ => ?_, fun no => ?_⟩, fun no => ?_, fun yes => ?_⟩
    · rcases h.opens locked current' with x | ⟨x, -⟩
      · exact .inr x
      · exact .inl x
    · refine (h.full (empties ?_)).2 locked current'
      rw [emptySlots_congr (stays other).2]
      exact none_
    · rw [untouched no, (stays other).1]
    · rw [untouched no, ← same]
      exact locked
    · rcases h.opens locked current' with x | ⟨-, x⟩
      · cases yes.symm.trans x
      · rw [last]
        exact x

/-- Settles O37: one range, the range under rekey, and the pass over any list. -/
theorem unlockOpensAGrantedRange : Obligations.UnlockOpensAGrantedRange := by
  refine ⟨unlock_one, unlock_rekeyed, fun id cb secret l c key s h rest stale => ?_⟩
  obtain ⟨res, u, passed, opens, t, ht, f, answers⟩ := exec_unlock h rest stale
  intro entry told
  have begun := unlockJudged_begun c l (s := atVerdict c key s) rest
  have where_ := passed.elsewhere
  have names := passed.names
  rw [unlockMarks_names] at names
  obtain ⟨p, hp, requested⟩ := requestedRanges_eq c l (atVerdict c key s)
  have entries : ∀ r, freshEntry (.slot c) r (atVerdict c key s).copies = entry r := fun r => rfl
  generalize unlockJudged c l (atVerdict c key s) = m at passed opens begun where_
  obtain ⟨taken, idle, stays, closes, judged⟩ := begun
  have tail : Frame (.sec :: openFields) m t := f.after opens
  have mark : ∀ r k, (r, k) ∈ res → (r, classify c r (atVerdict c key s)) ∈ unlockMarks c l (atVerdict c key s) := by
    intro r k hr
    have : r ∈ res.map Prod.fst := List.mem_map_of_mem hr
    rw [names] at this
    exact List.mem_map_of_mem (f := fun r => (r, classify c r (atVerdict c key s))) this
  refine ⟨t, ht, res, answers, ?_, fun r => ?_, fun elsewhere => ?_, fun none_ => ?_, fun r k hrk => ?_⟩
  · rw [names, hp]
    exact (List.pairwise_lt_finRange 16).filter p
  · rw [names, hp, List.mem_filter, requested]
    simp only [List.mem_finRange, true_and]
    exact Iff.rfl
  · exact (taken (where_.mp elsewhere)).of tail
  · obtain rfl := idle fun x => none_ (where_.mpr x)
    refine ⟨tail.rekeyOnly, tail.watch, fun r closed => (congrArg (fun v : Vector RangeRt 16 => v[r]) f.ranges).trans ?_⟩
    by_cases marked : (r, none) ∈ unlockMarks c l (atVerdict c key s)
    · have named : r ∈ res.map Prod.fst := passed.names ▸ List.mem_map_of_mem marked
      obtain ⟨⟨r', k⟩, hr, rfl⟩ := List.mem_map.mp named
      obtain ⟨n1, n2⟩ := closed k hr
      cases held : passWithheld c (atVerdict c key s) with
      | some code => exact (passed.withheld r' k hr marked code held).2
      | none =>
        obtain ⟨w, -, same, -, hk, last⟩ := passed.tried r' k hr marked held
        rw [last, (openMarked_tried c key r' w).stays (hk ▸ n1) (hk ▸ n2), same]
        rfl
    · exact passed.others r marked
  · have result : ∀ code, classify c r (atVerdict c key s) = some code → k = code := fun code hc =>
      passed.settled r k hrk code (hc ▸ mark r k hrk)
    refine ⟨fun out => result _ (classify_notGranted out), fun e fresh defined => ?_⟩
    intro bound raises marked lets
    have fresh' : freshEntry (.slot c) r (atVerdict c key s).copies = some e := fresh
    have defined' : rangeDefined (atVerdict c key s).copies r = true := defined
    have state : t.copies.watch.state = m.copies.watch.state := by rw [tail.cWatch]
    have opened : marked → lets → (r, none) ∈ unlockMarks c l (atVerdict c key s) := fun hm hl => by
      have := mark r k hrk
      rwa [classify_marked fresh' defined' hm, boundResult_lets (s := atVerdict c key s) hl] at this
    have bound_ : marked → ∀ code, boundResult r (atVerdict c key s) = some code → k = code :=
      fun hm code hc => result code ((classify_marked fresh' defined' hm).trans hc)
    refine ⟨fun hd run other => result _ (classify_open fresh' defined' run other),
      fun hd d ws run => result _ (classify_closing fresh' defined' run), fun run => result _ (classify_erased fresh' defined' run),
      fun hm hb hu => bound_ hm _ (boundResult_pending (s := atVerdict c key s) hb hu),
      fun hm hb hu => bound_ hm _ (boundResult_elsewhere (s := atVerdict c key s) hb hu), ?_⟩
    · intro w withheld
      refine ⟨fun hm hl off => ?_, fun hm hl on => ?_⟩
      · obtain ⟨-, off⟩ := off
        refine (passed.withheld r k hrk (opened hm hl) _ ?_).1
        rw [passWithheld_eq, ← state]
        exact if_pos off
      · have held : passWithheld c m = none := by
          by_cases elsewhere : ∃ r, (r, Code.boundElsewhere) ∈ res
          · rw [passWithheld_eq, ← state]
            exact if_neg fun off => on ⟨elsewhere, off⟩
          · rw [idle fun x => elsewhere (where_.mpr x), passWithheld_eq, if_neg]
            change ¬ (alive s.copies.watch.state = false ∨ s.copies.watch.state = .alarmed ∧ _)
            rw [rest.1]
            rintro (x | ⟨x, -⟩) <;> cases x
        rw [held] at passed
        obtain ⟨denied, tried⟩ := passed.openTried hrk (opened hm hl) judged fresh'
        refine ⟨denied, fun under => ?_⟩
        obtain ⟨y, x, same, last, records, empties, tried⟩ := tried under
        have := tried.marked same ((congrArg (fun v : Vector RangeRt 16 => v[r]) f.ranges).trans last) records empties
          stays closes hm
        rw [← state] at this
        exact this

end Sys2Proof.Machine
end


-- ==== Sys2Proof/Proofs/RekeyEnds.lean ====
section
/-! PROOF. The end of a rekey, the closing steps with the release of the hold list, and the next window (R53, R54, R114,
R117, R119, R120): O23. -/

-- As in the tests: each theorem that waits for the kernel in parallel would keep a thread.
set_option Elab.async false

namespace Sys2Proof.Machine

/-! ## The order of two writes -/

theorem coalesce_mem {b : Block} {w : RecWrite} {q : List PendingWrite} {x : Nat × List PendingWrite}
    (h : coalesce b w q = some x) : w ∈ x.2.map PendingWrite.what := by
  induction q generalizing x with
  | nil => cases h
  | cons a l ih =>
    unfold coalesce at h
    split at h
    · cases h
      exact List.mem_cons_self
    · obtain ⟨y, hy, rfl⟩ := Option.map_eq_some_iff.mp h
      exact List.mem_cons_of_mem _ (ih hy)

/-- R184: a write of another record that its block asks for later joins no write before this one. -/
theorem coalesce_follows {b : Block} {w : RecWrite} {pre post : List PendingWrite} {p : PendingWrite}
    {x : Nat × List PendingWrite} (hp : p.blocks.contains b = true) (hw : writeRecord p.what ≠ writeRecord w)
    (h : coalesce b w (pre ++ p :: post) = some x) : [p.what, w].Sublist (x.2.map PendingWrite.what) := by
  induction pre generalizing x with
  | nil =>
    unfold coalesce at h
    rw [List.nil_append] at h
    simp only [hw, false_and, if_false] at h
    obtain ⟨y, hy, rfl⟩ := Option.map_eq_some_iff.mp h
    exact (List.singleton_sublist.mpr (coalesce_mem hy)).cons_cons p.what
  | cons a pre ih =>
    rw [List.cons_append] at h
    unfold coalesce at h
    split at h
    · rename_i joined
      have := List.all_eq_true.mp joined.2 p (by simp)
      rw [hp] at this
      simp at this
    · obtain ⟨y, hy, rfl⟩ := Option.map_eq_some_iff.mp h
      exact (ih hy).cons _

/-- What a block has asked for: it is under way, or waits in the queue. -/
def Asked (b : Block) (w : RecWrite) (st : Store) : Prop :=
  (∃ p, st.active = some p ∧ p.what = w)
    ∨ st.active.isSome = true ∧ ∃ pre p post, st.queue = pre ++ p :: post ∧ p.what = w ∧ p.blocks.contains b = true

theorem coalesce_asked {b : Block} {w : RecWrite} {q : List PendingWrite} {x : Nat × List PendingWrite}
    (h : coalesce b w q = some x) : ∃ pre p post, x.2 = pre ++ p :: post ∧ p.what = w ∧ p.blocks.contains b = true := by
  induction q generalizing x with
  | nil => cases h
  | cons a l ih =>
    unfold coalesce at h
    split at h
    · cases h
      refine ⟨[], _, l, rfl, rfl, ?_⟩
      dsimp only
      split
      · assumption
      · simp
    · obtain ⟨y, hy, rfl⟩ := Option.map_eq_some_iff.mp h
      obtain ⟨pre, p, post, e, h1, h2⟩ := ih hy
      exact ⟨a :: pre, p, post, by rw [e]; rfl, h1, h2⟩

theorem requestWrite_asked (b : Block) (w : RecWrite) (st : Store) : Asked b w (requestWrite b w st) := by
  unfold requestWrite
  split
  · exact .inl ⟨_, rfl, rfl⟩
  · rename_i a ha
    split
    · rename_i id q hq
      exact .inr ⟨by rw [ha]; rfl, coalesce_asked hq⟩
    · exact .inr ⟨by rw [ha]; rfl, st.queue, _, [], rfl, rfl, by simp⟩

/-- The writes that a store has before it, in the order in which they are stored. -/
def ahead (st : Store) : List RecWrite := (st.active.toList ++ st.queue).map PendingWrite.what

/-- R183, R184: one block's writes of two records are stored in the order in which it asked for them. -/
theorem requestWrite_follows {b : Block} {v w : RecWrite} {st : Store} (h : Asked b v st)
    (other : writeRecord v ≠ writeRecord w) : [v, w].Sublist (ahead (requestWrite b w st)) := by
  unfold ahead requestWrite
  rcases h with ⟨p, active, rfl⟩ | ⟨active, pre, p, post, queue, rfl, hp⟩
  · simp only [active]
    cases joined : coalesce b w st.queue with
    | some x =>
      simp only [Option.toList_some, List.singleton_append, List.map_cons]
      exact (List.singleton_sublist.mpr (coalesce_mem joined)).cons_cons _
    | none =>
      simp only [Option.toList_some, List.singleton_append, List.map_cons, List.map_append, List.map_nil]
      exact (List.singleton_sublist.mpr (List.mem_append_right _ List.mem_cons_self)).cons_cons _
  · obtain ⟨a, ha⟩ := Option.isSome_iff_exists.mp active
    simp only [ha, queue]
    cases joined : coalesce b w (pre ++ p :: post) with
    | some x =>
      simp only [Option.toList_some, List.singleton_append, List.map_cons]
      exact (coalesce_follows hp other joined).cons _
    | none =>
      simp only [Option.toList_some, List.singleton_append, List.map_cons, List.map_append, List.map_nil]
      refine List.Sublist.cons _ ?_
      have first : [p.what].Sublist (List.map PendingWrite.what pre ++ p.what :: List.map PendingWrite.what post) :=
        List.singleton_sublist.mpr (by simp)
      exact first.append (List.Sublist.refl [w])

/-! ## The end of a rekey -/

/-- R120: the range's record once its rekey has ended. -/
def endedRange (k : RekeyRec) (s : State) : RangeRec :=
  { s.copies.ranges[k.range] with
    current := s.copies.ranges[k.range].next, next := none, generation := k.nextGeneration }

/-- R120: the two writes that end a rekey. -/
def endWrites (k : RekeyRec) (s : State) : State :=
  putRekey none (putBy .rekeyEngine (.range k.range (endedRange k s)) s)

theorem endRekey_eq (k : RekeyRec) (seen : Nat) (s : State) : endRekey k seen s
    = addWait (withTouched (endWrites k) s).1 (.rekeyEnded k.range) { (withTouched (endWrites k) s).2 with
      rekey := { (withTouched (endWrites k) s).2.rekey with seen := some (k.range, seen), completing := true } } := rfl

theorem endWrites_left (k : RekeyRec) (s : State) :
    (endWrites k s).copies = { s.copies with ranges := s.copies.ranges.set k.range (endedRange k s), rekey := none }
      ∧ [RecWrite.range k.range (endedRange k s), RecWrite.rekey none].Sublist (ahead (endWrites k s).store) :=
  ⟨rfl, requestWrite_follows (requestWrite_asked _ _ _) nofun⟩

theorem withTouched_left (f : State → State) (s : State) :
    (withTouched f s).2.copies = (f { s with store := { s.store with touched := [] } }).copies
      ∧ ahead (withTouched f s).2.store = ahead (f { s with store := { s.store with touched := [] } }).store := ⟨rfl, rfl⟩

/-- R120: what the end of a rekey leaves. -/
theorem endRekey_left (k : RekeyRec) (seen : Nat) (s : State) :
    (endRekey k seen s).copies = { s.copies with ranges := s.copies.ranges.set k.range (endedRange k s), rekey := none }
      ∧ (endRekey k seen s).rekey = { s.rekey with seen := some (k.range, seen), completing := true }
      ∧ [RecWrite.range k.range (endedRange k s), RecWrite.rekey none].Sublist (ahead (endRekey k seen s).store)
      ∧ (endRekey k seen s).cmd = s.cmd := by
  obtain ⟨copies, order⟩ := endWrites_left k { s with store := { s.store with touched := [] } }
  obtain ⟨copies', ahead'⟩ := withTouched_left (endWrites k) s
  have rekey : (withTouched (endWrites k) s).2.rekey = s.rekey := rfl
  have cmd : (withTouched (endWrites k) s).2.cmd = s.cmd := rfl
  rw [endRekey_eq]
  generalize withTouched (endWrites k) s = x at copies' ahead' rekey cmd ⊢
  rw [← ahead'] at order
  exact ⟨copies'.trans copies,
    congrArg (fun y : RekeyEngine => { y with seen := some (k.range, seen), completing := true }) rekey, order, cmd⟩

/-- R117, R120: an OK for the last window. -/
theorem rekeyAdvances_last {k : RekeyRec} {w : Extent} {s : State}
    (last : restFrontier s.copies k.range (extentEnd w) = rangeEnd s.copies k.range) : ∃ a, rekeyAdvances k w s = endRekey k k.frontier a
      ∧ Frame [.secQueue, .marks] s a
      ∧ a.cmd.secQueue = halfNoticed k (restFrontier s.copies k.range (extentEnd w)) s := by
  unfold rekeyAdvances halfNoticed
  dsimp only
  rw [if_pos last]
  refine ⟨_, rfl, .ite (frame_noticeSec _ s) (.refl _ s), ?_⟩
  split <;> rfl

theorem rekey_ends {num : Nat} {o : MigOrder} {k : RekeyRec} {s : State} (h : LinkTakes s) (ho : s.rekey.order = some o)
    (hn : o.num = num) (hk : s.copies.rekey = some k)
    (last : restFrontier s.copies k.range (extentEnd o.window) = rangeEnd s.copies k.range) :
    Next (exec (.orderDone num true) s) fun t =>
      t.copies = { s.copies with ranges := s.copies.ranges.set k.range (endedRange k s), rekey := none }
      ∧ t.rekey = { s.rekey with order := none, seen := some (k.range, k.frontier), completing := true }
      ∧ [RecWrite.range k.range (endedRange k s), RecWrite.rekey none].Sublist (ahead t.store)
      ∧ t.ranges = s.ranges ∧ t.slots = s.slots
      ∧ t.cmd.secQueue = halfNoticed k (restFrontier s.copies k.range (extentEnd o.window)) s := by
  obtain ⟨a, run, f, half⟩ := rekeyAdvances_last (s := { s with rekey := { s.rekey with order := none } }) last
  have done : orderDone num true s = endRekey k k.frontier a := by
    unfold orderDone
    simp only [ho, hn, if_true]
    unfold rekeyCompletes
    simp only [hk, if_true]
    exact run
  obtain ⟨copies, rekey, order, cmd⟩ := endRekey_left k k.frontier a
  have g := frame_endRekey k k.frontier a
  have same : endedRange k a = endedRange k s := by
    unfold endedRange
    rw [f.copies]
  rw [same] at copies order
  refine ⟨_, (event_arrive h rfl).trans (congrArg (fun m => Host.Outcome.next (clearTouched m))
    ((takeFrame_up h.2.1 (by simp)).trans done)), ?_, ?_, order, ?_, ?_, ?_⟩
  · refine copies.trans ?_
    rw [f.copies]
  · refine rekey.trans ?_
    rw [f.rekey]
  · exact g.ranges.trans f.ranges
  · exact g.slots.trans f.slots
  · exact (congrArg CommandProcessor.secQueue cmd).trans half

/-! ## The release of the hold list -/

/-- A hold list of which `l` is left, each of its tags HELD. -/
def Holds (l : List (Fin 32)) (s : State) : Prop :=
  s.adm.hold = l ∧ l.Nodup ∧ ∀ t ∈ l, ∃ c e, s.adm.table[t] = .held c e

theorem HoldListOk.holds {s : State} (h : HoldListOk s) : Holds s.adm.hold s := ⟨rfl, h.1, fun t ht => (h.2 t).mp ht⟩

theorem filter_head {g : Fin 32} {l : List (Fin 32)} (h : (g :: l).Nodup) : (g :: l).filter (fun u => u != g) = l := by
  obtain ⟨out, -⟩ := List.nodup_cons.mp h
  rw [List.filter_cons_of_neg (by simp)]
  exact List.filter_eq_self.mpr fun u hu => by
    have : u ≠ g := fun e => out (e ▸ hu)
    simpa using this

theorem named_iff (segs : List Segment) (k : Fin 18) :
    (segs.any fun g => decide (g.treatment = .cipher k)) = true ↔ k ∈ slotsNamed segs := by
  rw [mem_slotsNamed, List.any_eq_true]
  simp

/-- R54: one step of the release. -/
theorem releaseOne_walked {g : Fin 32} {rest : List (Fin 32)} {u : State} (h : Holds (g :: rest) u) :
    WalkedAnew g u (releaseOne g u) ∧ Holds rest (releaseOne g u) := by
  obtain ⟨hold, once, held⟩ := h
  obtain ⟨out, once'⟩ := List.nodup_cons.mp once
  obtain ⟨cls, e, hg⟩ := held g List.mem_cons_self
  have left : u.adm.hold.filter (fun x => x != g) = u.adm.hold.tail := by rw [hold, filter_head once]; rfl
  have tail : u.adm.hold.tail = rest := by rw [hold]; rfl
  have still : ∀ x : Entry, ∀ t ∈ rest, ∃ c e, (u.adm.table.set g x)[t] = .held c e := fun x t ht => by
    have : (g : Nat) ≠ t := fun i => out (Fin.ext i ▸ ht)
    obtain ⟨c, e, he⟩ := held t (List.mem_cons_of_mem _ ht)
    exact ⟨c, e, by simpa [this] using he⟩
  cases judged : judgeAll u cls (rangeWalk u e) with
  | inl f =>
    obtain ⟨c, r⟩ := f
    have run : releaseOne g u
        = pushFrame (.xferRefuse g c (some r)) { u with adm := ⟨u.adm.table.set g .free, u.adm.hold.tail⟩ } := by
      unfold releaseOne
      simp only [hg, judged]
      unfold refuseHeld
      dsimp only
      change pushFrame _ { u with adm := ⟨u.adm.table.set g .free, u.adm.hold.filter (fun x => x != g)⟩ } = _
      rw [left]
    have f := frame_pushFrame (.xferRefuse g c (some r)) { u with adm := ⟨u.adm.table.set g .free, u.adm.hold.tail⟩ }
    rw [← run] at f
    refine ⟨⟨cls, e, hg, fun c' r' x => ?_, fun segs x => (nomatch judged.symm.trans x)⟩,
      f.hold.trans tail, once', fun t ht => ?_⟩
    · cases judged.symm.trans x
      exact run
    · rw [f.table]
      exact still .free t ht
  | inr segs =>
    obtain ⟨v, run, pins⟩ := admitEntry_eq g cls e none segs { u with adm := { u.adm with hold := u.adm.hold.tail } }
    have run : releaseOne g u = pushFrame (.xferAdmit g) { u with
        adm := ⟨u.adm.table.set g (.admitted ⟨cls, e, none, segs, 0, 0, 0, false⟩), u.adm.hold.tail⟩, slots := v } := by
      refine Eq.trans ?_ run
      unfold releaseOne
      simp only [hg, judged, left]
    have f := frame_pushFrame (.xferAdmit g) { u with
        adm := ⟨u.adm.table.set g (.admitted ⟨cls, e, none, segs, 0, 0, 0, false⟩), u.adm.hold.tail⟩, slots := v }
    rw [← run] at f
    have slots : (releaseOne g u).slots = v := f.slots
    refine ⟨⟨cls, e, hg, fun c' r' x => (nomatch judged.symm.trans x), fun segs' x => ?_⟩,
      f.hold.trans tail, once', fun t ht => ?_⟩
    · cases judged.symm.trans x
      refine ⟨by rw [slots]; exact run, fun k => ?_⟩
      rw [slots, pins k]
      exact if_congr (named_iff segs k) rfl rfl
    · rw [f.table]
      exact still _ t ht

theorem frame_walked {g : Fin 32} {u m : State} (h : WalkedAnew g u m) : Frame [.table, .hold, .slots, .outbox] u m := by
  obtain ⟨cls, e, -, refused, admits⟩ := h
  cases judged : judgeAll u cls (rangeWalk u e) with
  | inl f =>
    rw [refused f.1 f.2 judged]
    exact (frame_pushFrame _ _).after (L := [.table, .hold]) ⟨rfl, rfl, le_rfl⟩
  | inr segs =>
    rw [(admits segs judged).1]
    exact (frame_pushFrame _ _).after (L := [.table, .hold, .slots]) ⟨rfl, rfl, le_rfl⟩

/-- R53: the release of a hold list. -/
theorem releasedFrom_foldl {l : List (Fin 32)} {u : State} (h : Holds l u) :
    ReleasedFrom l u (l.foldl (fun s t => releaseOne t s) u) := by
  induction l generalizing u with
  | nil => exact ⟨h.1, rfl, rfl, List.prefix_rfl⟩
  | cons g rest ih =>
    obtain ⟨walked, holds⟩ := releaseOne_walked h
    exact ⟨h.1, _, walked, ih holds⟩

theorem releaseHold_released {u : State} (h : HoldListOk u) : ReleasedFrom u.adm.hold u (releaseHold u) :=
  releasedFrom_foldl h.holds

/-- What a release looks at and changes. -/
structure Alike (u v : State) : Prop where
  copies : v.copies = u.copies
  ranges : v.ranges = u.ranges
  rekey : v.rekey = u.rekey
  adm : v.adm = u.adm
  slots : v.slots = u.slots
  drive : v.drive = u.drive

theorem judgeAll_congr {u v : State} (copies : v.copies = u.copies) (ranges : v.ranges = u.ranges) (cls : XferClass)
    (l : List Piece) : judgeAll v cls l = judgeAll u cls l := by
  induction l with
  | nil => rfl
  | cons q l ih =>
    have one : judgePiece v cls q = judgePiece u cls q := by
      unfold judgePiece
      rw [copies, ranges]
    unfold judgeAll
    rw [one, ih]

theorem Alike.judged {u v : State} (h : Alike u v) (cls : XferClass) (e : Extent) :
    judgeAll v cls (rangeWalk v e) = judgeAll u cls (rangeWalk u e) := by
  have walk : rangeWalk v e = rangeWalk u e := rangeWalk_congr (by rw [h.copies]) (by rw [h.copies]) (by
    unfold rekeyView
    rw [h.rekey, h.copies]) e
  rw [judgeAll_congr h.copies h.ranges, walk]

/-- Which frames a state has produced does not depend on what else it holds. -/
theorem pushFrame_alike {f : OutFrame} {u v : State} (drive : v.drive = u.drive) :
    pushFrame f v = { v with drive := (pushFrame f u).drive } := by
  unfold pushFrame
  rw [drive]
  split
  · rfl
  · rw [← drive]

/-- A release from a state is one from any state that it looks alike. -/
theorem ReleasedFrom.of {l : List (Fin 32)} {u v t : State} (h : ReleasedFrom l u t) (a : Alike u v) : ReleasedFrom l v t := by
  induction l generalizing u v with
  | nil =>
    obtain ⟨h1, h2, h3, h4⟩ := h
    exact ⟨a.adm ▸ h1, a.adm ▸ h2, a.slots ▸ h3, a.drive ▸ h4⟩
  | cons g rest ih =>
    obtain ⟨hold, m, ⟨cls, e, hg, refused, admits⟩, tail⟩ := h
    have walked : WalkedAnew g u m := ⟨cls, e, hg, refused, admits⟩
    have f := frame_walked walked
    refine ⟨a.adm ▸ hold, { v with adm := m.adm, slots := m.slots, drive := m.drive }, ⟨cls, e, a.adm ▸ hg, fun c r x => ?_,
      fun segs x => ?_⟩, ih tail ⟨a.copies.trans f.copies.symm, a.ranges.trans f.ranges.symm, a.rekey.trans f.rekey.symm,
        rfl, rfl, rfl⟩⟩
    · have same := refused c r ((a.judged cls e).symm.trans x)
      have p := pushFrame_alike (f := .xferRefuse g c (some r))
        (u := { u with adm := ⟨u.adm.table.set g .free, u.adm.hold.tail⟩ })
        (v := { v with adm := ⟨v.adm.table.set g .free, v.adm.hold.tail⟩ }) a.drive
      rw [← same] at p
      have adm : m.adm = ⟨v.adm.table.set g .free, v.adm.hold.tail⟩ := by
        rw [same, (frame_pushFrame _ _).adm, a.adm]
      have slots : m.slots = v.slots := by
        rw [same, (frame_pushFrame _ _).slots]
        exact a.slots.symm
      rw [p, adm, slots]
    · obtain ⟨same, pins⟩ := admits segs ((a.judged cls e).symm.trans x)
      have p := pushFrame_alike (f := .xferAdmit g)
        (u := { u with
          adm := ⟨u.adm.table.set g (.admitted ⟨cls, e, none, segs, 0, 0, 0, false⟩), u.adm.hold.tail⟩, slots := m.slots })
        (v := { v with
          adm := ⟨v.adm.table.set g (.admitted ⟨cls, e, none, segs, 0, 0, 0, false⟩), v.adm.hold.tail⟩, slots := m.slots })
        a.drive
      rw [← same] at p
      have adm : m.adm
          = ⟨v.adm.table.set g (.admitted ⟨cls, e, none, segs, 0, 0, 0, false⟩), v.adm.hold.tail⟩ := by
        rw [same, (frame_pushFrame _ _).adm, a.adm]
      refine ⟨?_, by rw [a.slots]; exact pins⟩
      rw [p, adm]

theorem ReleasedFrom.left {l : List (Fin 32)} {u t w : State} (h : ReleasedFrom l u t) (adm : w.adm = t.adm)
    (slots : w.slots = t.slots) (outbox : t.drive.outbox <+: w.drive.outbox) : ReleasedFrom l u w := by
  induction l generalizing u with
  | nil =>
    obtain ⟨h1, h2, h3, h4⟩ := h
    exact ⟨h1, adm.trans h2, slots.trans h3, h4.trans outbox⟩
  | cons g rest ih =>
    obtain ⟨hold, m, walked, tail⟩ := h
    exact ⟨hold, m, walked, ih tail⟩

theorem ReleasedFrom.emptied {l : List (Fin 32)} {u t : State} (h : ReleasedFrom l u t) : t.adm.hold = [] := by
  induction l generalizing u with
  | nil => rw [h.2.1, h.1]
  | cons g rest ih =>
    obtain ⟨-, m, -, tail⟩ := h
    exact ih tail

/-! ## The work that the last write sets off -/

theorem takeReady_one {p : Cont → Bool} {job : Cont} (h : p job = true) : takeReady p [⟨[], job⟩] = some (job, []) := by
  simp [takeReady, h]

theorem runReady_none {p : Cont → Bool} {n : Nat} {s : State} (h : s.store.waits = []) : runReady p n s = s := by
  cases n with
  | zero => rfl
  | succ n =>
    unfold runReady
    rw [h]
    rfl

/-- A completed write that sets off one piece of work: the state in which that begins. -/
theorem exec_completesTo {job : Cont} {s : State} (h : CompletesTo job s) (hj : isWindow job = false)
    (frame : ∀ m, Frame (allFields.filter fun f => f ≠ .sec ∧ f ≠ .plat ∧ f ≠ .waits) m (runCont job m)) :
    ∃ m, Frame [.nv, .requests, .waits, .sec, .plat] s m ∧ m.store.waits = []
      ∧ exec .storeWriteComplete s = .next (clearTouched (runCont job m)) := by
  obtain ⟨hb, sec, plat, p, active, waits⟩ := h
  have f := frame_completeWrite s
  have left : (completeWrite s).store.waits = [⟨[], job⟩] := by
    unfold completeWrite
    rw [active, waits]
    simp
  have sec' : (completeWrite s).cmd.sec = none := by
    unfold completeWrite
    rw [active]
    simp [sec]
  have plat' : (completeWrite s).cmd.plat = none := by
    unfold completeWrite
    rw [active]
    simp [plat]
  generalize hm : completeWrite s = m at f left sec' plat'
  refine ⟨{ m with store := { m.store with waits := [] } }, f.andThen (M := [.waits]) ⟨rfl, rfl, le_rfl⟩, rfl,
    (event_of_between hb).trans (congrArg (fun m => Host.Outcome.next (clearTouched m)) ?_)⟩
  have g := frame { m with store := { m.store with waits := [] } }
  have ran : runReady (fun c => !isWindow c) 1 m = runCont job { m with store := { m.store with waits := [] } } := by
    unfold runReady
    rw [left, takeReady_one (by rw [hj]; rfl)]
    rfl
  have waits_ := g.waits
  have sec_ := g.sec.trans sec'
  have plat_ := g.plat.trans plat'
  unfold storeCompletes
  rw [active]
  dsimp only
  rw [hm, left]
  dsimp only [List.length_cons, List.length_nil]
  rw [ran]
  generalize runCont job { m with store := { m.store with waits := [] } } = t at waits_ sec_ plat_
  have due : secDue t = t := by
    unfold secDue
    simp only [sec_]
  have answers : platAnswerDue t = t := by
    unfold platAnswerDue
    simp only [plat_]
  rw [due, answers, runReady_none waits_]

theorem Frame.drive {L : List Field} {s t : State} (h : Frame L s t)
    (hf : ∀ f ∈ ([.up, .units, .inbound, .outbox, .lastSent] : List Field), f ∉ L := by decide +kernel) :
    t.drive = s.drive := by
  simp only [List.forall_mem_cons] at hf
  rw [← h.eq]
  simp only [overlay, hf, if_false]

/-! ## The closing steps -/

/-- R119: the fence is cleared, and no completion stands any more. -/
def closingCleared (s : State) : State := { s with rekey := { s.rekey with fence := none, seen := none, completing := false } }

theorem outbox_chooseWindow (s : State) : s.drive.outbox <+: (chooseWindow s).drive.outbox := by
  have here : Produced s.drive.outbox s := List.prefix_rfl
  have chosen : Produced s.drive.outbox (chooseWindow s) := by
    unfold chooseWindow
    split
    · split
      · exact produced_sendMigrateOrder here
      · exact here
    · exact here
  exact chosen

/-- R119: between `s` and `t` the closing steps have been taken; `n` stands before the window is chosen. -/
structure Closing (s n t : State) : Prop where
  released : ReleasedFrom s.adm.hold (closingCleared s) n
  frame : Frame [.hold, .table, .slots, .outbox] (closingCleared s) n
  choice : t = chooseWindow n

theorem closingSteps_closing {s : State} (h : HoldListOk s) : ∃ n, Closing s n (closingSteps s) :=
  ⟨releaseHold (closingCleared s), releaseHold_released (u := closingCleared s) h,
    (frame_releaseHold _).within, rfl⟩

theorem Closing.out {s n t : State} (h : Closing s n t) : ReleasedFrom s.adm.hold (closingCleared s) t := by
  have f := frame_chooseWindow n
  have box := outbox_chooseWindow n
  rw [← h.choice] at f box
  exact h.released.left f.adm f.slots box

/-- With no record there is no window to choose. -/
theorem chooseWindow_none {s : State} (h : s.copies.rekey = none) : chooseWindow s = s := by
  refine chooseWindow_not_due ?_
  unfold windowDue
  simp only [h]

theorem frame_closing_work (m : State) :
    Frame (allFields.filter fun f => f ≠ .sec ∧ f ≠ .plat ∧ f ≠ .waits) m (runCont .rekeyClosing m) :=
  (frame_closingSteps m).within

theorem frame_ended_work (r : Fin 16) (m : State) :
    Frame (allFields.filter fun f => f ≠ .sec ∧ f ≠ .plat ∧ f ≠ .waits) m (runCont (.rekeyEnded r) m) :=
  (frame_rekeyEnded r m).within

theorem holdListOk_of {s m : State} (h : HoldListOk s) (adm : m.adm = s.adm) : HoldListOk m := by
  unfold HoldListOk
  rw [adm]
  exact h

/-- R119: the closing steps on the completion of their write. -/
theorem closing_completes {s : State} (h : CompletesTo .rekeyClosing s) (ok : HoldListOk s) :
    Next (exec .storeWriteComplete s) fun t =>
      ReleasedFrom s.adm.hold (closingCleared s) t ∧ t.ranges = s.ranges ∧ t.copies = s.copies
      ∧ (s.copies.rekey = none → t.rekey = (closingCleared s).rekey)
      ∧ (s.adm.hold = [] → t.slots = s.slots ∧ t.adm = s.adm) := by
  obtain ⟨m, f, -, run⟩ := exec_completesTo h rfl frame_closing_work
  have all := frame_closingSteps m
  obtain ⟨n, closing⟩ := closingSteps_closing (holdListOk_of ok f.adm)
  have released : ReleasedFrom s.adm.hold (closingCleared s) (closingSteps m) := by
    rw [← f.adm]
    exact closing.out.of ⟨f.copies.symm, f.ranges.symm, by
      change { s.rekey with fence := none, seen := none, completing := false } = _
      rw [← f.rekey]
      rfl, f.adm.symm, f.slots.symm, f.drive.symm⟩
  refine ⟨_, run, released.left rfl rfl List.prefix_rfl, all.ranges.trans f.ranges, all.copies.trans f.copies, fun off => ?_,
    fun empty => ?_⟩
  · have g := closing.frame
    have still : closingSteps m = n := by
      rw [closing.choice]
      exact chooseWindow_none (g.cRekey.trans (f.cRekey.trans off))
    change (closingSteps m).rekey = _
    rw [still, g.rekey]
    change { m.rekey with fence := none, seen := none, completing := false } = _
    rw [f.rekey]
    rfl
  · rw [empty] at released
    exact ⟨released.2.2.1, released.2.1⟩

/-- R114, R115, R119: the window that the closing steps choose. -/
theorem closing_chooses {k : RekeyRec} {s : State} (h : CompletesTo .rekeyClosing s) (ok : HoldListOk s)
    (hk : s.copies.rekey = some k) (order : s.rekey.order = none) (intended : s.rekey.intended = none)
    (up : s.drive.up = true) : Next (exec .storeWriteComplete s) fun t =>
      t.adm.hold = [] ∧ t.rekey.seen = none ∧ t.rekey.completing = false ∧ t.copies = s.copies
      ∧ (¬(k.state = .running ∧ isOpen s.ranges[k.range].run = true) →
        t.rekey.fence = none ∧ t.rekey.intended = none ∧ t.rekey.order = none)
      ∧ (k.state = .running ∧ isOpen s.ranges[k.range].run = true → WindowChosen k { s with adm := t.adm } t) := by
  obtain ⟨m, f, waits, run⟩ := exec_completesTo h rfl frame_closing_work
  have all := frame_closingSteps m
  obtain ⟨n, closing⟩ := closingSteps_closing (holdListOk_of ok f.adm)
  have g := closing.frame
  have c := frame_chooseWindow n
  rw [← closing.choice] at c
  have rekey : n.rekey = { s.rekey with fence := none, seen := none, completing := false } := by
    rw [g.rekey]
    change { m.rekey with fence := none, seen := none, completing := false } = _
    rw [f.rekey]
  have copies : n.copies = s.copies := g.copies.trans f.copies
  have waits' : n.store.waits = [] := g.waits.trans waits
  have hk' : n.copies.rekey = some k := by rw [copies]; exact hk
  have due : windowDue n = true ↔ k.state = .running ∧ isOpen s.ranges[k.range].run = true := by
    have ranges : n.ranges = s.ranges := g.ranges.trans f.ranges
    have up' : n.drive.up = true := g.up.trans (f.up.trans up)
    unfold windowDue
    simp only [hk', rekey, ranges, up', waits', order, intended]
    simp
  refine ⟨_, run, closing.out.emptied, c.seen.trans (by rw [rekey]), c.completing.trans (by rw [rekey]),
    all.copies.trans f.copies, fun off => ?_, fun on => ?_⟩
  · have still : closingSteps m = n := by
      rw [closing.choice]
      exact chooseWindow_not_due (Bool.eq_false_of_not_eq_true fun x => off (due.mp x))
    change (closingSteps m).rekey.fence = none ∧ (closingSteps m).rekey.intended = none ∧ (closingSteps m).rekey.order = none
    rw [still, rekey]
    exact ⟨rfl, intended, order⟩
  · have made := chooseWindow_due hk' (due.mpr on)
    rw [← closing.choice] at made
    exact made.of (s := { s with adm := (closingSteps m).adm }) (by rw [copies]) (by rw [copies]) c.adm.symm (by rw [rekey])

/-- R120: the range takes its NEXT slot. -/
theorem handOver_opened {r : Fin 16} {h : Held} {n : Fin 18} {s : State} (run : s.ranges[r].run = .opened h)
    (next : h.next = some n) : (handOver r s).ranges
        = s.ranges.set r { s.ranges[r] with run := .opened { h with current := n, next := none } }
      ∧ (handOver r s).slots = s.slots.set h.current (retiredSlot s.slots[h.current]) := by
  unfold handOver
  simp only [run, next]
  exact ⟨rfl, rfl⟩

/-- R120: the end of a rekey on the completion of its writes. -/
theorem ended_completes {r : Fin 16} {h : Held} {k : Fin 18} {s : State} (done : CompletesTo (.rekeyEnded r) s)
    (off : s.copies.rekey = none) (ok : HoldListOk s) (run : s.ranges[r].run = .opened h) (next : h.next = some k)
    (ended : State) (he : ended = { s with
        ranges := s.ranges.set r { s.ranges[r] with run := .opened { h with current := k, next := none } }
        slots := s.slots.set h.current (retiredSlot s.slots[h.current])
        rekey := { s.rekey with fence := none, seen := none, completing := false } }) :
    Next (exec .storeWriteComplete s) fun t =>
      t.ranges = ended.ranges ∧ t.rekey = ended.rekey ∧ t.copies = s.copies ∧ ReleasedFrom s.adm.hold ended t
      ∧ t.cmd.secQueue = joinQueue 32 ⟨.rekeyDone r, false, s.cmd.seq⟩ s.cmd.secQueue
      ∧ (s.adm.hold = [] → t.slots = ended.slots ∧ t.adm = s.adm) := by
  subst he
  obtain ⟨m, f, -, event_⟩ := exec_completesTo done rfl (frame_ended_work r)
  obtain ⟨ranges, slots⟩ := handOver_opened (r := r) (s := m) (by rw [f.ranges]; exact run) next
  have g := frame_handOver r m
  have told : (noticeSec (.rekeyDone r) (handOver r m)).cmd.secQueue
      = joinQueue 32 ⟨.rekeyDone r, false, (handOver r m).cmd.seq⟩ (handOver r m).cmd.secQueue := rfl
  have w := frame_noticeSec (.rekeyDone r) (handOver r m)
  change exec _ s = .next (clearTouched (closingSteps (noticeSec (.rekeyDone r) (handOver r m)))) at event_
  generalize handOver r m = a at ranges slots g told w event_
  generalize noticeSec (.rekeyDone r) a = x at told w event_
  rw [f.ranges] at ranges
  rw [f.slots] at slots
  have ranges' := w.ranges.trans ranges
  have slots' := w.slots.trans slots
  have adm : x.adm = s.adm := w.adm.trans (g.adm.trans f.adm)
  have rekey : x.rekey = s.rekey := w.rekey.trans (g.rekey.trans f.rekey)
  have copies : x.copies = s.copies := w.copies.trans (g.copies.trans f.copies)
  have drive : x.drive = s.drive := w.drive.trans (g.drive.trans f.drive)
  have seq : a.cmd.seq = s.cmd.seq := g.seq.trans f.seq
  have all := frame_closingSteps x
  obtain ⟨n, closing⟩ := closingSteps_closing (holdListOk_of ok adm)
  have c := closing.frame
  have still : closingSteps x = n := by
    rw [closing.choice]
    exact chooseWindow_none (c.cRekey.trans ((congrArg Records.rekey copies).trans off))
  have engine : (closingSteps x).rekey = { s.rekey with fence := none, seen := none, completing := false } := by
    rw [still, c.rekey, ← rekey]
    rfl
  have released := closing.out
  rw [adm] at released
  have released := released.of (v := { s with
      ranges := s.ranges.set r { s.ranges[r] with run := .opened { h with current := k, next := none } }
      slots := s.slots.set h.current (retiredSlot s.slots[h.current])
      rekey := { s.rekey with fence := none, seen := none, completing := false } })
    ⟨copies.symm, ranges'.symm, by rw [← rekey]; rfl, adm.symm, slots'.symm, drive.symm⟩
  generalize closingSteps x = y at event_ all engine released
  refine ⟨_, event_, all.ranges.trans ranges', engine, all.copies.trans copies, released.left rfl rfl List.prefix_rfl, ?_,
    fun empty => ?_⟩
  · refine all.secQueue.trans ?_
    rw [told, seq, g.secQueue, f.secQueue]
  · rw [empty] at released
    exact ⟨released.2.2.1, released.2.1⟩

/-- Settles O23: the last window, the end of the rekey, and the closing steps without and with a record. -/
theorem rekeyEndsAndReleases : Obligations.RekeyEndsAndReleases :=
  ⟨fun _ _ _ _ h ho hn hk last => rekey_ends h ho hn hk last,
    fun _ _ _ _ done off ok run next => ended_completes done off ok run next _ rfl,
    fun _ h ok => closing_completes h ok,
    fun _ _ h ok hk order intended up => closing_chooses h ok hk order intended up⟩

end Sys2Proof.Machine
end


-- ==== Sys2Proof/Proofs/AlarmTracks.lean ====
section
/-! PROOF. What a command that may raise the alarm does with the ranges that were OPEN or CLOSING before it: each is still
so, or drained, and, where it is OPEN no more, no held descriptor touches it (R24, R55, R82, R148). -/

-- As in the tests: each theorem that waits for the kernel in parallel would keep a thread.
set_option Elab.async false

namespace Sys2Proof.Machine

/-! ## A transfer table that only shrinks -/

/-- Between `s` and `t` no entry has become ADMITTED and none HELD. -/
structure Shrinks (s t : State) : Prop where
  admitted : ∀ (g : Fin 32) x, t.adm.table[g] = .admitted x → s.adm.table[g] = .admitted x
  held : ∀ g ∈ t.adm.hold, ∀ k e, t.adm.table[g] = .held k e → g ∈ s.adm.hold ∧ s.adm.table[g] = .held k e

/-- No held descriptor satisfies `p`. -/
def HoldFree (p : Extent → Bool) (s : State) : Prop :=
  ∀ g ∈ s.adm.hold, ∀ k e, s.adm.table[g] = .held k e → p e = false

theorem shrinks_frame {L : List Field} {s t : State} (f : Frame L s t)
    (hf : ∀ f ∈ ([.table, .hold] : List Field), f ∉ L := by decide +kernel) : Shrinks s t := by
  have adm := f.adm hf
  refine ⟨fun g x hx => ?_, fun g hg k e he => ?_⟩
  · rwa [adm] at hx
  · rw [adm] at hg he
    exact ⟨hg, he⟩

theorem shrinks_setEntry {g : Fin 32} {x : Entry} {s : State} (ha : ∀ y, x ≠ .admitted y) (hh : ∀ k e, x ≠ .held k e) :
    Shrinks s (setEntry g x s) := by
  have at_ : ∀ t : Fin 32, (setEntry g x s).adm.table[t] = if t = g then x else s.adm.table[t] := fun t => by
    by_cases e : t = g
    · subst e
      simp [setEntry]
    · have : (g : Nat) ≠ t := fun i => e (Fin.ext i.symm)
      simp [setEntry, e, this]
  refine ⟨fun t y hy => ?_, fun t ht k e he => ?_⟩
  · rw [at_] at hy
    split at hy
    · exact absurd hy (ha y)
    · exact hy
  · rw [at_] at he
    split at he
    · exact absurd he (hh k e)
    · exact ⟨ht, he⟩

theorem shrinks_refuseHeldWhere (p : Extent → Bool) (c : Code) (r : Option (Fin 16)) (s : State) :
    Shrinks s (refuseHeldWhere p c r s) ∧ HoldFree p (refuseHeldWhere p c r s) := by
  have passed := refuse_over p c r s.adm.hold s
  rw [← refuseHeldWhere_eq] at passed
  obtain ⟨table, hold, -⟩ := passed
  generalize refuseHeldWhere p c r s = t at table hold
  have kept : ∀ g k e, g ∈ t.adm.hold → t.adm.table[g] = .held k e →
      g ∈ s.adm.hold ∧ cutHeld p s.adm.table[g] = false ∧ s.adm.table[g] = .held k e := by
    intro g k e hg he
    rw [hold, List.mem_filter] at hg
    obtain ⟨mem, safe⟩ := hg
    have safe : cutHeld p s.adm.table[g] = false := by simpa [mem] using safe
    rw [table, if_neg fun x => by rw [safe] at x; cases x.2] at he
    exact ⟨mem, safe, he⟩
  refine ⟨⟨fun g x hx => ?_, fun g hg k e he => ?_⟩, fun g hg k e he => ?_⟩
  · rw [table] at hx
    split at hx
    · cases hx
    · exact hx
  · obtain ⟨h1, -, h3⟩ := kept g k e hg he
    exact ⟨h1, h3⟩
  · obtain ⟨-, safe, at_⟩ := kept g k e hg he
    rw [at_] at safe
    exact safe

theorem Shrinks.drained {s t : State} (h : Shrinks s t) {r : Fin 16} (d : drained r s = true) : drained r t = true :=
  (drained_iff r t).mpr fun g x hx => (drained_iff r s).mp d g x (h.admitted g x hx)

theorem Shrinks.holdFree {s t : State} (h : Shrinks s t) {p : Extent → Bool} (f : HoldFree p s) : HoldFree p t :=
  fun g hg k e he => by
    obtain ⟨h1, h2⟩ := h.held g hg k e he
    exact f g h1 k e h2

/-! ## The ranges followed -/

/-- Each range that held slots in `s` holds some in `m`, or is drained; each that was OPEN is so, or no held descriptor
touches it. -/
structure Followed (s m : State) : Prop where
  ranges : m.copies.ranges = s.copies.ranges
  factory : m.copies.factory = s.copies.factory
  held : ∀ r : Fin 16, heldBy s.ranges[r].run ≠ none → heldBy m.ranges[r].run ≠ none ∨ drained r m = true
  opened : ∀ r : Fin 16, isOpen s.ranges[r].run = true → isOpen m.ranges[r].run = true ∨ HoldFree (touches s r) m

theorem Followed.refl (s : State) : Followed s s := ⟨rfl, rfl, fun _ h => .inl h, fun _ h => .inl h⟩

/-- Fields whose change does not matter to the ranges followed. -/
abbrev followedFields : List Field :=
  allFields.filter fun f => decide (f ∉ ([.ranges, .table, .hold, .cRanges, .cFactory] : List Field))

section Followed

variable {s m t : State}

theorem Followed.shrinks (h : Followed s m) (sh : Shrinks m t) (ranges : t.ranges = m.ranges)
    (records : t.copies.ranges = m.copies.ranges) (factory : t.copies.factory = m.copies.factory) : Followed s t := by
  refine ⟨records.trans h.ranges, factory.trans h.factory, fun r hr => ?_, fun r hr => ?_⟩
  · rw [ranges]
    exact (h.held r hr).imp_right sh.drained
  · rw [ranges]
    exact (h.opened r hr).imp_right sh.holdFree

theorem followed_keeps (s : State) : Keeps (Followed s) followedFields := fun _ _ f h =>
  h.shrinks (shrinks_frame f) f.ranges f.cRanges f.capacity

theorem Followed.touches_eq (h : Followed s m) (apart : RangesApart s.copies) (r : Fin 16) : touches m r = touches s r :=
  funext fun e => touches_congr apart h.ranges h.factory r e

/-- A drained range that no held descriptor touches may close. -/
theorem followed_closeFinish (h : Followed s m) {r : Fin 16} (d : drained r m = true)
    (o : isOpen m.ranges[r].run = true → HoldFree (touches s r) m) : Followed s (closeFinish r m) := by
  cases hh : heldBy m.ranges[r].run with
  | none => rwa [closeFinish_none hh]
  | some g =>
    have f := frame_closeFinish r m
    have sh : Shrinks m (closeFinish r m) := shrinks_frame f
    have ranges := closeFinish_ranges hh
    refine ⟨f.cRanges.trans h.ranges, f.capacity.trans h.factory, fun q hq => ?_, fun q hq => ?_⟩
    · rw [ranges_set_get ranges]
      split
      · rename_i e
        subst e
        exact .inr (sh.drained d)
      · exact (h.held q hq).imp_right sh.drained
    · rw [ranges_set_get ranges]
      split
      · rename_i e
        subst e
        refine .inr (sh.holdFree ?_)
        rcases h.opened q hq with x | x
        · exact o x
        · exact x
      · exact (h.opened q hq).imp_right sh.holdFree

theorem followed_closeIfDrained (r : Fin 16) (m : State) (h : Followed s m) : Followed s (closeIfDrained r m) := by
  rw [closeIfDrained_eq]
  split
  · rename_i now
    obtain ⟨⟨g, d, ws, run⟩, drains⟩ := (closesNow_iff r m).mp now
    refine followed_closeFinish h drains fun x => ?_
    rw [run] at x
    cases x
  · exact h

theorem followed_leaveAdmitted (x : Xfer) (m : State) (h : Followed s m) : Followed s (leaveAdmitted x m) := by
  have pins := Frame.foldl (f := fun s k => unpinSlot k s) (fun s k => frame_setSlot k _ s) (slotsNamed x.segs) m
  have closes := keeps_foldl (f := fun s r => closeIfDrained r s) (fun s r => followed_closeIfDrained r s)
    (rangesNamed x.segs) _ ((followed_keeps s).of h pins)
  unfold leaveAdmitted
  dsimp only
  split
  · exact (followed_keeps s).of closes (frame_sendMigrateOrder _)
  · exact closes

theorem followed_abortWhere (p : Entry → Bool) (m : State) (h : Followed s m) : Followed s (abortWhere p m) := by
  refine keeps_foldl (fun u g hu => ?_) _ m h
  split
  · unfold abortTag
    split
    · exact followed_leaveAdmitted _ _ (hu.shrinks (shrinks_setEntry nofun nofun) rfl rfl rfl)
    · exact hu
  · exact hu

theorem followed_refuseHeldWhere (p : Extent → Bool) (c : Code) (r : Option (Fin 16)) (m : State) (h : Followed s m) :
    Followed s (refuseHeldWhere p c r m) := by
  have f := frame_refuseHeldWhere p c r m
  exact h.shrinks (shrinks_refuseHeldWhere p c r m).1 f.ranges f.cRanges f.capacity

/-- R24: an immediate close. -/
theorem followed_immediateClose (apart : RangesApart s.copies) (r : Fin 16) (m : State) (h : Followed s m) :
    Followed s (immediateClose r m) := by
  have aborted := followed_abortWhere (admittedIn r) m h
  have drains := drained_abortWhere r m
  unfold immediateClose
  split
  · exact h
  · generalize abortWhere (admittedIn r) m = u at aborted drains ⊢
    dsimp only
    by_cases open_ : isOpen u.ranges[r].run = true
    · rw [if_pos open_]
      obtain ⟨sh, free⟩ := shrinks_refuseHeldWhere (touches u r) .locked (some r) u
      rw [aborted.touches_eq apart] at sh free ⊢
      exact followed_closeFinish (followed_refuseHeldWhere _ _ _ u aborted) (sh.drained drains) fun _ => free
    · rw [if_neg open_]
      exact followed_closeFinish aborted drains fun x => absurd x open_

theorem followed_closeAllAtOnce (apart : RangesApart s.copies) (m : State) (h : Followed s m) :
    Followed s (closeAllAtOnce m) :=
  keeps_foldl (f := fun s r => immediateClose r s) (fun u r => followed_immediateClose apart r u) _ _
    ((followed_keeps s).of h (frame_withdrawWindow m))

/-- R22, R55: an orderly close. -/
theorem followed_orderlyClose (apart : RangesApart s.copies) (r : Fin 16) (w : Option Waiter) (m : State) (h : Followed s m) :
    Followed s (orderlyClose r w m) := by
  unfold orderlyClose
  split
  · rename_i hd run
    obtain ⟨sh, free⟩ := shrinks_refuseHeldWhere (touches m r) .locked (some r)
      (setRun r (.closing hd closeSeconds w.toList) m)
    have f := frame_refuseHeldWhere (touches m r) .locked (some r) (setRun r (.closing hd closeSeconds w.toList) m)
    rw [h.touches_eq apart] at sh free f
    have refused : Followed s (refuseHeldWhere (touches s r) .locked (some r)
        (setRun r (.closing hd closeSeconds w.toList) m)) := by
      have sh' : Shrinks m _ := ⟨sh.admitted, sh.held⟩
      refine ⟨f.cRanges.trans h.ranges, f.capacity.trans h.factory, fun q hq => ?_, fun q hq => ?_⟩
      · rw [f.ranges, setRun_get]
        split
        · exact .inl nofun
        · exact (h.held q hq).imp_right sh'.drained
      · rw [f.ranges, setRun_get]
        split
        · rename_i e
          subst e
          exact .inr free
        · exact (h.opened q hq).imp_right sh'.holdFree
    rw [h.touches_eq apart]
    dsimp only
    split
    · exact followed_closeIfDrained r _ ((followed_keeps s).of refused (frame_withdrawWindow _))
    · exact followed_closeIfDrained r _ refused
  · rename_i hd d ws run
    have sh : Shrinks m (setRun r (.closing hd d (ws ++ w.toList)) m) := shrinks_frame (frame_setRun r _ m)
    refine ⟨h.ranges, h.factory, fun q hq => ?_, fun q hq => ?_⟩
    · rw [setRun_get]
      split
      · exact .inl nofun
      · exact (h.held q hq).imp_right sh.drained
    · rw [setRun_get]
      split
      · rename_i e
        subst e
        refine .inr (sh.holdFree ((h.opened q hq).resolve_left fun x => ?_))
        rw [run] at x
        cases x
      · exact (h.opened q hq).imp_right sh.holdFree
  · exact h

end Followed

/-! ## The alarm -/

/-- R148: no range holds slots, nothing pends and the decay timer is stopped. -/
structure AllClosed (m : State) : Prop where
  unheld : ∀ r, Unheld r m
  pending : m.cred.pendingSet = []
  decay : m.watch.decay = none

/-- The ranges of `s` are followed, and an alarm has closed every one. -/
def Track (s m : State) : Prop := Followed s m ∧ (m.copies.watch.state = .alarmed → AllClosed m)

/-- Fields whose change does not matter to the alarm. -/
abbrev trackFields : List Field := followedFields.filter fun f => decide (f ∉ ([.cWatch, .pendingSet, .decay] : List Field))

section Track

variable {s m t : State}

theorem Followed.track (h : Followed s m) (calm_ : m.copies.watch.state ≠ .alarmed) : Track s m := ⟨h, fun x => absurd x calm_⟩

/-- Where the watch state, the ranges and the timers stand, so does the alarm. -/
theorem Track.of (h : Track s m) (f : Followed s t) (state : t.copies.watch.state = m.copies.watch.state)
    (ranges : t.ranges = m.ranges) (pending : t.cred.pendingSet = m.cred.pendingSet) (decay : t.watch.decay = m.watch.decay) :
    Track s t := by
  refine ⟨f, fun x => ?_⟩
  obtain ⟨unheld, empty, stopped⟩ := h.2 (state.symm.trans x)
  exact ⟨fun r => by rw [Unheld, ranges]; exact unheld r, pending.trans empty, decay.trans stopped⟩

theorem track_keeps (s : State) : Keeps (Track s) trackFields := fun _ _ f h =>
  h.of ((followed_keeps s).of h.1 f) (by rw [f.cWatch]) f.ranges f.pendingSet f.decay

theorem followed_enterWatch (apart : RangesApart s.copies) (w : WatchRec) (m : State) (h : Followed s m) :
    Followed s (enterWatch w m) := by
  have recorded := (followed_keeps s).of ((followed_keeps s).of h (frame_put (.watch w) m .cWatch))
    (frame_addIncident (.stateChange w.state) _)
  refine (followed_keeps s).of ?_ (frame_noticeBoth _ _)
  unfold entryEffects
  split
  · split
    · exact (followed_keeps s).of recorded (frame_setDecay _ _)
    · exact recorded
  · exact recorded
  · exact (followed_keeps s).of (followed_closeAllAtOnce apart _ recorded) ((frame_setPending _ _).andThen
      (N := [.pendingSet, .decay]) (frame_setDecay _ _))
  · exact (followed_keeps s).of recorded ((frame_setPending _ _).andThen (N := [.pendingSet, .decay]) (frame_setDecay _ _))
  · exact (followed_keeps s).of recorded (frame_setDecay _ _)

theorem enterWatch_eq (w : WatchRec) (m : State) : enterWatch w m = noticeBoth (.watchState w.state)
    (entryEffects m.copies.watch.state w.state (addIncident (.stateChange w.state) (putWatch w m))) := rfl

theorem entryEffects_alarmed (old : WatchState) (m : State) :
    entryEffects old .alarmed m = setDecay none (setPending [] (closeAllAtOnce m)) := rfl

theorem allClosed_alarmed (old : WatchState) (m : State) : AllClosed (entryEffects old .alarmed m) := by
  rw [entryEffects_alarmed]
  have unheld := fun q => unheld_closeAllAtOnce q m
  generalize closeAllAtOnce m = a at unheld
  exact ⟨unheld, rfl, rfl⟩

/-- R147, R148: whatever the watch enters. -/
theorem track_enterWatch (apart : RangesApart s.copies) (w : WatchRec) (m : State) (h : Followed s m) :
    Track s (enterWatch w m) := by
  refine ⟨followed_enterWatch apart w m h, fun alarmed => ?_⟩
  have state : w.state = .alarmed := (congrArg WatchRec.state (enterWatch_records w m).1).symm.trans alarmed
  rw [enterWatch_eq, state]
  generalize addIncident (.stateChange .alarmed) (putWatch w m) = a
  obtain ⟨unheld, pending, decay⟩ := allClosed_alarmed m.copies.watch.state a
  generalize entryEffects m.copies.watch.state .alarmed a = b at unheld pending decay
  have g := frame_noticeBoth (.watchState .alarmed) b
  exact ⟨fun r => (unheld_keeps r).of (unheld r) g, g.pendingSet.trans pending, g.decay.trans decay⟩

theorem startErase_dead {cause : EraseCause} {m : State} (h : alive m.copies.watch.state = false) :
    startErase cause m = m := by
  unfold startErase
  rw [h]
  rfl

theorem track_startErase (cause : EraseCause) (m : State) (h : Track s m) : Track s (startErase cause m) := by
  cases lives : alive m.copies.watch.state with
  | false => rwa [startErase_dead lives]
  | true =>
    refine ((followed_keeps s).of h.1 (frame_startErase cause m)).track ?_
    rw [startErase_watch lives]
    nofun

theorem track_evaluate (apart : RangesApart s.copies) (changed : Bool) (m : State) (h : Track s m) :
    Track s (evaluate changed m) := by
  unfold evaluate
  dsimp only
  split
  · exact track_startErase _ m h
  · split
    · exact track_enterWatch apart _ m h.1
    · split
      · exact track_enterWatch apart _ m h.1
      · split
        · exact track_enterWatch apart _ m h.1
        · split
          · have f := frame_put (.watch m.copies.watch) m .cWatch
            exact h.of ((followed_keeps s).of h.1 f) rfl f.ranges f.pendingSet f.decay
          · exact h

theorem track_setScore (n : Nat) (m : State) (h : Track s m) : Track s (setScore n m) :=
  h.of ((followed_keeps s).of h.1 (frame_setScore n m)) rfl rfl rfl rfl

theorem track_takeEvidence (apart : RangesApart s.copies) (e : Evidence) (m : State) (h : Track s m) :
    Track s (takeEvidence e m) := by
  unfold takeEvidence
  split
  · exact track_evaluate apart _ _ ((track_keeps s).of (track_setScore _ m h) (frame_addIncident _ _))
  · exact (track_keeps s).of h (frame_addIncident _ m)

theorem track_lowerScore (apart : RangesApart s.copies) (n : Nat) (m : State) (h : Track s m) : Track s (lowerScore n m) :=
  track_evaluate apart _ _ (track_setScore _ m h)

theorem track_checkinExpires (apart : RangesApart s.copies) (m : State) (h : Track s m) : Track s (checkinExpires m) := by
  unfold checkinExpires
  split
  · exact track_takeEvidence apart _ _ ((track_keeps s) (s := m) (Frame.within (L := [.sensors]) ⟨rfl, rfl, le_rfl⟩) h)
  · exact h

/-- R147: an alarm has stopped the decay timer. -/
theorem track_decayExpires (apart : RangesApart s.copies) (m : State) (h : Track s m) : Track s (decayExpires m) := by
  unfold decayExpires
  split
  · rename_i due
    refine track_lowerScore apart _ _ (((followed_keeps s).of h.1 (frame_setDecay _ m)).track fun alarmed => ?_)
    have stopped := (h.2 alarmed).decay
    unfold decayDue at due
    rw [stopped] at due
    cases due
  · exact h

theorem track_exhaust (m : State) (h : Track s m) : Track s (exhaust m) := by
  unfold exhaust
  dsimp only
  split
  · exact (track_keeps s) (s := startErase .exhaustion m) (Frame.within (L := [.requests]) ⟨rfl, rfl, le_rfl⟩)
      (track_startErase _ m h)
  · exact h

end Track

end Sys2Proof.Machine
end


-- ==== Sys2Proof/Proofs/Alarms.lean ====
section
/-! PROOF. Which commands may take the watch into ALARMED, and that each then leaves every range closed (R148): O16, but for
a cold start. -/

-- As in the tests: each theorem that waits for the kernel in parallel would keep a thread.
set_option Elab.async false

namespace Sys2Proof.Machine

/-! ## What never raises the alarm -/

/-- The watch is not ALARMED. -/
def NotAlarmed (m : State) : Prop := m.copies.watch.state ≠ .alarmed

theorem notAlarmed_keeps : Keeps NotAlarmed (allFields.filter (· ≠ .cWatch)) := by
  intro s t f h
  rwa [NotAlarmed, f.cWatch]

theorem notAlarmed_finishErase (r : EraseResult) (m : State) (h : NotAlarmed m) : NotAlarmed (finishErase r m) := by
  unfold finishErase
  split
  · rename_i j _
    dsimp only
    generalize noticeBoth (.eraseStep 5) (addIncident (.eraseStep 5) (putJournal (some { j with step := 5, result := some r }) m)) = a
    have watch := (enterWatch_records { a.copies.watch with state := .erased } a).1
    generalize enterWatch { a.copies.watch with state := .erased } a = b at watch
    refine notAlarmed_keeps.of ?_ (frame_noticeBoth _ _)
    change b.copies.watch.state ≠ .alarmed
    rw [watch]
    nofun
  · exact h

theorem notAlarmed_scrubCompletes (o : ScrubOrder) (ok : Bool) (m : State) (h : NotAlarmed m) :
    NotAlarmed (scrubCompletes o ok m) := by
  have abandoned : ∀ m, NotAlarmed m → NotAlarmed (abandonScrub m) := fun m h => by
    unfold abandonScrub
    dsimp only
    split
    · exact notAlarmed_finishErase _ _ h
    · exact h
  have failed : ∀ c m, NotAlarmed m → NotAlarmed (scrubFailed c m) := fun c m h => by
    unfold scrubFailed
    split
    · dsimp only
      split
      · exact h
      · split
        · rename_i j _ _ _
          exact notAlarmed_keeps.of (notAlarmed_keeps (s := m) (frame_put (.journal _) m .cJournal |>.within) h)
            ((frame_markDone c _).after (N := [.scrubMarks, .cJournal, .requests, .waits]) (L := [.scrubMarks]) ⟨rfl, rfl, le_rfl⟩)
        · exact abandoned m h
    · exact h
  unfold scrubCompletes
  refine notAlarmed_keeps.of ?_ (frame_issueScrubs _)
  split
  · exact notAlarmed_keeps (s := m) ((frame_markDone _ _).after (N := allFields.filter (· ≠ .cWatch))
      (L := [.orders, .scrubMarks]) ⟨rfl, rfl, le_rfl⟩) h
  · exact failed _ _ h

theorem notAlarmed_orderDone (num : Nat) (ok : Bool) (m : State) (h : NotAlarmed m) : NotAlarmed (orderDone num ok m) := by
  unfold orderDone
  split
  · split
    · exact notAlarmed_keeps.of h (frame_rekeyCompletes _ ok m)
    · split
      · exact notAlarmed_scrubCompletes _ ok m h
      · exact h
  · split
    · exact notAlarmed_scrubCompletes _ ok m h
    · exact h

theorem notAlarmed_takeFrame (c : Instr) (m : State) (h : NotAlarmed m) : NotAlarmed (takeFrame c m) := by
  unfold takeFrame
  split
  · exact notAlarmed_keeps.of h (frame_linkHello m)
  · split
    · unfold handFrame
      split
      · exact notAlarmed_keeps.of h (frame_pushFrame _ m)
      · exact notAlarmed_keeps.of h (frame_takeDescriptor _ _ _ _ m)
      · exact notAlarmed_keeps.of h (frame_unitArrives _ _ _ m)
      · exact notAlarmed_keeps.of h (frame_stopTransfer _ m)
      · exact notAlarmed_orderDone _ _ m h
      · split
        · exact notAlarmed_keeps.of h (frame_takeRequest _ m)
        · exact h
    · exact h

theorem notAlarmed_scrubExpires (num : Nat) (m : State) (h : NotAlarmed m) : NotAlarmed (scrubExpires num m) := by
  unfold scrubExpires
  split
  · split
    · exact notAlarmed_scrubCompletes _ _ m h
    · exact h
  · exact h

/-! ## Messages, timers and derivations -/

/-- A state that a command may leave: where the watch is ALARMED, the ranges of `s` have been followed to their closes. -/
def Alerted (s t : State) : Prop := t.copies.watch.state = .alarmed → Followed s t ∧ AllClosed t

/-- The binding deadline has stopped. -/
def unwaited (m : State) : State := { m with watch := { m.watch with deadline := none } }

/-- R127: a word that has not come by its deadline is evidence. -/
def wordAwaited (m : State) : State :=
  if m.watch.binding = .unknown then takeEvidence .bindingAbsent (setBinding .absent m) else m

theorem bindingExpires_eq (m : State) : bindingExpires m = if m.watch.deadline ≠ some 0 then m else
    if (wordAwaited (unwaited m)).watch.supervision = .waiting then arm (wordAwaited (unwaited m))
    else wordAwaited (unwaited m) := rfl

/-- R151: a line is at a level. -/
def setLevel (n : Fin 4) (level : Bool) (m : State) : State :=
  { m with watch := { m.watch with levels := m.watch.levels.set n level } }

theorem takeEdge_eq (n : Fin 4) (level : Bool) (m : State) : takeEdge n level m = if m.watch.levels[n] = level then m else
    if edgeQualifies (setLevel n level m).copies.policy.lineModes[n] level = true
        ∧ (setLevel n level m).watch.holdDowns[n] = none then
      takeEvidence (.line n level) (setHoldDown n (startTimer (setLevel n level m).copies.policy.lineHold[n])
        (setLevel n level m))
    else setLevel n level m := rfl

/-- R68, step 3: the hold-off starts. -/
def holdOff (m : State) : State := { m with cred := { m.cred with
  holdoff := startTimer (holdoffLength m.copies.policy m.copies.watch.state m.copies.charged) } }

theorem frame_holdOff (m : State) : Frame [.holdoff] m (holdOff m) := ⟨rfl, rfl, le_rfl⟩

theorem mismatchVerdict_eq (c : Fin 8) (m : State) : mismatchVerdict c m =
    secFinish .denied .empty (disableAtLimit c (exhaust (holdOff (takeEvidence (.credentialFailed c) m)))) := rfl

section Commands

variable {s m : State}

theorem Track.alerted (h : Track s m) : Alerted s m := fun x => ⟨h.1, h.2 x⟩

theorem NotAlarmed.alerted (h : NotAlarmed m) : Alerted s m := fun x => absurd x h

/-- A message, if each state that it is taken in is so. -/
theorem alerted_writeTransaction {i : Instr} {b : Bool} {f : State → State} (h : Followed s m) (off : NotAlarmed m)
    (hf : ∀ u, Followed s u → NotAlarmed u → Alerted s (f u)) : Alerted s (writeTransaction i b f m) := by
  have placed := fun a => (notAlarmed_keeps.of off (frame_setBuffer a m)).alerted (s := s)
  unfold writeTransaction
  dsimp only
  split
  · exact off.alerted
  · split
    · exact placed _
    · split
      · exact placed _
      · have f := (Frame.within (L := [.plat, .buffer]) (M := [.plat, .buffer])
          ⟨rfl, rfl, le_rfl⟩ : Frame [.plat, .buffer] m { setBuffer none m with
            cmd := { m.cmd with plat := some ⟨(messageCode i).getD 0, false, .taken, [], false⟩ } })
        exact hf _ ((followed_keeps s).of h f) (notAlarmed_keeps.of off f)

/-- A message that leaves the watch alone. -/
theorem alerted_message {i : Instr} {b : Bool} {f : State → State} {L : List Field} (h : Followed s m) (off : NotAlarmed m)
    (hf : ∀ u, Frame L u (f u)) (hl : .cWatch ∉ L := by decide +kernel) : Alerted s (writeTransaction i b f m) :=
  alerted_writeTransaction h off fun u _ off => NotAlarmed.alerted (by rwa [NotAlarmed, (hf u).cWatch hl])

variable (apart : RangesApart s.copies) (h : Followed s m) (off : NotAlarmed m)

include apart h off

theorem alerted_bindMessage (w : BindingWord) : Alerted s (bindMessage w m) := by
  have seen : Frame [.sensors] m { m with watch := { m.watch with lastWord := some w } } := ⟨rfl, rfl, le_rfl⟩
  have bound : ∀ b, Frame [.sensors] m (setBinding b { m with watch := { m.watch with lastWord := some w } }) :=
    fun _ => ⟨rfl, rfl, le_rfl⟩
  unfold bindMessage
  dsimp only
  split
  · exact (notAlarmed_keeps.of off ((frame_platReply _ _ _).after (N := [.sensors, .plat, .buffer]) seen)).alerted
  · split
    · refine (notAlarmed_keeps.of ?_ (frame_platReply _ _ _)).alerted
      split
      · exact notAlarmed_keeps.of off (bound _)
      · exact notAlarmed_keeps.of (notAlarmed_keeps.of off (bound _)) (frame_applyPending _)
    · refine ((track_keeps s).of (track_takeEvidence apart _ _ ?_) (frame_platReply _ _ _)).alerted
      have mism := (followed_keeps s).of h (bound .mismatched)
      have off' := notAlarmed_keeps.of off (bound .mismatched)
      split
      · refine Followed.track (keeps_foldl (fun u r hu => ?_) _ _ mism) (notAlarmed_keeps.of off' (frame_closeBound _))
        split
        · exact followed_orderlyClose apart r none u hu
        · exact hu
      · exact mism.track off'

theorem alerted_checkinMessage (w : BindingWord) : Alerted s (checkinMessage w m) := by
  have told := fun e => ((track_keeps s).of (track_takeEvidence apart e m (h.track off)) (frame_platReply .wrongWord .empty _)).alerted
  have early := fun e => ((track_keeps s).of (track_takeEvidence apart e m (h.track off)) (frame_platReply .early .empty _)).alerted
  have plain := fun c => (notAlarmed_keeps.of off (frame_platReply c .empty m)).alerted (s := s)
  have armed := (notAlarmed_keeps.of off ((frame_platReply .accepted .empty _).after (N := [.sensors, .plat, .buffer])
    (frame_arm m))).alerted (s := s)
  unfold checkinMessage
  dsimp only
  split
  · exact plain _
  · exact plain _
  · split
    · exact armed
    · exact told _
  · split
    · exact told _
    · split
      · exact early _
      · exact armed

theorem alerted_alertMessage (severity : Byte) : Alerted s (alertMessage severity m) := by
  unfold alertMessage
  split
  · exact ((track_keeps s).of (track_takeEvidence apart _ m (h.track off)) (frame_platReply _ _ _)).alerted
  · exact (notAlarmed_keeps.of off (frame_platReply _ _ _)).alerted

theorem alerted_bindingExpires : Alerted s (bindingExpires m) := by
  have expired : Track s (unwaited m) :=
    (track_keeps s) (s := m) (Frame.within (L := [.sensors]) ⟨rfl, rfl, le_rfl⟩) (h.track off)
  rw [bindingExpires_eq]
  split
  · exact off.alerted
  · generalize unwaited m = u at expired ⊢
    have judged : Track s (wordAwaited u) := by
      unfold wordAwaited
      split
      · exact track_takeEvidence apart _ _ ((track_keeps s) (s := u) (Frame.within (L := [.sensors]) ⟨rfl, rfl, le_rfl⟩) expired)
      · exact expired
    split
    · exact ((track_keeps s).of judged (frame_arm _)).alerted
    · exact judged.alerted

theorem alerted_takeEdge (n : Fin 4) (level : Bool) : Alerted s (takeEdge n level m) := by
  have leveled : Track s (setLevel n level m) :=
    (track_keeps s) (s := m) (Frame.within (L := [.sensors]) ⟨rfl, rfl, le_rfl⟩) (h.track off)
  rw [takeEdge_eq]
  split
  · exact off.alerted
  · generalize setLevel n level m = u at leveled ⊢
    have started : ∀ v, Track s (setHoldDown n v u) := fun _ =>
      (track_keeps s) (s := u) (Frame.within (L := [.sensors]) ⟨rfl, rfl, le_rfl⟩) leveled
    split
    · exact (track_takeEvidence apart _ _ (started _)).alerted
    · exact leveled.alerted

/-- R68: a mismatch. -/
theorem alerted_mismatchVerdict (c : Fin 8) : Alerted s (mismatchVerdict c m) := by
  have taken : Track s (holdOff (takeEvidence (.credentialFailed c) m)) :=
    (track_keeps s).of (track_takeEvidence apart (.credentialFailed c) m (h.track off)) (frame_holdOff _)
  rw [mismatchVerdict_eq]
  exact ((track_keeps s).of ((track_keeps s).of (track_exhaust _ taken) (frame_disableAtLimit c _))
    (frame_secFinish _ _ _)).alerted

theorem alerted_tokenDerived (key : CredKey) : Alerted s (tokenDerived key m) := by
  unfold tokenDerived
  split
  · exact off.alerted
  · split
    · split
      · exact ((track_keeps s).of (track_startErase _ m (h.track off)) (frame_platFinish _ _ _)).alerted
      · exact ((track_keeps s).of (track_takeEvidence apart _ m (h.track off)) (frame_platFinish _ _ _)).alerted
    · exact off.alerted

/-- R68, R72, R139: the end of a derivation that is no success. -/
theorem alerted_derivationEnds (fails : ∀ j q d secret, m.derive.job = some j → j.channel = .security → m.cmd.sec = some q →
    q.phase = .testing → credentials q.req = some (d, secret) → verifies m.copies.creds[d].verifier (derived j) = false) :
    Alerted s (derivationEnds m) := by
  have next : Frame [.derive] m { m with derive := { job := m.derive.waiting.head?, waiting := m.derive.waiting.tail } } :=
    ⟨rfl, rfl, le_rfl⟩
  have h' := (followed_keeps s).of h next
  have off' := notAlarmed_keeps.of off next
  unfold derivationEnds
  split
  · exact off.alerted
  · rename_i j hj
    dsimp only
    split
    · rename_i channel
      unfold secDerived
      split
      · exact off'.alerted
      · rename_i q hq
        split
        · rename_i phase
          unfold verdict
          split
          · exact off'.alerted
          · rename_i d secret cred
            rw [if_neg (by
              rw [show verifies m.copies.creds[d].verifier (derived j) = false from fails j q d secret hj channel hq phase cred]
              nofun)]
            exact alerted_mismatchVerdict apart h' off' d
        · exact (notAlarmed_keeps.of (notAlarmed_keeps.of off' (frame_modSec _ _)) (frame_secondDerived _ _ _ _)).alerted
        · exact off'.alerted
    · exact alerted_tokenDerived apart h' off' _

end Commands

end Sys2Proof.Machine
end


-- ==== Sys2Proof/Proofs/AlarmedCommands.lean ====
section
/-! PROOF. Every command but a cold start, as to the alarm: a store completion first runs the Rekey Engine's work, which
raises none and closes no range, and then what may. -/

-- As in the tests: each theorem that waits for the kernel in parallel would keep a thread.
set_option Elab.async false

namespace Sys2Proof.Machine

/-! ## The Rekey Engine's work -/

/-- Since `s` no range has closed, the watch is not ALARMED, and only the Rekey Engine's work waits. -/
structure Stands (s m : State) : Prop where
  ranges : m.copies.ranges = s.copies.ranges
  factory : m.copies.factory = s.copies.factory
  held : ∀ r : Fin 16, heldBy s.ranges[r].run ≠ none → heldBy m.ranges[r].run ≠ none
  opened : ∀ r : Fin 16, isOpen s.ranges[r].run = true → isOpen m.ranges[r].run = true
  off : NotAlarmed m
  waits : NoEraseWork m

section Stands

variable {s m : State}

theorem Stands.followed (h : Stands s m) : Followed s m :=
  ⟨h.ranges, h.factory, fun r x => .inl (h.held r x), fun r x => .inl (h.opened r x)⟩

theorem Stands.refl (off : NotAlarmed s) (waits : NoEraseWork s) : Stands s s :=
  ⟨rfl, rfl, fun _ x => x, fun _ x => x, off, waits⟩

/-- Where the ranges stay as open as they were, and no other work waits. -/
theorem Stands.of {L : List Field} {t : State} (h : Stands s m) (f : Frame L m t) (waits : NoEraseWork t)
    (held : ∀ r : Fin 16, heldBy m.ranges[r].run ≠ none → heldBy t.ranges[r].run ≠ none)
    (opened : ∀ r : Fin 16, isOpen m.ranges[r].run = true → isOpen t.ranges[r].run = true)
    (hl : ∀ f ∈ ([.cRanges, .cFactory, .cWatch] : List Field), f ∉ L := by decide +kernel) : Stands s t where
  ranges := (f.cRanges (hl _ (by decide))).trans h.ranges
  factory := (f.capacity (hl _ (by decide))).trans h.factory
  held r x := held r (h.held r x)
  opened r x := opened r (h.opened r x)
  off := by
    rw [NotAlarmed, f.cWatch (hl _ (by decide))]
    exact h.off
  waits := waits

theorem stands_keeps (s : State) : Keeps (Stands s)
    (allFields.filter fun f => decide (f ∉ ([.ranges, .cRanges, .cFactory, .cWatch, .waits] : List Field))) := by
  intro m t f h
  refine h.of f ?_ (fun r x => ?_) fun r x => ?_
  · unfold NoEraseWork
    rw [f.waits]
    exact h.waits
  · rwa [f.ranges]
  · rwa [f.ranges]

theorem noEraseWork_completeWrite (h : NoEraseWork m) : NoEraseWork (completeWrite m) := by
  unfold completeWrite
  split
  · exact h
  · intro w hw
    obtain ⟨v, hv, rfl⟩ := List.mem_map.mp hw
    exact h v hv

theorem stands_completeWrite (h : Stands s m) : Stands s (completeWrite m) := by
  have f := frame_completeWrite m
  exact h.of f (noEraseWork_completeWrite h.waits) (fun r x => by rwa [f.ranges]) fun r x => by rwa [f.ranges]

/-- R14: the NEXT slot of a range becomes its current one; the range stays OPEN or CLOSING. -/
theorem stands_handOver (r : Fin 16) (h : Stands s m) : Stands s (handOver r m) := by
  have given : ∀ run k, (heldBy m.ranges[r].run ≠ none → heldBy run ≠ none) →
      (isOpen m.ranges[r].run = true → isOpen run = true) → Stands s (retireSlot k (setRun r run m)) := by
    intro run k hh ho
    have at_ : ∀ q : Fin 16, (retireSlot k (setRun r run m)).ranges[q].run = if q = r then run else m.ranges[q].run :=
      fun q => setRun_get r q run m
    refine h.of ((frame_setRun r run m).andThen (N := [.ranges, .slots]) (frame_setSlot k _ _)) h.waits
      (fun q x => ?_) fun q x => ?_
    · rw [at_]
      split
      · rename_i e
        exact hh (e ▸ x)
      · exact x
    · rw [at_]
      split
      · rename_i e
        exact ho (e ▸ x)
      · exact x
  unfold handOver
  split
  · split
    · exact given _ _ (fun _ => nofun) fun _ => rfl
    · exact h
  · rename_i hd d ws run
    split
    · exact given _ _ (fun _ => nofun) fun x => by rw [run] at x; cases x
    · exact h
  · exact h

theorem stands_runCont {c : Cont} (hc : c = .rekeyWindow ∨ c = .rekeyClosing ∨ ∃ r, c = .rekeyEnded r) (h : Stands s m) :
    Stands s (runCont c m) := by
  obtain rfl | rfl | ⟨r, rfl⟩ := hc
  · exact (stands_keeps s).of h (frame_chooseWindow m)
  · exact (stands_keeps s).of h (frame_closingSteps m)
  · exact (stands_keeps s).of ((stands_keeps s).of (stands_handOver r h) (frame_noticeSec _ _)) (frame_closingSteps _)

theorem stands_runReady (p : Cont → Bool) (n : Nat) (h : Stands s m) : Stands s (runReady p n m) := by
  refine runReady_induct (Inv := Stands s) (fun c w rest u _ hw hj hr hu => ?_) n m h
  subst hj
  exact stands_runCont (hu.waits w hw) ⟨hu.ranges, hu.factory, hu.held, hu.opened, hu.off, fun v hv => hu.waits v (hr v hv)⟩

end Stands

/-! ## A write completes -/

section Commands

variable {s m : State} (apart : RangesApart s.copies)

include apart

theorem track_policyWritten (p : Policy) (m : State) (h : Track s m) : Track s (policyWritten p m) := by
  have changed : Track s { m with copies := { m.copies with policy := p } } :=
    (track_keeps s) (s := m) (Frame.within (L := [.cPolicy]) ⟨rfl, rfl, le_rfl⟩) h
  exact (track_keeps s).of (track_decayExpires apart _ (track_checkinExpires apart _ (track_evaluate apart _ _ changed)))
    (frame_secFinish _ _ _)

theorem track_secDue (m : State) (h : Track s m) : Track s (secDue m) := by
  unfold secDue
  split
  · split
    · split
      · exact (track_keeps s).of h (frame_chargeWritten _ m)
      · exact track_policyWritten apart _ m h
      · exact (track_keeps s).of (track_enterWatch apart _ m h.1) (frame_secFinish _ _ _)
      · exact (track_keeps s).of h (frame_secAnswerDue m)
      · exact h
    · exact h
  · exact h

/-- R184: the Rekey Engine's work, the request whose writes are done, the platform's answer, and then the window. -/
theorem track_storeCompletes (h : Stands s m) : Track s (storeCompletes m) := by
  unfold storeCompletes
  split
  · exact h.followed.track h.off
  · have ready := stands_runReady (fun c => !isWindow c) (completeWrite m).store.waits.length (stands_completeWrite h)
    dsimp only
    generalize runReady (fun c => !isWindow c) (completeWrite m).store.waits.length (completeWrite m) = u at ready ⊢
    refine runReady_keeps (track_keeps s).mono (fun c v hc hv => ?_) _ _
      ((track_keeps s).of (track_secDue apart u (ready.followed.track ready.off)) (frame_platAnswerDue _))
    obtain rfl : c = .rekeyWindow := of_decide_eq_true hc
    exact (track_keeps s).of hv (frame_chooseWindow v)

/-! ## Every command -/

theorem alerted_effect (c : Instr) (waits : NoEraseWork s) (off : NotAlarmed s)
    (fails : c = .derivationComplete → ∀ j q d secret, s.derive.job = some j → j.channel = .security → s.cmd.sec = some q →
      q.phase = .testing → credentials q.req = some (d, secret) → verifies s.copies.creds[d].verifier (derived j) = false) :
    Alerted s (effect c s) := by
  have h := Followed.refl s
  have quiet : ∀ {t : State} {L : List Field}, Frame L s t → (hl : .cWatch ∉ L := by decide +kernel) → Alerted s t :=
    fun f hl => NotAlarmed.alerted (by rwa [NotAlarmed, f.cWatch hl])
  have arrives : ∀ i, Alerted s (arrive i s) := fun i =>
    NotAlarmed.alerted (arrive_keeps notAlarmed_keeps.mono notAlarmed_takeFrame i s off)
  cases c
  case linkResetIndication =>
    exact NotAlarmed.alerted (resetIndication_keeps notAlarmed_keeps.mono notAlarmed_takeFrame
      (fun m h => notAlarmed_keeps.of h (frame_driveLinkReset m)) s off)
  case migrationOrderDeadlineExpiry => exact quiet (frame_migrationExpires s)
  case migrateOrderSend => exact quiet (frame_sendMigrateOrder s)
  case scrubOrderDeadlineExpiry num => exact (notAlarmed_scrubExpires num s off).alerted
  case derivationComplete => exact alerted_derivationEnds apart h off (fails rfl)
  case storeWriteComplete => exact (track_storeCompletes apart (Stands.refl off waits)).alerted
  case closeComplete r => exact quiet (frame_closeIfDrained r s)
  case closeDeadlineExpiry r => exact quiet (frame_closeExpires r s)
  case slotDrainComplete k => exact quiet (frame_drainSlot k s)
  case holdoffExpiry => exact quiet (frame_holdoffExpires s)
  case bind w => exact alerted_writeTransaction h off fun u hu offu => alerted_bindMessage apart hu offu w
  case bindingDeadlineExpiry => exact alerted_bindingExpires apart h off
  case checkin w => exact alerted_writeTransaction h off fun u hu offu => alerted_checkinMessage apart hu offu w
  case checkinTimerExpiry => exact (track_checkinExpires apart s (h.track off)).alerted
  case sleep => exact alerted_message h off frame_sleepMessage
  case wake => exact alerted_message h off frame_wakeMessage
  case alert severity => exact alerted_writeTransaction h off fun u hu offu => alerted_alertMessage apart hu offu severity
  case remoteErase token => exact alerted_message h off fun u => frame_remoteEraseMessage token u
  case platformFetch => exact alerted_message h off frame_fetchMessage
  case platformSetMask m => exact alerted_message h off fun u => frame_platMaskMessage m u
  case platformMalformedMessage kind => exact alerted_message (L := []) h off fun u => .refl _ u
  case platformRead => exact quiet (frame_readTransaction s)
  case platformLinkReset => exact quiet (frame_platformReset s)
  case watchLineEdge n level =>
    change Alerted s (if s.phase = .running then takeEdge n level s else s)
    split
    · exact alerted_takeEdge apart h off n level
    · exact off.alerted
  case holdDownExpiry n => exact quiet (L := [.sensors]) (.ite ⟨rfl, rfl, le_rfl⟩ (.refl _ s))
  case decayTimerExpiry => exact (track_decayExpires apart s (h.track off)).alerted
  case outboundFrameSent => exact quiet (frame_frameLeaves s)
  all_goals exact arrives _

end Commands

end Sys2Proof.Machine
end


-- ==== Sys2Proof/Proofs/Dormancy.lean ====
section
/-! PROOF. The part while its start-up goes on (R187, R188): nothing is open, admitted or in progress, so what an erase, an
alarm or a close do elsewhere has no effect, and the store has every write that the working copies have. -/

-- As in the tests: each theorem that waits for the kernel in parallel would keep a thread.
set_option Elab.async false

namespace Sys2Proof.Machine

/-! ## Nothing is in progress -/

/-- R187, step 1: the Rekey Engine. -/
def coldRekey : RekeyEngine :=
  { order := none, fence := none, intended := none, counter := 1, seen := none, completing := false }

/-- R187, step 1: no range is open, no transfer, rekey or request is in progress, and the drive link is DOWN. -/
structure Dormant (m : State) : Prop where
  unheld : ∀ r, Unheld r m
  slots : m.slots = Vector.replicate 18 .empty
  adm : m.adm = { table := Vector.replicate 32 .free, hold := [] }
  pending : m.cred.pendingSet = []
  rekey : m.rekey = coldRekey
  sec : m.cmd.sec = none
  plat : m.cmd.plat = none
  up : m.drive.up = false

/-- Fields whose change does not matter to it. -/
abbrev dormantFields : List Field := allFields.filter fun f => decide (f ∉ ([.ranges, .slots, .table, .hold, .pendingSet,
  .order, .fence, .intended, .counter, .seen, .completing, .sec, .plat, .up] : List Field))

theorem dormant_powerUp (nv : Records) (s : State) : Dormant (powerUp nv s) :=
  ⟨fun r => by simp [Unheld, powerUp, heldBy], rfl, rfl, rfl, rfl, rfl, rfl, rfl⟩

/-- Where no range opens. -/
theorem Dormant.of {L : List Field} {m t : State} (h : Dormant m) (f : Frame L m t) (unheld : ∀ r, Unheld r t)
    (hl : L ⊆ .ranges :: dormantFields := by decide +kernel) : Dormant t := by
  have g := f.mono hl
  obtain ⟨-, slots, adm, pending, rekey, sec, plat, up⟩ := h
  exact ⟨unheld, g.slots.trans slots, g.adm.trans adm, g.pendingSet.trans pending, g.rekey.trans rekey, g.sec.trans sec,
    g.plat.trans plat, g.up.trans up⟩

theorem dormant_keeps : Keeps Dormant dormantFields := fun _ _ f h =>
  h.of f fun r => (unheld_keeps r).of (h.unheld r) f

section Dormant

variable {m : State} (h : Dormant m)

include h

theorem Dormant.table (g : Fin 32) : m.adm.table[g] = .free := by
  rw [h.adm]
  simp

theorem immediateClose_dormant (r : Fin 16) : immediateClose r m = m := by
  have none : heldBy m.ranges[r].run = none := h.unheld r
  unfold immediateClose
  rw [none]

theorem closeAllAtOnce_dormant : closeAllAtOnce m = m := by
  have idle : withdrawWindow m = m := by
    unfold withdrawWindow
    rw [h.rekey]
    rfl
  unfold closeAllAtOnce
  rw [idle]
  exact List.foldl_fixed' (fun r => immediateClose_dormant h r) _

theorem abortWhere_dormant (p : Entry → Bool) : abortWhere p m = m :=
  List.foldl_fixed' (fun g => by
    have none : abortTag g m = m := abortTag_eq_self fun x => by rw [h.table g]; nofun
    rw [none, ite_self]) _

theorem refuseHeldWhere_dormant (p : Extent → Bool) (c : Code) (r : Option (Fin 16)) : refuseHeldWhere p c r m = m := by
  unfold refuseHeldWhere
  rw [h.adm]
  rfl

theorem setPending_dormant : setPending [] m = m := by
  unfold setPending
  rw [← h.pending]

theorem issueScrubs_dormant : issueScrubs m = m := by
  have one : issueOne m = m := by
    unfold issueOne
    rw [h.up]
    split
    · exact if_neg nofun
    · rfl
  unfold issueScrubs
  rw [one, one, one, one]

theorem platAnswerDue_dormant : platAnswerDue m = m := by
  unfold platAnswerDue
  rw [h.plat]

theorem eraseTold_dormant (ids : List Nat) : eraseTold ids m = m := by
  have sec : modSec (fun j => if j.awaitsErase then { j with awaitsErase := false, writes := j.writes ++ ids } else j) m = m := by
    unfold modSec
    rw [h.sec, Option.map_none, ← h.sec]
  unfold eraseTold
  rw [sec]
  unfold modPlat
  rw [h.plat, Option.map_none, ← h.plat]

end Dormant

/-- R147: what a change of watch state does while nothing is open. -/
def decayed (old new : WatchState) (m : State) : State :=
  match new with
  | .settled => if old = .alarmed ∨ old = .erased then setDecay (some 0) m else m
  | .wary => m
  | _ => setDecay none m

theorem frame_decayed (old new : WatchState) (m : State) : Frame [.decay] m (decayed old new m) := by
  cases new
  case settled => exact .ite (frame_setDecay _ m) (.refl _ m)
  case wary => exact .refl _ m
  all_goals exact frame_setDecay _ m

theorem entryEffects_dormant {m : State} (h : Dormant m) (old new : WatchState) :
    entryEffects old new m = decayed old new m := by
  cases new with
  | settled => rfl
  | wary => rfl
  | alarmed =>
    rw [entryEffects_alarmed, closeAllAtOnce_dormant h, setPending_dormant h]
    rfl
  | erasing =>
    change setDecay none (setPending [] m) = _
    rw [setPending_dormant h]
    rfl
  | erased => rfl

/-! ## A change of watch state, and an erase -/

/-- What a change of watch state changes while nothing is open. -/
abbrev entryFields : List Field := [.cWatch, .cIncidents, .requests, .secQueue, .platQueue, .marks, .decay]

/-- R146: the record and the incident of a change of watch state. -/
def entered (w : WatchRec) (m : State) : State := addIncident (.stateChange w.state) (putWatch w m)

theorem frame_entered (w : WatchRec) (m : State) : Frame [.cWatch, .cIncidents, .requests] m (entered w m) :=
  (frame_addIncident _ _).after (frame_put (.watch w) m .cWatch)

theorem enterWatch_dormant {m : State} (h : Dormant m) (w : WatchRec) : enterWatch w m
    = noticeBoth (.watchState w.state) (decayed m.copies.watch.state w.state (entered w m)) := by
  rw [enterWatch_eq]
  exact congrArg (noticeBoth (.watchState w.state)) (entryEffects_dormant (dormant_keeps.of h (frame_entered w m)) _ _)

theorem frame_enterWatch_dormant {m : State} (h : Dormant m) (w : WatchRec) : Frame entryFields m (enterWatch w m) := by
  rw [enterWatch_dormant h]
  exact (frame_noticeBoth _ _).after ((frame_decayed _ _ _).after (N := entryFields) (frame_entered w m))

/-- The work that waits, but for the Rekey Engine's. -/
def unwindowed (m : State) : State := { m with store := { m.store with
  waits := m.store.waits.filter fun w => decide (w.job ≠ .rekeyWindow) && decide (w.job ≠ .rekeyClosing) } }

/-- R160: the rekey record goes, with its range's next key. -/
theorem haltWork_dormant {m : State} (h : Dormant m) : (m.copies.rekey = none → haltWork m = m)
    ∧ ∀ k, m.copies.rekey = some k →
      haltWork m = putRange k.range { m.copies.ranges[k.range] with next := none } (putRekey none (unwindowed m)) := by
  have cold : ∀ u : State, u.rekey = coldRekey → ({ u with rekey := coldRekey } : State) = u := fun u e => by rw [← e]
  unfold haltWork
  dsimp only
  rw [refuseHeldWhere_dormant h, abortWhere_dormant h]
  unfold discardRekey
  refine ⟨fun hk => ?_, fun k hk => ?_⟩
  · rw [hk]
    refine Eq.trans ?_ (cold m h.rekey)
    dsimp only [Option.map_none]
    rw [h.rekey]
    rfl
  · rw [hk]
    refine congrArg (putRange k.range { m.copies.ranges[k.range] with next := none }) ?_
    refine Eq.trans ?_ (cold (putRekey none (unwindowed m)) h.rekey)
    dsimp only [Option.map_some]
    rw [h.rekey]
    rfl

theorem zeroizeWork_dormant {m : State} (h : Dormant m) : zeroizeWork m = m := by
  unfold zeroizeWork
  rw [closeAllAtOnce_dormant h, ← h.slots]

end Sys2Proof.Machine
end


-- ==== Sys2Proof/Proofs/StoreFollows.lean ====
section
/-! PROOF. The store follows the working copies (R183, R184): what it holds once every write asked for has completed is
what they hold, as long as each change of a copy asks for its write. -/

-- As in the tests: each theorem that waits for the kernel in parallel would keep a thread.
set_option Elab.async false

namespace Sys2Proof.Machine

/-! ## Writes of two records, and of one -/

theorem applyWrite_comm {v w : RecWrite} (h : writeRecord v ≠ writeRecord w) (r : Records) :
    applyWrite v (applyWrite w r) = applyWrite w (applyWrite v r) := by
  have other : ∀ {n : Nat} {α : Type} {x : Vector α n} {i j : Fin n} {a b : α} {k : Nat}, (k, (i : Nat)) ≠ (k, (j : Nat)) →
      (x.set j b).set i a = (x.set i a).set j b := fun ne => Vector.set_comm _ _ fun e => ne (by rw [e])
  cases v with
  | range i a => cases w with
    | range j b => exact congrArg (fun x => { r with ranges := x }) (other h)
    | _ => rfl
  | cred i a => cases w with
    | cred j b => exact congrArg (fun x => { r with creds := x }) (other h)
    | _ => rfl
  | wrap i a => cases w with
    | wrap j b => exact congrArg (fun x => { r with wraps := x }) (other h)
    | _ => rfl
  | _ => cases w <;> first | rfl | exact absurd rfl h

theorem applyWrite_again {v w : RecWrite} (h : writeRecord v = writeRecord w) (r : Records) :
    applyWrite w (applyWrite v r) = applyWrite w r := by
  have once : ∀ {n : Nat} {α : Type} {x : Vector α n} {i j : Fin n} {a b : α} {k : Nat}, (k, (i : Nat)) = (k, (j : Nat)) →
      (x.set i a).set j b = x.set j b := fun e => by
    obtain rfl := Fin.ext (Prod.mk.inj e).2
    exact Vector.set_set _ _
  cases v with
  | range i a => cases w with
    | range j b => exact congrArg (fun x => { r with ranges := x }) (once h)
    | _ => cases h
  | cred i a => cases w with
    | cred j b => exact congrArg (fun x => { r with creds := x }) (once h)
    | _ => cases h
  | wrap i a => cases w with
    | wrap j b => exact congrArg (fun x => { r with wraps := x }) (once h)
    | _ => cases h
  | _ => cases w <;> first | rfl | cases h


/-! ## What a store will hold -/

/-- What a store holds once every write that it has been asked for has completed. -/
def stored (st : Store) : Records := (st.active.toList ++ st.queue).foldl (fun r p => applyWrite p.what r) st.nv

/-- A write waits only behind one in progress. -/
def InOrder (st : Store) : Prop := st.active = none → st.queue = []

theorem applyWrite_last {w : RecWrite} {q : List PendingWrite} (h : ∀ x ∈ q, writeRecord x.what ≠ writeRecord w) (r : Records) :
    q.foldl (fun r p => applyWrite p.what r) (applyWrite w r) = applyWrite w (q.foldl (fun r p => applyWrite p.what r) r) := by
  induction q generalizing r with
  | nil => rfl
  | cons x q ih =>
    rw [List.foldl_cons, List.foldl_cons, applyWrite_comm (h x List.mem_cons_self)]
    exact ih (fun y hy => h y (List.mem_cons_of_mem _ hy)) _

/-- R184: to join a waiting write of the same record comes to the same as to wait for a turn. -/
theorem coalesce_stored {b : Block} {w : RecWrite} {q : List PendingWrite} {x : Nat × List PendingWrite}
    (h : coalesce b w q = some x) (r : Records) :
    x.2.foldl (fun r p => applyWrite p.what r) r = applyWrite w (q.foldl (fun r p => applyWrite p.what r) r) := by
  induction q generalizing x r with
  | nil => cases h
  | cons a q ih =>
    unfold coalesce at h
    split at h
    · rename_i joins
      cases h
      obtain ⟨same, later⟩ := joins
      have later : ∀ y ∈ q, writeRecord y.what ≠ writeRecord w := fun y hy => by
        have := List.all_eq_true.mp later y hy
        simp only [Bool.and_eq_true, decide_eq_true_eq] at this
        exact this.2
      rw [List.foldl_cons, List.foldl_cons, ← applyWrite_last later, applyWrite_again same]
    · obtain ⟨y, hy, rfl⟩ := Option.map_eq_some_iff.mp h
      exact ih hy _

theorem stored_requestWrite (b : Block) (w : RecWrite) {st : Store} (h : InOrder st) :
    stored (requestWrite b w st) = applyWrite w (stored st) ∧ InOrder (requestWrite b w st) := by
  unfold requestWrite stored InOrder
  split
  · rename_i idle
    rw [idle, h idle]
    exact ⟨rfl, nofun⟩
  · rename_i p busy
    rw [busy]
    split
    · rename_i id q joined
      exact ⟨coalesce_stored joined _, nofun⟩
    · refine ⟨?_, nofun⟩
      simp only [Option.toList_some, ← List.append_assoc, List.foldl_append, List.foldl_cons, List.foldl_nil]

/-! ## The store follows -/

/-- R183: every change of a working copy has asked for its write. -/
structure Follows (m : State) : Prop where
  stored : stored m.store = m.copies
  inOrder : InOrder m.store

/-- The same, but for the watch record of an erase whose step 0 is being written (R157). -/
structure Behind (m : State) : Prop where
  stored : ∃ w, stored m.store = { m.copies with watch := w }
  inOrder : InOrder m.store

/-- Fields whose change does not matter to either. -/
abbrev storeFields : List Field := allFields.filter fun f => decide (f ∉ ([.cFactory, .cRanges, .cCreds, .cWraps, .cCharged,
  .cPolicy, .cDigest, .cToken, .cWatch, .cRekey, .cJournal, .cIncidents, .cBoot, .nv, .requests] : List Field))

theorem Follows.behind {m : State} (h : Follows m) : Behind m := ⟨⟨_, h.stored⟩, h.inOrder⟩

section Follows

variable {m t : State}

theorem Frame.stored {L : List Field} (f : Frame L m t)
    (hf : ∀ f ∈ ([.nv, .requests] : List Field), f ∉ L := by decide +kernel) :
    stored t.store = Machine.stored m.store ∧ (InOrder t.store ↔ InOrder m.store) := by
  have nv := f.nv (hf _ (by decide))
  have active : t.store.active = m.store.active := by
    rw [← f.eq]
    simp only [overlay, if_neg (hf .requests (by decide))]
  have queue : t.store.queue = m.store.queue := by
    rw [← f.eq]
    simp only [overlay, if_neg (hf .requests (by decide))]
  unfold Machine.stored InOrder
  rw [nv, active, queue]
  exact ⟨rfl, Iff.rfl⟩

theorem follows_keeps : Keeps Follows storeFields := fun m t f h => by
  obtain ⟨same, order⟩ := f.stored
  exact ⟨same.trans (h.stored.trans f.copies.symm), order.mpr h.inOrder⟩

theorem behind_keeps : Keeps Behind storeFields := fun m t f h => by
  obtain ⟨same, order⟩ := f.stored
  obtain ⟨w, e⟩ := h.stored
  exact ⟨⟨w, by rw [same, e, f.copies]⟩, order.mpr h.inOrder⟩

theorem follows_putBy (b : Block) (w : RecWrite) (h : Follows m) : Follows (putBy b w m) := by
  obtain ⟨stored, order⟩ := stored_requestWrite b w h.inOrder
  exact ⟨stored.trans (congrArg (applyWrite w) h.stored), order⟩

theorem follows_put (w : RecWrite) (h : Follows m) : Follows (put w m) := follows_putBy _ w h

theorem follows_putWatch (w : WatchRec) (h : Behind m) : Follows (putWatch w m) := by
  obtain ⟨v, e⟩ := h.stored
  obtain ⟨stored, order⟩ := stored_requestWrite (writeOwner (.watch w)) (.watch w) h.inOrder
  refine ⟨stored.trans ?_, order⟩
  rw [e]
  rfl

/-- Which writes are noted does not matter. -/
theorem follows_noted (l : List Nat) (h : Follows m) : Follows { m with store := { m.store with touched := l } } :=
  ⟨h.stored, h.inOrder⟩

theorem follows_removeWraps (p : WrapEntry → Bool) (h : Follows m) : Follows (removeWraps p m) := by
  refine keeps_foldl (fun u k hu => ?_) _ m h
  split
  · split
    · exact follows_put _ hu
    · exact hu
  · exact hu

end Follows

end Sys2Proof.Machine
end


-- ==== Sys2Proof/Proofs/StartUpErases.lean ====
section
/-! PROOF. What the start-up's evaluation and its erase make of the records that it has loaded (R144, R157 to R170, R188). -/

-- As in the tests: each theorem that waits for the kernel in parallel would keep a thread.
set_option Elab.async false

namespace Sys2Proof.Machine

theorem set_get {n : Nat} {α : Type} (v : Vector α n) (i j : Fin n) (a : α) : (v.set i a)[j] = if j = i then a else v[j] := by
  by_cases e : j = i
  · subst e
    simp
  · have : (i : Nat) ≠ j := fun x => e (Fin.ext x.symm)
    simp [e, this]

theorem putRange_get (r q : Fin 16) (v : RangeRec) (m : State) :
    (putRange r v m).copies.ranges[q] = if q = r then v else m.copies.ranges[q] := set_get m.copies.ranges r q v

/-! ## Ranges and records agree -/

/-- The runtime state of range `r` between the loading of the records and auto-open (R3). -/
def runOf (recs : Records) (r : Fin 16) : RangeRt := ⟨if recs.ranges[r].erased then .erased else .locked, false⟩

/-- A range is ERASED as its record says, and otherwise LOCKED. -/
def Marked (m : State) : Prop := ∀ r : Fin 16, m.ranges[r] = runOf m.copies r

theorem Marked.unheld {m : State} (h : Marked m) (r : Fin 16) : Unheld r m := by
  rw [Unheld, h r, runOf]
  dsimp only
  split <;> rfl

theorem marked_keeps : Keeps Marked (allFields.filter fun f => decide (f ∉ ([.ranges, .cRanges] : List Field))) :=
  fun m t f h r => by
    rw [f.ranges, h r, runOf, runOf, f.cRanges]

/-- What holds after each step of the start-up from its step 4 until its step 9. -/
structure Sound (m : State) : Prop where
  dormant : Dormant m
  marked : Marked m
  follows : Follows m

/-- Fields whose change does not matter to it. -/
abbrev soundFields : List Field := storeFields.filter fun f => decide (f ∈ dormantFields)

theorem sound_keeps : Keeps Sound soundFields := fun _ _ f h =>
  ⟨dormant_keeps.of h.dormant f, marked_keeps.of h.marked f, follows_keeps.of h.follows f⟩

theorem dormant_put (w : RecWrite) {m : State} (h : Dormant m) : Dormant (put w m) :=
  ⟨h.unheld, h.slots, h.adm, h.pending, h.rekey, h.sec, h.plat, h.up⟩

section Sound

variable {m : State}

/-- A write leaves it so, if it is not of a range record. -/
theorem sound_put {w : RecWrite} (h : Sound m) (f : Field) (hf : writeField w = f) (other : f ≠ .cRanges) : Sound (put w m) := by
  refine ⟨dormant_put w h.dormant, fun r => ?_, follows_put w h.follows⟩
  have same : (put w m).copies.ranges = m.copies.ranges := (frame_put w m f hf).cRanges (by
    simp only [List.mem_cons, List.not_mem_nil, or_false, not_or]
    exact ⟨fun x => other x.symm, by decide⟩)
  rw [runOf, same]
  exact h.marked r

/-- One of a range record leaves it so, if the range stays ERASED as it was. -/
theorem sound_putRange {r : Fin 16} {v : RangeRec} (h : Sound m) (same : v.erased = m.copies.ranges[r].erased) :
    Sound (putRange r v m) := by
  refine ⟨dormant_put _ h.dormant, fun q => (h.marked q).trans ?_, follows_put _ h.follows⟩
  unfold runOf
  rw [putRange_get]
  by_cases e : q = r
  · rw [if_pos e, same, e]
  · rw [if_neg e]

theorem sound_addIncident (k : IncidentKind) (h : Sound m) : Sound (addIncident k m) := sound_put h .cIncidents rfl (by decide)

/-- Which writes are noted does not matter. -/
theorem sound_noted (l : List Nat) (h : Sound m) : Sound { m with store := { m.store with touched := l } } :=
  ⟨dormant_keeps (s := m) (Frame.within (L := [.requests]) ⟨rfl, rfl, le_rfl⟩) h.dormant, h.marked, follows_noted l h.follows⟩

theorem sound_removeWraps (p : WrapEntry → Bool) (h : Sound m) : Sound (removeWraps p m) := by
  refine keeps_foldl (fun u k hu => ?_) _ m h
  split
  · split
    · exact sound_put hu .cWraps rfl (by decide)
    · exact hu
  · exact hu

theorem sound_enterWatch (w : WatchRec) (dormant : Dormant m) (marked : Marked m) (behind : Behind m) :
    Sound (enterWatch w m) := by
  have put : Sound (putWatch w m) := ⟨dormant_put _ dormant, marked, follows_putWatch w behind⟩
  rw [enterWatch_dormant dormant]
  exact sound_keeps.of (sound_keeps.of (sound_addIncident _ put) (frame_decayed _ _ _)) (frame_noticeBoth _ _)

theorem enterWatch_left (w : WatchRec) (h : Dormant m) : (enterWatch w m).copies.watch = w
    ∧ Frame entryFields m (enterWatch w m) := ⟨(enterWatch_records w m).1, frame_enterWatch_dormant h w⟩

end Sound


/-! ## What the steps before auto-open leave of the records -/

/-- Between `m` and `t` at most `n` incidents have joined, all of this start-up. -/
def Joins (n : Nat) (m t : State) : Prop := ∃ l : List Incident, l.length ≤ n
  ∧ (∀ i ∈ l, i.boot = m.copies.boot ∧ i.uptime = m.uptime)
  ∧ t.copies.incidents = l.foldl (fun a i => joinIncident i a) m.copies.incidents

/-- Between `m` and `t` wrap entries have only gone. -/
def WrapsGo (m t : State) : Prop := ∀ k : Fin 64, t.copies.wraps[k] = none ∨ t.copies.wraps[k] = m.copies.wraps[k]

/-- Fields that these steps may change. -/
abbrev sinceFields : List Field := [.cWatch, .cIncidents, .cJournal, .cRekey, .cRanges, .cWraps, .requests, .waits, .nv,
  .secQueue, .platQueue, .marks, .decay, .orders, .scrubMarks, .starting, .stopping, .ranges, .draws]

/-- Between `m` and `t` the score stands, wrap entries only go, and at most `n` incidents have joined. -/
structure Since (n : Nat) (m t : State) : Prop where
  frame : Frame sinceFields m t
  score : t.copies.watch.score = m.copies.watch.score
  wraps : WrapsGo m t
  joins : Joins n m t

section Since

variable {m t u : State} {n k : Nat}

theorem Joins.mono (h : Joins n m t) (le : n ≤ k) : Joins k m t := by
  obtain ⟨l, len, tags, e⟩ := h
  exact ⟨l, len.trans le, tags, e⟩

theorem Since.mono (h : Since n m t) (le : n ≤ k) : Since k m t := ⟨h.frame, h.score, h.wraps, h.joins.mono le⟩

theorem Since.trans (h : Since n m t) (g : Since k t u) : Since (n + k) m u := by
  obtain ⟨l, len, tags, e⟩ := h.joins
  obtain ⟨l', len', tags', e'⟩ := g.joins
  refine ⟨h.frame.trans g.frame, g.score.trans h.score, fun w => ?_, l ++ l', ?_, fun i hi => ?_, ?_⟩
  · rcases g.wraps w with x | x
    · exact .inl x
    · rw [x]
      exact h.wraps w
  · rw [List.length_append]
    exact Nat.add_le_add len len'
  · rcases List.mem_append.mp hi with hi | hi
    · exact tags i hi
    · rw [← h.frame.cBoot, ← h.frame.uptime]
      exact tags' i hi
  · rw [e', e, List.foldl_append]

/-- Where the watch, the wrap table and the incidents stand. -/
theorem Since.of {L : List Field} (f : Frame L m t)
    (hl : L ⊆ sinceFields.filter (fun f => decide (f ∉ ([.cWatch, .cWraps, .cIncidents] : List Field))) := by decide +kernel) :
    Since 0 m t := by
  have g := f.mono hl
  exact ⟨g.mono (by decide +kernel), by rw [g.cWatch], fun k => .inr (by rw [g.cWraps]),
    [], le_rfl, fun i hi => (nomatch hi), g.cIncidents⟩

theorem Since.refl (m : State) : Since 0 m m := .of (L := []) (.refl _ m)

theorem Since.and {L : List Field} (h : Since n m t) (f : Frame L t u)
    (hl : L ⊆ sinceFields.filter (fun f => decide (f ∉ ([.cWatch, .cWraps, .cIncidents] : List Field))) := by decide +kernel) :
    Since n m u := h.trans (.of f hl)

theorem since_addIncident (k : IncidentKind) (m : State) : Since 1 m (addIncident k m) := by
  have f := frame_addIncident k m
  refine ⟨f.within, by rw [f.cWatch], fun k => .inr (by rw [f.cWraps]),
    [⟨k, m.copies.boot, m.uptime, m.copies.watch.score⟩], le_rfl, fun i hi => ?_, rfl⟩
  obtain rfl := List.mem_singleton.mp hi
  exact ⟨rfl, rfl⟩

/-- Where only the score of the watch record has to stand. -/
theorem since_watch {L : List Field} (f : Frame L m t) (score : t.copies.watch.score = m.copies.watch.score)
    (hl : L ⊆ sinceFields.filter (fun f => decide (f ∉ ([.cWraps, .cIncidents] : List Field))) := by decide +kernel) :
    Since 0 m t := by
  have g := f.mono hl
  exact ⟨g.mono (by decide +kernel), score, fun k => .inr (by rw [g.cWraps]),
    [], le_rfl, fun i hi => (nomatch hi), g.cIncidents⟩

theorem since_enterWatch {w : WatchRec} (h : Dormant m) (score : w.score = m.copies.watch.score) : Since 1 m (enterWatch w m) := by
  have put := since_watch (frame_put (.watch w) m .cWatch) score
  have joined := put.trans (since_addIncident (.stateChange w.state) (putWatch w m))
  rw [enterWatch_dormant h]
  exact (joined.trans (.of (frame_decayed _ _ _))).trans (.of (frame_noticeBoth _ _))

theorem since_removeWraps (p : WrapEntry → Bool) (m : State) : Since 0 m (removeWraps p m) := by
  have f := frame_removeWraps p m
  refine ⟨f.within, by rw [f.cWatch], ?_, [], le_rfl, fun i hi => (nomatch hi), f.cIncidents⟩
  intro k
  rw [removeWraps_wraps]
  split
  · exact .inl rfl
  · exact .inr rfl

end Since

end Sys2Proof.Machine
end


-- ==== Sys2Proof/Proofs/EraseSteps.lean ====
section
/-! PROOF. The steps of an erase that a start-up begins or resumes (R157 to R170, R188). -/

-- As in the tests: each theorem that waits for the kernel in parallel would keep a thread.
set_option Elab.async false

namespace Sys2Proof.Machine

/-! ## The steps, one by one -/

/-- An erase with the journal `j`, at any of its steps before the last, is under way since `m`. -/
structure Erasing (m : State) (n : Nat) (j : Journal) (t : State) : Prop where
  sound : Sound t
  since : Since n m t
  journal : ∃ k, t.copies.journal = some { j with step := k }
  state : t.copies.watch.state = .erasing

/-- Fields whose change does not matter to it. -/
abbrev erasingFields : List Field :=
  [.waits, .secQueue, .platQueue, .marks, .decay, .orders, .scrubMarks, .starting, .stopping]

/-- R26: the keys of range `r` are destroyed, if it is defined. -/
def Destroyed (r : Fin 16) (t : State) : Prop := rangeDefined t.copies r = true →
  t.copies.ranges[r].current = none ∧ t.copies.ranges[r].next = none ∧ t.copies.ranges[r].erased = true

/-- The keys and the wrap table are destroyed, and the rekey record is gone (R160, R162). -/
structure Wiped (t : State) : Prop where
  rekey : t.copies.rekey = none
  wraps : ∀ k : Fin 64, t.copies.wraps[k] = none
  ranges : ∀ r, Destroyed r t

theorem wiped_keeps : Keeps Wiped (allFields.filter fun f => decide (f ∉ ([.cRekey, .cWraps, .cRanges] : List Field))) :=
  fun m t f h => ⟨f.cRekey.trans h.rekey, by rw [f.cWraps]; exact h.wraps, by
    unfold Destroyed rangeDefined
    rw [f.cRanges]
    exact h.ranges⟩

/-- The end of an erase (R168). -/
structure Concluded (m : State) (n : Nat) (j : Journal) (w : EraseResult) (t : State) : Prop where
  sound : Sound t
  since : Since n m t
  journal : t.copies.journal = some { j with step := 5, result := some w }
  state : t.copies.watch.state = .erased

section Steps

variable {m t : State} {n : Nat} {j : Journal}

theorem erasing_keeps (m : State) (n : Nat) (j : Journal) : Keeps (Erasing m n j) erasingFields := fun t u f h => by
  refine ⟨sound_keeps.of h.sound f, h.since.and f, ?_, ?_⟩
  · rw [f.cJournal]
    exact h.journal
  · rw [f.cWatch]
    exact h.state

theorem Erasing.noted (h : Erasing m n j t) (l : List Nat) :
    Erasing m n j { t with store := { t.store with touched := l } } :=
  ⟨sound_noted l h.sound, h.since.and (L := [.requests]) ⟨rfl, rfl, le_rfl⟩, h.journal, h.state⟩

theorem Erasing.mono {k : Nat} (h : Erasing m n j t) (le : n ≤ k) : Erasing m k j t :=
  ⟨h.sound, h.since.mono le, h.journal, h.state⟩

theorem reachStep_eq {k : Nat} {i : Journal} (h : t.copies.journal = some i) :
    reachStep k t = noticeBoth (.eraseStep k) (addIncident (.eraseStep k) (putJournal (some { i with step := k }) t)) := by
  unfold reachStep
  rw [h]

/-- R159: a step is reached. -/
theorem erasing_reachStep (k : Nat) (h : Erasing m n j t) : Erasing m (n + 1) j (reachStep k t)
    ∧ (reachStep k t).copies.journal = some { j with step := k } := by
  obtain ⟨sound, since, ⟨i, journal⟩, state⟩ := h
  have put := frame_put (.journal (some { j with step := k })) t .cJournal
  have same : (putJournal (some { j with step := k }) t).copies.journal = some { j with step := k } := rfl
  have sound' : Sound (putJournal (some { j with step := k }) t) := sound_put sound .cJournal rfl (by decide)
  have since' := since.and put
  rw [reachStep_eq journal]
  change Frame _ t (putJournal (some { j with step := k }) t) at put
  change Since n m (putJournal (some { j with step := k }) t) at since'
  change Erasing m (n + 1) j (noticeBoth (.eraseStep k) (addIncident (.eraseStep k) (putJournal (some { j with step := k }) t)))
    ∧ (noticeBoth (.eraseStep k) (addIncident (.eraseStep k) (putJournal (some { j with step := k }) t))).copies.journal = _
  generalize putJournal (some { j with step := k }) t = u at put same sound' since' ⊢
  have f := (frame_noticeBoth (.eraseStep k) _).after (N := [.cIncidents, .requests, .secQueue, .platQueue, .marks])
    (frame_addIncident (.eraseStep k) u)
  have journal' := f.cJournal.trans same
  exact ⟨⟨sound_keeps.of (sound_addIncident _ sound') (frame_noticeBoth _ _),
    (since'.trans (since_addIncident (.eraseStep k) u)).and (frame_noticeBoth _ _), ⟨k, journal'⟩,
    by rw [f.cWatch, put.cWatch, state]⟩, journal'⟩

/-- R160. -/
theorem erasing_haltWork (h : Erasing m n j t) : Erasing m n j (haltWork t) ∧ (haltWork t).copies.rekey = none
    ∧ (t.store.waits = [] → (haltWork t).store.waits = []) := by
  obtain ⟨alone, records⟩ := haltWork_dormant h.sound.dormant
  cases hk : t.copies.rekey with
  | none =>
    rw [alone hk]
    exact ⟨h, hk, id⟩
  | some k =>
    rw [records k hk]
    obtain ⟨sound, since, journal, state⟩ := (erasing_keeps m n j) (s := t) (t := unwindowed t)
      (Frame.within (L := [.waits]) ⟨rfl, rfl, le_rfl⟩) h
    have gone : Sound (putRekey none (unwindowed t)) := sound_put sound .cRekey rfl (by decide)
    have f := (frame_put (.range k.range { t.copies.ranges[k.range] with next := none }) _ .cRanges).after
      (N := [.cRekey, .cRanges, .requests]) (frame_put (.rekey none) (unwindowed t) .cRekey)
    change Frame _ _ (putRange _ _ (putRekey none (unwindowed t))) at f
    refine ⟨⟨sound_putRange gone rfl, since.and f, ?_, ?_⟩, rfl, fun none_ => ?_⟩
    · rw [f.cJournal]
      exact journal
    · rw [f.cWatch]
      exact state
    · rw [f.waits]
      unfold unwindowed
      dsimp only
      rw [none_]
      rfl

theorem destroyRange_get (r q : Fin 16) (t : State) : (destroyRange r t).copies.ranges[q]
    = if q = r then { t.copies.ranges[r] with
        current := none, next := none, generation := nextGeneration t.copies.ranges[r].generation, salt := ⟨t.draws⟩
        erased := true }
      else t.copies.ranges[q] := set_get t.copies.ranges r q _

theorem sound_destroyRange (r : Fin 16) (h : Sound t) : Sound (destroyRange r t) := by
  have f := frame_destroyRange r t
  have put : Follows (destroyRange r t) := follows_keeps.of (follows_put _ (follows_keeps.of h.follows (frame_drawSalt t)))
    (frame_setRun r .erased _)
  have marked : Marked (destroyRange r t) := by
    intro q
    have at_ : (destroyRange r t).ranges[q] = if q = r then ⟨.erased, t.ranges[r].sleepMark⟩ else t.ranges[q] :=
      set_get t.ranges r q _
    rw [at_, runOf, destroyRange_get]
    split
    · rw [h.marked r]
      rfl
    · exact h.marked q
  exact ⟨h.dormant.of f marked.unheld, marked, put⟩

theorem destroyed_destroyRange (r q : Fin 16) (h : Destroyed q t ∨ q = r) : Destroyed q (destroyRange r t) := by
  intro defined
  rw [destroyRange_get]
  by_cases e : q = r
  · rw [if_pos e]
    exact ⟨rfl, rfl, rfl⟩
  · have same := destroyRange_get r q t
    rw [if_neg e] at same ⊢
    refine h.resolve_right e ?_
    unfold rangeDefined at defined ⊢
    rwa [same] at defined

theorem removeWraps_all (t : State) (k : Fin 64) : (removeWraps (fun _ => true) t).copies.wraps[k] = none := by
  rw [removeWraps_wraps]
  cases t.copies.wraps[k] <;> rfl

/-- R162: one range of a destruction. -/
def destroyOne (t : State) (r : Fin 16) : State := if rangeDefined t.copies r then destroyRange r t else t

theorem destroyWork_eq (t : State) :
    destroyWork t = (List.finRange 16).foldl destroyOne (removeWraps (fun _ => true) t) := rfl

theorem sound_destroyOne (t : State) (r : Fin 16) (h : Sound t) : Sound (destroyOne t r) := by
  unfold destroyOne
  split
  · exact sound_destroyRange r h
  · exact h

theorem destroyed_destroyOne {r q : Fin 16} (h : Destroyed q t ∨ q = r) : Destroyed q (destroyOne t r) := by
  unfold destroyOne
  split
  · exact destroyed_destroyRange r q h
  · rename_i undefined
    rcases h with h | rfl
    · exact h
    · exact fun x => absurd x undefined

/-- A pass makes of each of its items what its step makes of it, if no step ends that. -/
theorem foldl_makes {α : Type} {P : State → Prop} {f : State → α → State} {q : α} (keep : ∀ s a, P s → P (f s a))
    (make : ∀ s, P (f s q)) {l : List α} (mem : q ∈ l) (s : State) : P (l.foldl f s) := by
  induction l generalizing s with
  | nil => cases mem
  | cons a l ih =>
    rw [List.foldl_cons]
    rcases List.mem_cons.mp mem with rfl | mem
    · exact keeps_foldl keep l _ (make s)
    · exact ih mem _

/-- R162. -/
theorem erasing_destroyWork (h : Erasing m n j t) (rekey : t.copies.rekey = none) :
    Erasing m n j (destroyWork t) ∧ Wiped (destroyWork t) := by
  have f := frame_destroyWork t
  have removed : Sound (removeWraps (fun _ => true) t) := sound_removeWraps _ h.sound
  have since := h.since.trans (since_removeWraps (fun _ => true) t)
  have none_ := removeWraps_all t
  rw [destroyWork_eq] at f ⊢
  generalize removeWraps (fun _ => true) t = u at f removed since none_ ⊢
  have e : Frame [.ranges, .draws, .cRanges, .requests] u ((List.finRange 16).foldl destroyOne u) :=
    .foldl (fun s r => .ite (frame_destroyRange r s) (.refl _ s)) _ u
  exact ⟨⟨keeps_foldl sound_destroyOne _ u removed, since.and e, by rw [f.cJournal]; exact h.journal,
      by rw [f.cWatch]; exact h.state⟩,
    f.cRekey.trans rekey, by rw [e.cWraps]; exact none_,
    fun r => foldl_makes (P := Destroyed r) (f := destroyOne) (fun _ _ x => destroyed_destroyOne (.inl x))
      (fun _ => destroyed_destroyOne (.inr rfl)) (List.mem_finRange r) u⟩

/-- R168: nothing is left of the scrub. -/
def unscrubbed (t : State) : State :=
  { t with erase := { t.erase with orders := [], retries := [], done := [], stopping := false } }

/-- R168: the journal tells the result. -/
def doneJournal (i : Journal) (w : EraseResult) (t : State) : State :=
  noticeBoth (.eraseStep 5) (addIncident (.eraseStep 5) (putJournal (some { i with step := 5, result := some w }) t))

theorem finishErase_eq {i : Journal} {w : EraseResult} (h : t.copies.journal = some i) : finishErase w t
    = noticeBoth (.eraseDone w) (unscrubbed (enterWatch { (doneJournal i w t).copies.watch with state := .erased }
        (doneJournal i w t))) := by
  unfold finishErase
  rw [h]
  rfl

theorem doneJournal_left {i : Journal} (w : EraseResult) (sound : Sound t) (since : Since n m t) :
    Sound (doneJournal i w t) ∧ Since (n + 1) m (doneJournal i w t)
      ∧ (doneJournal i w t).copies.journal = some { i with step := 5, result := some w }
      ∧ Frame [.cJournal, .cIncidents, .requests, .secQueue, .platQueue, .marks] t (doneJournal i w t) := by
  have put := frame_put (.journal (some { i with step := 5, result := some w })) t .cJournal
  have same : (putJournal (some { i with step := 5, result := some w }) t).copies.journal
    = some { i with step := 5, result := some w } := rfl
  have sound' : Sound (putJournal (some { i with step := 5, result := some w }) t) := sound_put sound .cJournal rfl (by decide)
  have since' : Since n m (putJournal (some { i with step := 5, result := some w }) t) := since.and put
  change Frame _ t (putJournal _ t) at put
  unfold doneJournal
  generalize putJournal (some { i with step := 5, result := some w }) t = u at put same sound' since' ⊢
  have f := (frame_noticeBoth (.eraseStep 5) _).after (N := [.cIncidents, .requests, .secQueue, .platQueue, .marks])
    (frame_addIncident (.eraseStep 5) u)
  exact ⟨sound_keeps.of (sound_addIncident _ sound') (frame_noticeBoth _ _),
    (since'.trans (since_addIncident (.eraseStep 5) u)).and (frame_noticeBoth _ _), f.cJournal.trans same, f.after put⟩

/-- R168. -/
theorem concluded_finishErase (w : EraseResult) (h : Erasing m n j t) : Concluded m (n + 2) j w (finishErase w t)
    ∧ (Wiped t → Wiped (finishErase w t)) ∧ (finishErase w t).store.waits = t.store.waits := by
  obtain ⟨sound, since, ⟨k, journal⟩, -⟩ := h
  obtain ⟨sound', since', journal', f⟩ := doneJournal_left (i := { j with step := k }) w sound since
  rw [finishErase_eq journal]
  generalize doneJournal { j with step := k } w t = u at sound' since' journal' f ⊢
  obtain ⟨watch, g⟩ := enterWatch_left { u.copies.watch with state := .erased } sound'.dormant
  have sound'' := sound_enterWatch { u.copies.watch with state := .erased } sound'.dormant sound'.marked sound'.follows.behind
  have since'' := since'.trans (since_enterWatch (w := { u.copies.watch with state := .erased }) sound'.dormant rfl)
  generalize enterWatch { u.copies.watch with state := .erased } u = v at watch g sound'' since'' ⊢
  have e : Frame [.orders, .scrubMarks, .stopping, .secQueue, .platQueue, .marks] v (noticeBoth (.eraseDone w) (unscrubbed v)) :=
    (frame_noticeBoth _ _).after (L := [.orders, .scrubMarks, .stopping]) ⟨rfl, rfl, le_rfl⟩
  refine ⟨⟨sound_keeps.of sound'' e, since''.and e, ?_, ?_⟩, fun wiped => ?_, ?_⟩
  · rw [e.cJournal, g.cJournal, journal']
  · rw [e.cWatch, watch]
  · exact wiped_keeps.of (wiped_keeps.of (wiped_keeps.of wiped f) g) e
  · rw [e.waits, g.waits, f.waits]

/-- One piece of work waits, and this is it. -/
def Awaits (c : Cont) (t : State) : Prop := ∃ ids, t.store.waits = [⟨ids, c⟩]

/-- R159: a step whose work goes on so. -/
theorem erasing_eraseThen {k : Nat} {work : State → State} {P : State → Prop} (keeps : Keeps P [.requests, .waits])
    (h : Erasing m n j t) (hw : Erasing m (n + 1) j (eraseReached k t) →
      Erasing m (n + 1) j (work (eraseReached k t)) ∧ P (work (eraseReached k t))
        ∧ (work (eraseReached k t)).store.waits = (eraseReached k t).store.waits) (none_ : t.store.waits = []) :
    Erasing m (n + 1) j (eraseThen k work t) ∧ P (eraseThen k work t) ∧ Awaits (.eraseNext (k + 1)) (eraseThen k work t) := by
  obtain ⟨worked, p, waits⟩ := hw (erasing_reachStep k (h.noted [])).1
  have asks := eraseThen_waits k work t
  rw [waits, eraseReached_waits, none_] at asks
  have f : Frame [.requests, .waits] (work (eraseReached k t)) (eraseThen k work t) := ⟨rfl, rfl, le_rfl⟩
  refine ⟨?_, keeps.of p f, _, asks⟩
  exact (erasing_keeps m (n + 1) j).of (worked.noted (t.store.touched ++ (work (eraseReached k t)).store.touched))
    (frame_addWait (work (eraseReached k t)).store.touched (.eraseNext (k + 1)) _)

theorem eraseNext_work (t : State) : eraseNext 1 t = eraseThen 1 haltWork t ∧ eraseNext 2 t = eraseThen 2 zeroizeWork t
    ∧ eraseNext 3 t = eraseThen 3 destroyWork t := by
  refine ⟨?_, ?_, ?_⟩
  · rw [eraseNext_eq, if_pos rfl]
  · rw [eraseNext_eq, if_neg (by decide), if_pos rfl]
  · rw [eraseNext_eq, if_neg (by decide), if_neg (by decide), if_pos rfl]

/-- R160, R161, R162: HALT, ZEROIZE and DESTROY. -/
theorem eraseNext_one (h : Erasing m n j t) (none_ : t.store.waits = []) : Erasing m (n + 1) j (eraseNext 1 t)
    ∧ (eraseNext 1 t).copies.rekey = none ∧ Awaits (.eraseNext 2) (eraseNext 1 t) := by
  rw [(eraseNext_work t).1]
  refine erasing_eraseThen (P := fun u => u.copies.rekey = none) (fun _ _ f x => f.cRekey.trans x) h (fun g => ?_) none_
  obtain ⟨g1, g2, g3⟩ := erasing_haltWork g
  have waits := (eraseReached_waits 1 t).trans none_
  exact ⟨g1, g2, (g3 waits).trans waits.symm⟩

theorem eraseNext_two (h : Erasing m n j t) (rekey : t.copies.rekey = none) (none_ : t.store.waits = []) :
    Erasing m (n + 1) j (eraseNext 2 t) ∧ (eraseNext 2 t).copies.rekey = none ∧ Awaits (.eraseNext 3) (eraseNext 2 t) := by
  rw [(eraseNext_work t).2.1]
  refine erasing_eraseThen (P := fun u => u.copies.rekey = none) (fun _ _ f x => f.cRekey.trans x) h (fun g => ?_) none_
  rw [zeroizeWork_dormant g.sound.dormant]
  exact ⟨g, (frame_reachStep 2 _).cRekey.trans rekey, rfl⟩

theorem eraseNext_three (h : Erasing m n j t) (rekey : t.copies.rekey = none) (none_ : t.store.waits = []) :
    Erasing m (n + 1) j (eraseNext 3 t) ∧ Wiped (eraseNext 3 t) ∧ Awaits (.eraseNext 4) (eraseNext 3 t) := by
  rw [(eraseNext_work t).2.2]
  refine erasing_eraseThen (P := Wiped) wiped_keeps.mono h (fun g => ?_) none_
  obtain ⟨g1, g2⟩ := erasing_destroyWork g ((frame_reachStep 3 _).cRekey.trans rekey)
  exact ⟨g1, g2, (frame_destroyWork _).waits⟩

/-- R169: step 4. -/
theorem startScrub_left (h : Erasing m n j t) (none_ : t.store.waits = []) : Erasing m (n + 1) j (startScrub t)
    ∧ (startScrub t).copies.journal = some { j with step := 4 } ∧ (Wiped t → Wiped (startScrub t))
    ∧ (t.copies.factory.capacity ≤ j.frontier → Awaits (.scrubEnd .complete) (startScrub t))
    ∧ (j.frontier < t.copies.factory.capacity → (startScrub t).store.waits = []) := by
  obtain ⟨reached, journal⟩ := erasing_reachStep 4 (h.noted [])
  have f := frame_reachStep 4 { t with store := { t.store with touched := [] } }
  have left : startScrub t = if (withTouched (reachStep 4) t).2.copies.factory.capacity ≤ j.frontier then
      addWait (withTouched (reachStep 4) t).1 (.scrubEnd .complete) (withTouched (reachStep 4) t).2
      else issueScrubs (withTouched (reachStep 4) t).2 := by
    have same : (withTouched (reachStep 4) t).2.copies.journal = some { j with step := 4 } := journal
    unfold startScrub
    dsimp only
    rw [same]
  have g : Erasing m (n + 1) j (withTouched (reachStep 4) t).2 := reached.noted _
  have copies : (withTouched (reachStep 4) t).2.copies = (reachStep 4 { t with store := { t.store with touched := [] } }).copies := rfl
  have waits : (withTouched (reachStep 4) t).2.store.waits = [] := f.waits.trans none_
  rw [left, issueScrubs_dormant g.sound.dormant, copies, f.capacity]
  generalize withTouched (reachStep 4) t = x at g copies waits
  rw [← copies] at journal
  have wiped : Wiped t → Wiped x.2 := fun w => by
    have started : Wiped { t with store := { t.store with touched := [] } } := ⟨w.rekey, w.wraps, w.ranges⟩
    have := wiped_keeps.of started f
    exact ⟨by rw [copies]; exact this.rekey, by rw [copies]; exact this.wraps, fun r => by
      unfold Destroyed
      rw [copies]
      exact this.ranges r⟩
  have goes := frame_addWait x.1 (.scrubEnd .complete) x.2
  split
  · rename_i full
    have full : t.copies.factory.capacity ≤ j.frontier := full
    refine ⟨(erasing_keeps m (n + 1) j).of g goes, journal, fun w => wiped_keeps.of (wiped w) goes, fun _ => ⟨x.1, ?_⟩,
      fun more => absurd full (by omega)⟩
    rw [addWait_waits, waits]
    rfl
  · rename_i more
    exact ⟨g, journal, wiped, fun full => absurd full more, fun _ => waits⟩

end Steps

end Sys2Proof.Machine
end


-- ==== Sys2Proof/Proofs/StartUpRuns.lean ====
section
/-! PROOF. A start-up from the erase engine's look at the journal to the jobs (R169, R188): which erases it begins or
resumes, and how far each gets. -/

-- As in the tests: each theorem that waits for the kernel in parallel would keep a thread.
set_option Elab.async false

namespace Sys2Proof.Machine

/-! ## The steps of a start-up, as states -/

/-- R187: a step of the start-up ends with its writes. -/
def settled (t : State) : State := (Boot.settle ⟨t, []⟩).state

theorem frame_settled (t : State) : Frame [.nv, .requests, .waits] t (settled t) := frame_settle ⟨t, []⟩

theorem bootStep_state (f : State → State) (b : Boot) : (b.step f).state = settled (f b.state) := rfl

theorem settled_store (t : State) : (settled t).store.nv = stored t.store ∧ (settled t).store.active = none
    ∧ (settled t).store.queue = [] ∧ (settled t).store.waits = t.store.waits.map fun w => { w with ids := [] } := by
  refine ⟨?_, rfl, rfl, rfl⟩
  exact List.foldl_map

theorem follows_settled {t : State} (h : Follows t) : Follows (settled t) := by
  obtain ⟨nv, active, queue, -⟩ := settled_store t
  refine ⟨?_, fun _ => queue⟩
  unfold stored
  rw [nv, active, queue]
  exact h.stored.trans (frame_settled t).copies.symm

theorem behind_settled {t : State} (h : Behind t) : Behind (settled t) := by
  obtain ⟨nv, active, queue, -⟩ := settled_store t
  obtain ⟨w, e⟩ := h.stored
  refine ⟨⟨w, ?_⟩, fun _ => queue⟩
  unfold stored
  rw [nv, active, queue, (frame_settled t).copies]
  exact e

theorem sound_settled {t : State} (h : Sound t) : Sound (settled t) :=
  ⟨dormant_keeps.of h.dormant (frame_settled t), marked_keeps.of h.marked (frame_settled t), follows_settled h.follows⟩

/-- R188: an erase goes on, step by step. -/
def eraseRun : Nat → State → State
  | 0, t => t
  | n + 1, t => if t.store.waits.isEmpty then t else eraseRun n (settled (runReady (fun _ => true) t.store.waits.length t))

theorem runErase_state (n : Nat) (b : Boot) : (Boot.runErase n b).state = eraseRun n b.state := by
  induction n generalizing b with
  | zero => rfl
  | succ n ih =>
    unfold Boot.runErase eraseRun
    split
    · rfl
    · rw [ih]
      rfl

theorem eraseRun_succ (n : Nat) (t : State) : eraseRun (n + 1) t
    = if t.store.waits.isEmpty then t else eraseRun n (settled (runReady (fun _ => true) t.store.waits.length t)) := rfl

theorem eraseRun_idle (n : Nat) {t : State} (h : t.store.waits = []) : eraseRun n t = t := by
  cases n with
  | zero => rfl
  | succ n =>
    unfold eraseRun
    rw [h]
    rfl

/-- The work that waited is taken. -/
def worked (t : State) : State := { t with store := { t.store with waits := [] } }

theorem frame_worked (t : State) : Frame [.waits] t (worked t) := ⟨rfl, rfl, le_rfl⟩

theorem worked_waits (t : State) : (worked t).store.waits = [] := rfl

theorem eraseRun_next (n : Nat) {c : Cont} {t : State} (h : t.store.waits = [⟨[], c⟩]) :
    eraseRun (n + 1) t = eraseRun n (settled (runCont c (worked t))) := by
  have run : runReady (fun _ => true) 1 t = runCont c (worked t) := by
    unfold runReady
    rw [h]
    rfl
  rw [eraseRun_succ, h]
  exact congrArg (fun u => eraseRun n (settled u)) run

/-- A step that leaves one piece of work is followed by that work. -/
theorem eraseRun_awaits (n : Nat) {c : Cont} {t : State} (h : Awaits c t) :
    eraseRun (n + 1) (settled t) = eraseRun n (settled (runCont c (worked (settled t)))) := by
  obtain ⟨ids, waits⟩ := h
  refine eraseRun_next n ?_
  rw [(settled_store t).2.2.2, waits]
  rfl

theorem runCont_eraseNext (k : Nat) (t : State) : runCont (.eraseNext k) t = eraseNext k t := rfl

theorem eraseRun_none (n : Nat) {t : State} (h : t.store.waits = []) : eraseRun n (settled t) = settled t :=
  eraseRun_idle n (by rw [(settled_store t).2.2.2, h]; rfl)

/-! ## An erase goes on to its scrub -/

section Runs

variable {m t : State} {n : Nat} {j : Journal}

theorem erasing_settled (h : Erasing m n j t) : Erasing m n j (settled t) := by
  have f := frame_settled t
  refine ⟨sound_settled h.sound, h.since.and f, ?_, ?_⟩
  · rw [f.cJournal]
    exact h.journal
  · rw [f.cWatch]
    exact h.state

/-- What the next step of an erase starts from. -/
theorem erasing_worked (h : Erasing m n j t) : Erasing m n j (worked (settled t)) :=
  (erasing_keeps m n j).of (erasing_settled h) (frame_worked _)

theorem wiped_settled (h : Wiped t) : Wiped (settled t) := wiped_keeps.of h (frame_settled t)

theorem wiped_worked (h : Wiped t) : Wiped (worked (settled t)) := wiped_keeps.of (wiped_settled h) (frame_worked _)

theorem halted_worked (h : t.copies.rekey = none) : (worked (settled t)).copies.rekey = none :=
  (frame_worked _).cRekey.trans ((frame_settled t).cRekey.trans h)

theorem concluded_settled {w : EraseResult} (h : Concluded m n j w t) : Concluded m n j w (settled t) := by
  have f := frame_settled t
  exact ⟨sound_settled h.sound, h.since.and f, f.cJournal.trans h.journal, by rw [f.cWatch, h.state]⟩

/-- R169, R170: where a scrub found with the journal `j` stands when the start-up goes on. -/
structure ScrubRests (m : State) (n : Nat) (j : Journal) (t : State) : Prop where
  idle : t.store.waits = []
  goes : j.frontier < m.copies.factory.capacity → Erasing m n j t ∧ t.copies.journal = some { j with step := 4 }
  ends : m.copies.factory.capacity ≤ j.frontier → Concluded m n j .complete t

/-- The same of an erase that has its keys still to destroy. -/
structure EraseRests (m : State) (n : Nat) (j : Journal) (t : State) : Prop where
  idle : t.store.waits = []
  scrubs : m.copies.policy.scrubEnable = true → ScrubRests m n j t
  skips : m.copies.policy.scrubEnable = false → Concluded m n j .scrubSkipped t

theorem Since.capacity (h : Since n m t) : t.copies.factory.capacity = m.copies.factory.capacity := by
  rw [h.frame.capacity]

theorem Since.policy (h : Since n m t) : t.copies.policy = m.copies.policy := h.frame.cPolicy

/-- R169: a scrub found at the end of the drive ends. -/
theorem scrubRests_startScrub (p : Nat) (h : Erasing m n j t) (none_ : t.store.waits = []) :
    ScrubRests m (n + 3) j (eraseRun (p + 1) (settled (startScrub t)))
      ∧ (Wiped t → Wiped (eraseRun (p + 1) (settled (startScrub t)))) := by
  obtain ⟨goes, journal, wiped, full, more⟩ := startScrub_left h none_
  rw [h.since.capacity] at full more
  by_cases c : m.copies.factory.capacity ≤ j.frontier
  · have ends := concluded_finishErase .complete (erasing_worked goes)
    obtain ⟨done, still, waits⟩ := ends
    have idle : (finishErase .complete (worked (settled (startScrub t)))).store.waits = [] := waits
    rw [eraseRun_awaits p (full c)]
    change ScrubRests m (n + 3) j (eraseRun p (settled (finishErase .complete (worked (settled (startScrub t))))))
      ∧ (Wiped t → Wiped (eraseRun p (settled (finishErase .complete (worked (settled (startScrub t)))))))
    rw [eraseRun_none p idle]
    refine ⟨⟨?_, fun x => absurd c (by omega), fun _ => concluded_settled done⟩,
      fun w => wiped_settled (still (wiped_worked (wiped w)))⟩
    rw [(settled_store _).2.2.2, idle]
    rfl
  · have idle := more (by omega)
    rw [eraseRun_none _ idle]
    refine ⟨⟨?_, fun _ => ⟨(erasing_settled goes).mono (by omega), (frame_settled _).cJournal.trans journal⟩,
      fun x => absurd x c⟩, fun w => wiped_settled (wiped w)⟩
    rw [(settled_store _).2.2.2, idle]
    rfl

/-- R159, R163, R168: from DESTROY on. -/
theorem eraseRests_four (p : Nat) (h : Erasing m n j t) (wiped : Wiped t) (none_ : t.store.waits = []) :
    EraseRests m (n + 3) j (eraseRun (p + 1) (settled (eraseNext 4 t)))
      ∧ Wiped (eraseRun (p + 1) (settled (eraseNext 4 t))) := by
  have four : eraseNext 4 t = if t.copies.policy.scrubEnable then startScrub t else finishErase .scrubSkipped t := by
    rw [eraseNext_eq, if_neg (by decide), if_neg (by decide), if_neg (by decide)]
  rw [four, h.since.policy]
  by_cases scrub : m.copies.policy.scrubEnable = true
  · rw [if_pos scrub]
    obtain ⟨rests, still⟩ := scrubRests_startScrub p h none_
    exact ⟨⟨rests.idle, fun _ => rests, fun x => absurd scrub (by rw [x]; decide)⟩, still wiped⟩
  · rw [if_neg scrub]
    obtain ⟨done, still, waits⟩ := concluded_finishErase .scrubSkipped h
    have idle := waits.trans none_
    rw [eraseRun_none _ idle]
    refine ⟨⟨?_, fun x => absurd x scrub, fun _ => ?_⟩, wiped_settled (still wiped)⟩
    · rw [(settled_store _).2.2.2, idle]
      rfl
    · obtain ⟨d1, d2, d3, d4⟩ := concluded_settled done
      exact ⟨d1, d2.mono (by omega), d3, d4⟩

theorem eraseRests_three (p : Nat) (h : Erasing m n j t) (rekey : t.copies.rekey = none) (none_ : t.store.waits = []) :
    EraseRests m (n + 4) j (eraseRun (p + 2) (settled (eraseNext 3 t)))
      ∧ Wiped (eraseRun (p + 2) (settled (eraseNext 3 t))) := by
  obtain ⟨goes, wiped, awaits⟩ := eraseNext_three h rekey none_
  rw [eraseRun_awaits (p + 1) awaits, runCont_eraseNext]
  exact eraseRests_four p (erasing_worked goes) (wiped_worked wiped) (worked_waits _)

theorem eraseRests_one (p : Nat) (h : Erasing m n j t) (none_ : t.store.waits = []) :
    EraseRests m (n + 6) j (eraseRun (p + 4) (settled (eraseNext 1 t)))
      ∧ Wiped (eraseRun (p + 4) (settled (eraseNext 1 t))) := by
  obtain ⟨goes, rekey, awaits⟩ := eraseNext_one h none_
  rw [eraseRun_awaits (p + 3) awaits, runCont_eraseNext]
  obtain ⟨goes', rekey', awaits'⟩ := eraseNext_two (erasing_worked goes) (halted_worked rekey) (worked_waits _)
  rw [eraseRun_awaits (p + 2) awaits', runCont_eraseNext]
  exact eraseRests_three p (erasing_worked goes') (halted_worked rekey') (worked_waits _)

/-! ## An erase begins -/

/-- R157: an erase with the journal `j` has begun since `m`; its step 0 is being written. -/
structure Starting (m : State) (n : Nat) (j : Journal) (t : State) : Prop where
  dormant : Dormant t
  marked : Marked t
  behind : Behind t
  since : Since n m t
  journal : t.copies.journal = some j
  state : t.copies.watch.state = .erasing

/-- R157, step 1: the journal of an erase that begins. -/
def newJournal (cause : EraseCause) : Journal := ⟨cause, 0, 0, [], none⟩

/-- R157, step 1: the watch is ERASING, and the engine has this erase alone. -/
def begun (ids : List Nat) (t : State) : State :=
  { t with
    copies := { t.copies with watch := { t.copies.watch with state := .erasing } }
    erase := { orders := [], retries := [], done := [], starting := ids.getLast?, stopping := false } }

theorem startErase_eq (cause : EraseCause) (h : alive t.copies.watch.state = true) : startErase cause t
    = setDecay none (setPending [] (addWait (withTouched (putJournal (some (newJournal cause))) t).1 .eraseEntered
        (begun (withTouched (putJournal (some (newJournal cause))) t).1
          (withTouched (putJournal (some (newJournal cause))) t).2))) := by
  unfold startErase
  rw [if_pos h]
  rfl

theorem starting_startErase (cause : EraseCause) (h : Sound t) (since : Since n m t) (lives : alive t.copies.watch.state = true)
    (none_ : t.store.waits = []) :
    Starting m n (newJournal cause) (startErase cause t) ∧ Awaits .eraseEntered (startErase cause t) := by
  have f := frame_startErase cause t
  have watch := startErase_watch (cause := cause) lives
  have put : Sound (withTouched (putJournal (some (newJournal cause))) t).2 :=
    sound_noted _ (sound_put (sound_noted [] h) .cJournal rfl (by decide))
  have g := frame_withTouched (fun s => frame_put (.journal (some (newJournal cause))) s .cJournal) t
  have same : (withTouched (putJournal (some (newJournal cause))) t).2.copies.journal = some (newJournal cause) := rfl
  change Frame _ t (withTouched (putJournal (some (newJournal cause))) t).2 at g
  rw [startErase_eq cause lives] at f watch ⊢
  generalize withTouched (putJournal (some (newJournal cause))) t = x at f watch put g same
  have b : Behind (begun x.1 x.2) := ⟨⟨x.2.copies.watch, put.follows.stored⟩, put.follows.inOrder⟩
  have e : Frame [.cWatch, .orders, .scrubMarks, .starting, .stopping] x.2 (begun x.1 x.2) := ⟨rfl, rfl, le_rfl⟩
  have dormant := dormant_keeps.of put.dormant e
  have idle := setPending_dormant (dormant_keeps.of dormant (frame_addWait x.1 .eraseEntered _))
  rw [idle] at f watch ⊢
  have d := (frame_setDecay none _).after (N := [.waits, .decay]) (frame_addWait x.1 .eraseEntered (begun x.1 x.2))
  refine ⟨⟨dormant_keeps.of dormant d, marked_keeps.of (marked_keeps.of put.marked e) d, behind_keeps.of b d,
    since.trans (since_watch (L := [.cJournal, .cWatch, .requests, .waits, .orders, .scrubMarks, .starting, .stopping, .decay]) ?_ ?_),
    ?_, ?_⟩, x.1, ?_⟩
  · exact (g.within.trans e.within).trans d.within
  · rw [watch]
  · exact d.cJournal.trans (e.cJournal.trans same)
  · rw [watch]
  · have waits : (begun x.1 x.2).store.waits = [] := e.waits.trans (g.waits.trans none_)
    change (begun x.1 x.2).store.waits ++ _ = _
    rw [waits]
    rfl

theorem sound_touched {f : State → State} (h : Sound (f { t with store := { t.store with touched := [] } })) :
    Sound (withTouched f t).2 := sound_noted _ h

theorem since_touched {f : State → State} (h : Since n m (f { t with store := { t.store with touched := [] } })) :
    Since n m (withTouched f t).2 := h.and (L := [.requests]) ⟨rfl, rfl, le_rfl⟩

/-- R157, steps 2 and 3: the start is told. -/
def startTold (t : State) : State := noticeBoth (.eraseStep 0) (addIncident (.eraseStep 0) t)

theorem frame_startTold (t : State) : Frame [.cIncidents, .requests, .secQueue, .platQueue, .marks] t (startTold t) :=
  (frame_noticeBoth _ _).after (frame_addIncident (.eraseStep 0) t)

/-- R157, step 2: the journal's step 0 is written. -/
def startWritten (t : State) : State := { t with erase := { t.erase with starting := none } }

/-- R157, step 2: the watch completes its entry to ERASING. -/
def erasingEntered (t : State) : List Nat × State :=
  withTouched (enterWatch { t.copies.watch with state := .erasing }) (startWritten t)

theorem erasingEntered_left (h : Starting m n j t) : Sound (erasingEntered t).2 ∧ Since (n + 1) m (erasingEntered t).2
    ∧ (erasingEntered t).2.copies.journal = some j ∧ (erasingEntered t).2.copies.watch.state = .erasing
    ∧ (erasingEntered t).2.store.waits = t.store.waits := by
  obtain ⟨dormant, marked, behind, since, journal, -⟩ := h
  have f : Frame [.starting] t (startWritten t) := ⟨rfl, rfl, le_rfl⟩
  have g : Frame [.requests] (startWritten t) { startWritten t with store := { t.store with touched := [] } } :=
    ⟨rfl, rfl, le_rfl⟩
  have dormant' := dormant_keeps.of (dormant_keeps.of dormant f) g
  have behind' : Behind { startWritten t with store := { t.store with touched := [] } } := ⟨behind.stored, behind.inOrder⟩
  have since' := (since.and f).and g
  have e : t.copies = ({ startWritten t with store := { t.store with touched := [] } } : State).copies := rfl
  have waits : ({ startWritten t with store := { t.store with touched := [] } } : State).store.waits = t.store.waits := rfl
  obtain ⟨watch, k⟩ := enterWatch_left { t.copies.watch with state := .erasing } dormant'
  exact ⟨sound_touched (sound_enterWatch _ dormant' (marked_keeps.of (marked_keeps.of marked f) g) behind'),
    since_touched (since'.trans (since_enterWatch dormant' rfl)), k.cJournal.trans journal,
    (congrArg WatchRec.state watch : _), k.waits.trans waits⟩

theorem eraseEntered_told (t : State) : eraseEntered t
    = addWait ((erasingEntered t).1 ++ (withTouched startTold (eraseTold (erasingEntered t).1 (erasingEntered t).2)).1) (.eraseNext 1)
        (platAnswerDue (withTouched startTold (eraseTold (erasingEntered t).1 (erasingEntered t).2)).2) := eraseEntered_eq t

/-- R157, steps 2 and 3. -/
theorem erasing_eraseEntered (h : Starting m n j t) (none_ : t.store.waits = []) :
    Erasing m (n + 2) j (eraseEntered t) ∧ Awaits (.eraseNext 1) (eraseEntered t) := by
  obtain ⟨sound, since, journal, state, waits⟩ := erasingEntered_left h
  rw [eraseEntered_told]
  generalize erasingEntered t = x at sound since journal state waits
  rw [eraseTold_dormant sound.dormant]
  have f := frame_withTouched (frame_startTold) x.2
  have told : Sound (withTouched startTold x.2).2 :=
    sound_touched (sound_keeps.of (sound_addIncident _ (sound_noted [] sound)) (frame_noticeBoth _ _))
  have fresh : Since (n + 1) m { x.2 with store := { x.2.store with touched := [] } } :=
    since.and (L := [.requests]) ⟨rfl, rfl, le_rfl⟩
  have joined : Since (n + 2) m (startTold { x.2 with store := { x.2.store with touched := [] } }) :=
    (fresh.trans (since_addIncident (.eraseStep 0) _)).and (frame_noticeBoth (.eraseStep 0) _)
  have since' : Since (n + 2) m (withTouched startTold x.2).2 := since_touched joined
  generalize withTouched startTold x.2 = y at f told since'
  rw [platAnswerDue_dormant told.dormant]
  have goes : Erasing m (n + 2) j y.2 :=
    ⟨told, since', ⟨j.step, f.cJournal.trans journal⟩, by rw [f.cWatch, state]⟩
  refine ⟨(erasing_keeps m (n + 2) j).of goes (frame_addWait _ _ _), x.1 ++ y.1, ?_⟩
  rw [addWait_waits, f.waits, waits, none_]
  rfl

theorem starting_worked (h : Starting m n j t) : Starting m n j (worked (settled t)) := by
  obtain ⟨dormant, marked, behind, since, journal, state⟩ := h
  have f := frame_settled t
  have g := frame_worked (settled t)
  exact ⟨dormant_keeps.of (dormant_keeps.of dormant f) g, marked_keeps.of (marked_keeps.of marked f) g,
    behind_keeps.of (behind_settled behind) g, (since.and f).and g, g.cJournal.trans (f.cJournal.trans journal),
    by rw [g.cWatch, f.cWatch, state]⟩

/-- R157 to R170: an erase that has begun. -/
theorem eraseRests_starting (p : Nat) (h : Starting m n j t) (awaits : Awaits .eraseEntered t) :
    EraseRests m (n + 8) j (eraseRun (p + 6) (settled t)) ∧ Wiped (eraseRun (p + 6) (settled t)) := by
  rw [eraseRun_awaits (p + 5) awaits]
  obtain ⟨goes, next⟩ := erasing_eraseEntered (starting_worked h) (worked_waits _)
  change EraseRests m (n + 8) j (eraseRun (p + 5) (settled (eraseEntered (worked (settled t)))))
    ∧ Wiped (eraseRun (p + 5) (settled (eraseEntered (worked (settled t)))))
  rw [eraseRun_awaits (p + 4) next, runCont_eraseNext]
  exact eraseRests_one p (erasing_worked goes) (worked_waits _)

end Runs

end Sys2Proof.Machine
end


-- ==== Sys2Proof/Proofs/StartUpJobs.lean ====
section
/-! PROOF. What the start-up's jobs leave of the records it has loaded: the erase that the journal names, the evaluation of
the score, and an exhaustion (R76, R144, R169, R188). -/

-- As in the tests: each theorem that waits for the kernel in parallel would keep a thread.
set_option Elab.async false

namespace Sys2Proof.Machine

/-! ## Nothing is left to write -/

/-- Every write has completed and no work waits. -/
def Still (t : State) : Prop := t.store.active = none ∧ t.store.queue = [] ∧ t.store.waits = []

theorem settled_still {t : State} (h : Still t) : settled t = t := by
  obtain ⟨active, queue, waits⟩ := h
  unfold settled Boot.settle
  dsimp only
  rw [active, queue, waits]
  have same : ({ t with store := { t.store with active := none, queue := [], waits := [] } } : State) = t := by
    rw [← active, ← queue, ← waits]
  exact same

theorem still_settled {t : State} (h : t.store.waits = []) : Still (settled t) :=
  ⟨rfl, rfl, by rw [(settled_store t).2.2.2, h]; rfl⟩

theorem eraseRun_settles (n : Nat) (t : State) : ∃ u, eraseRun n (settled t) = settled u := by
  induction n generalizing t with
  | zero => exact ⟨t, rfl⟩
  | succ n ih =>
    rw [eraseRun_succ]
    split
    · exact ⟨t, rfl⟩
    · exact ih _

theorem eraseRun_still {n : Nat} {t : State} (h : (eraseRun n (settled t)).store.waits = []) :
    Still (eraseRun n (settled t)) := by
  obtain ⟨u, e⟩ := eraseRun_settles n t
  rw [e] at h ⊢
  exact ⟨rfl, rfl, h⟩

/-- A step of the start-up that finds nothing to do. -/
theorem eraseRun_same (n : Nat) {t : State} (h : Still t) : eraseRun n (settled t) = t := by
  rw [settled_still h]
  exact eraseRun_idle n h.2.2

/-! ## The journal -/

section Jobs

variable {m t : State} {n : Nat} {j : Journal}

theorem ScrubRests.left (h : ScrubRests m n j t) : Sound t ∧ Since n m t ∧ alive t.copies.watch.state = false := by
  by_cases full : m.copies.factory.capacity ≤ j.frontier
  · obtain ⟨sound, since, -, state⟩ := h.ends full
    exact ⟨sound, since, by rw [state]; rfl⟩
  · obtain ⟨sound, since, -, state⟩ := (h.goes (by omega)).1
    exact ⟨sound, since, by rw [state]; rfl⟩

theorem EraseRests.left (h : EraseRests m n j t) : Sound t ∧ Since n m t ∧ alive t.copies.watch.state = false := by
  by_cases scrub : m.copies.policy.scrubEnable = true
  · exact (h.scrubs scrub).left
  · obtain ⟨sound, since, -, state⟩ := h.skips (by simpa using scrub)
    exact ⟨sound, since, by rw [state]; rfl⟩

/-- R169: an erase that was done. -/
structure DoneRests (m : State) (j : Journal) (t : State) : Prop where
  sound : Sound t
  since : Since 1 m t
  idle : t.store.waits = []
  journal : t.copies.journal = some j
  state : t.copies.watch.state = .erased

theorem resumed_done (p : Nat) (h : Sound m) (none_ : m.store.waits = []) (hj : m.copies.journal = some j) (hs : j.step = 5) :
    DoneRests m j (eraseRun p (settled (resumeErase m))) := by
  have entered : Sound (resumeErase m) ∧ Since 1 m (resumeErase m) ∧ (resumeErase m).store.waits = []
      ∧ (resumeErase m).copies.journal = some j ∧ (resumeErase m).copies.watch.state = .erased := by
    unfold resumeErase
    rw [hj]
    dsimp only
    rw [if_pos hs]
    split
    · exact ⟨h, (Since.refl m).mono (by omega), none_, hj, by assumption⟩
    · obtain ⟨watch, f⟩ := enterWatch_left { m.copies.watch with state := .erased } h.dormant
      exact ⟨sound_enterWatch _ h.dormant h.marked h.follows.behind, since_enterWatch h.dormant rfl, f.waits.trans none_,
        f.cJournal.trans hj, by rw [watch]⟩
  obtain ⟨sound, since, idle, journal, state⟩ := entered
  have f := frame_settled (resumeErase m)
  rw [eraseRun_none p idle]
  exact ⟨sound_settled sound, since.and f, (still_settled idle).2.2, f.cJournal.trans journal, by rw [f.cWatch, state]⟩

/-- R169: the watch is ERASING when an erase goes on. -/
def erasingAgain (m : State) : State :=
  if m.copies.watch.state = .erasing then m else enterWatch { m.copies.watch with state := .erasing } m

theorem erasing_again (h : Sound m) (none_ : m.store.waits = []) (hj : m.copies.journal = some j) :
    Erasing m 1 j (erasingAgain m) ∧ (erasingAgain m).store.waits = [] := by
  unfold erasingAgain
  split
  · exact ⟨⟨h, (Since.refl m).mono (by omega), ⟨j.step, hj⟩, by assumption⟩, none_⟩
  · obtain ⟨watch, f⟩ := enterWatch_left { m.copies.watch with state := .erasing } h.dormant
    exact ⟨⟨sound_enterWatch _ h.dormant h.marked h.follows.behind, since_enterWatch h.dormant rfl,
      ⟨j.step, f.cJournal.trans hj⟩, by rw [watch]⟩, f.waits.trans none_⟩

theorem resumeErase_again (hj : m.copies.journal = some j) (hs : j.step ≠ 5) : resumeErase m
    = if j.step = 4 then startScrub (erasingAgain m) else eraseNext 3 (haltWork (erasingAgain m)) := by
  unfold resumeErase
  rw [hj]
  dsimp only
  rw [if_neg hs]
  rfl

theorem resumed_scrub (p : Nat) (h : Sound m) (none_ : m.store.waits = []) (hj : m.copies.journal = some j) (hs : j.step = 4) :
    ScrubRests m 4 j (eraseRun (p + 1) (settled (resumeErase m))) := by
  obtain ⟨again, idle⟩ := erasing_again h none_ hj
  rw [resumeErase_again hj (by omega), if_pos hs]
  exact (scrubRests_startScrub p again idle).1

theorem resumed_wipe (p : Nat) (h : Sound m) (none_ : m.store.waits = []) (hj : m.copies.journal = some j) (h5 : j.step ≠ 5)
    (h4 : j.step ≠ 4) : EraseRests m 5 j (eraseRun (p + 2) (settled (resumeErase m)))
      ∧ Wiped (eraseRun (p + 2) (settled (resumeErase m))) := by
  obtain ⟨again, idle⟩ := erasing_again h none_ hj
  obtain ⟨halted, rekey, waits⟩ := erasing_haltWork again
  rw [resumeErase_again hj h5, if_neg h4]
  exact eraseRests_three p halted rekey (waits idle)

theorem resumeErase_none (hj : m.copies.journal = none) : resumeErase m = m := by
  unfold resumeErase
  rw [hj]

/-! ## The score -/

/-- R144: whether a score erases. -/
def Erases (m : State) : Prop := m.copies.policy.eraseByScore = true ∧ m.copies.policy.t3 ≤ m.copies.watch.score

/-- The watch stands at `w` already, or enters it. -/
def WatchSet (w : WatchState) (t u : State) : Prop :=
  u = t ∧ t.copies.watch.state = w ∨ u = enterWatch { t.copies.watch with state := w } t

theorem evaluate_erases (lives : alive t.copies.watch.state = true) (h : Erases t) :
    evaluate false t = startErase .score t := by
  unfold evaluate
  exact if_pos ⟨h.1, h.2, lives⟩

/-- R144: an evaluation of a part in use that starts no erase. -/
theorem evaluate_alive (lives : alive t.copies.watch.state = true) (h : ¬Erases t) :
    alive (watchAt t.copies.policy t.copies.watch.state t.copies.watch.score) = true
      ∧ WatchSet (watchAt t.copies.policy t.copies.watch.state t.copies.watch.score) t (evaluate false t) := by
  have eval : evaluate false t =
      if t.copies.policy.t2 ≤ t.copies.watch.score ∧ calm t.copies.watch.state = true then
        enterWatch { t.copies.watch with state := .alarmed } t
      else if t.copies.policy.t1 ≤ t.copies.watch.score ∧ t.copies.watch.state = .settled then
        enterWatch { t.copies.watch with state := .wary } t
      else if t.copies.watch.score < t.copies.policy.t1 ∧ t.copies.watch.state = .wary then
        enterWatch { t.copies.watch with state := .settled } t
      else t := if_neg fun x => h ⟨x.1, x.2.1⟩
  have at_ : watchAt t.copies.policy t.copies.watch.state t.copies.watch.score =
      if t.copies.watch.state = .alarmed ∨ t.copies.policy.t2 ≤ t.copies.watch.score then .alarmed
      else if t.copies.policy.t1 ≤ t.copies.watch.score then .wary else .settled := if_neg h
  rw [eval, at_]
  by_cases alarm : t.copies.policy.t2 ≤ t.copies.watch.score
  · rw [if_pos (.inr alarm)]
    refine ⟨rfl, ?_⟩
    cases hs : t.copies.watch.state with
    | settled => exact .inr (if_pos ⟨alarm, rfl⟩)
    | wary => exact .inr (if_pos ⟨alarm, rfl⟩)
    | alarmed => exact .inl ⟨by simp [calm], hs⟩
    | erasing => rw [hs] at lives; cases lives
    | erased => rw [hs] at lives; cases lives
  · cases hs : t.copies.watch.state with
    | settled =>
      by_cases wary : t.copies.policy.t1 ≤ t.copies.watch.score <;> simp [alarm, wary, alive, WatchSet, hs]
    | wary =>
      by_cases wary : t.copies.policy.t1 ≤ t.copies.watch.score
      · simp [alarm, wary, alive, WatchSet, hs]
      · simp [alarm, wary, Nat.lt_of_not_le wary, alive, WatchSet]
    | alarmed => simp [calm, alive, WatchSet, hs]
    | erasing => rw [hs] at lives; cases lives
    | erased => rw [hs] at lives; cases lives

/-- The records that a part in use has loaded stand, but for the watch and the incidents (R188). -/
structure Lives (m : State) (n : Nat) (t : State) : Prop where
  sound : Sound t
  since : Since n m t
  idle : t.store.waits = []
  copies : t.copies = { m.copies with watch := t.copies.watch, incidents := t.copies.incidents }
  state : t.copies.watch.state = watchAt m.copies.policy m.copies.watch.state m.copies.watch.score
  alive : alive t.copies.watch.state = true

theorem Frame.watchIncidents {L : List Field} (f : Frame L m t) (hf : ∀ f ∈ ([.cFactory, .cRanges, .cCreds, .cWraps,
    .cCharged, .cPolicy, .cDigest, .cToken, .cRekey, .cJournal, .cBoot] : List Field), f ∉ L := by decide +kernel) :
    t.copies = { m.copies with watch := t.copies.watch, incidents := t.copies.incidents } := by
  simp only [List.forall_mem_cons] at hf
  have e : t.copies = (overlay L m t).copies := by rw [f.eq]
  rw [e]
  simp only [overlay, if_neg, hf, not_false_eq_true]

theorem lives_settled (h : Lives m n t) : Lives m n (settled t) := by
  have f := frame_settled t
  exact ⟨sound_settled h.sound, h.since.and f, (still_settled h.idle).2.2, by rw [f.copies]; exact h.copies,
    by rw [f.copies]; exact h.state, by rw [f.copies]; exact h.alive⟩

theorem lives_evaluate (h : Sound m) (none_ : m.store.waits = []) (lives : alive m.copies.watch.state = true)
    (off : ¬Erases m) : Lives m 1 (evaluate false m) := by
  obtain ⟨still, set⟩ := evaluate_alive lives off
  rcases set with ⟨same, stands⟩ | entered
  · rw [same]
    exact ⟨h, (Since.refl m).mono (by omega), none_, rfl, stands, lives⟩
  · rw [entered]
    obtain ⟨w, hw⟩ : ∃ w, w = watchAt m.copies.policy m.copies.watch.state m.copies.watch.score := ⟨_, rfl⟩
    rw [← hw] at still ⊢
    obtain ⟨watch, f⟩ := enterWatch_left { m.copies.watch with state := w } h.dormant
    refine ⟨sound_enterWatch _ h.dormant h.marked h.follows.behind, since_enterWatch h.dormant rfl, f.waits.trans none_,
      f.watchIncidents, ?_, ?_⟩
    · rw [watch]
      exact hw
    · rw [watch]
      exact still

/-! ## The jobs together -/

/-- R188, steps 5 to 7: the jobs of a start-up, each with its writes. -/
def jobs (m : State) : State :=
  eraseRun 8 (settled (exhaust (eraseRun 8 (settled (evaluateLoaded (eraseRun 8 (settled (resumeErase m))))))))

/-- What the jobs can come to. -/
inductive Outcome (m t : State) : Prop
  | lives (journal : m.copies.journal = none) (alive : alive m.copies.watch.state = true) (h : Lives m 1 t)
  | erases (cause : EraseCause) (journal : m.copies.journal = none) (h : EraseRests m 9 (newJournal cause) t) (w : Wiped t)
  | dead (journal : m.copies.journal = none) (dead : Machine.alive m.copies.watch.state = false) (h : t = settled m)
  | done (j : Journal) (journal : m.copies.journal = some j) (step : j.step = 5) (h : DoneRests m j t)
  | scrubs (j : Journal) (journal : m.copies.journal = some j) (step : j.step = 4) (h : ScrubRests m 4 j t)
  | wipes (j : Journal) (journal : m.copies.journal = some j) (step : j.step ≠ 5 ∧ j.step ≠ 4) (h : EraseRests m 5 j t)
    (w : Wiped t)

theorem exhaust_dead (h : alive t.copies.watch.state = false) : exhaust t = t := by
  unfold exhaust
  dsimp only
  split
  · rw [startErase_dead h]
  · rfl

/-- The jobs that come after the end of the part's use find nothing to do. -/
theorem jobs_dead (h : alive (eraseRun 8 (settled (resumeErase m))).copies.watch.state = false)
    (idle : (eraseRun 8 (settled (resumeErase m))).store.waits = []) : jobs m = eraseRun 8 (settled (resumeErase m)) := by
  have still := eraseRun_still idle
  unfold jobs
  generalize eraseRun 8 (settled (resumeErase m)) = t at h still
  have none_ : evaluateLoaded t = t := if_neg (by rw [h]; nofun)
  rw [none_, eraseRun_same 8 still, exhaust_dead h, eraseRun_same 8 still]

/-- R76: whether the charged count has come to the wiping limit. -/
def Exhausted (m : State) : Prop := m.copies.policy.wipeLimit ≠ 0 ∧ m.copies.policy.wipeLimit ≤ m.copies.charged

theorem starting_exhaust (h : Sound t) (since : Since n m t) (lives : alive t.copies.watch.state = true)
    (none_ : t.store.waits = []) (ex : Exhausted t) :
    Starting m n (newJournal .exhaustion) (exhaust t) ∧ Awaits .eraseEntered (exhaust t) := by
  obtain ⟨⟨dormant, marked, behind, since, journal, state⟩, awaits⟩ := starting_startErase .exhaustion h since lives none_
  have e : exhaust t = { startErase .exhaustion t with store := { (startErase .exhaustion t).store with
    touched := t.store.touched } } := if_pos ex
  rw [e]
  generalize startErase .exhaustion t = u at dormant marked behind since journal state awaits
  have f : Frame [.requests] u { u with store := { u.store with touched := t.store.touched } } := ⟨rfl, rfl, le_rfl⟩
  exact ⟨⟨dormant_keeps.of dormant f, marked, ⟨behind.stored, behind.inOrder⟩, since.and f, journal, state⟩, awaits⟩

/-- R188, steps 5 to 7. -/
theorem outcome_jobs (h : Sound m) (none_ : m.store.waits = []) : Outcome m (jobs m) := by
  cases hj : m.copies.journal with
  | some j =>
    by_cases h5 : j.step = 5
    · have rests := resumed_done 8 h none_ hj h5
      rw [jobs_dead (by rw [rests.state]; rfl) rests.idle]
      exact .done j hj h5 rests
    · by_cases h4 : j.step = 4
      · have rests := resumed_scrub 7 h none_ hj h4
        rw [jobs_dead rests.left.2.2 rests.idle]
        exact .scrubs j hj h4 rests
      · obtain ⟨rests, wiped⟩ := resumed_wipe 6 h none_ hj h5 h4
        rw [jobs_dead rests.left.2.2 rests.idle]
        exact .wipes j hj ⟨h5, h4⟩ rests wiped
  | none =>
    have resumed : eraseRun 8 (settled (resumeErase m)) = settled m := by rw [resumeErase_none hj, eraseRun_none 8 none_]
    have f := frame_settled m
    cases lives : alive m.copies.watch.state with
    | false =>
      refine .dead hj lives ?_
      rw [jobs_dead (by rw [resumed, f.copies]; exact lives) (by rw [resumed]; exact (still_settled none_).2.2), resumed]
    | true =>
      have sound := sound_settled h
      have since := (Since.refl m).and f
      have idle := (still_settled none_).2.2
      have lives' : alive (settled m).copies.watch.state = true := by rw [f.copies]; exact lives
      unfold jobs
      rw [resumed]
      have eval : evaluateLoaded (settled m) = evaluate false (settled m) := if_pos lives'
      rw [eval]
      by_cases er : Erases (settled m)
      · rw [evaluate_erases lives' er]
        obtain ⟨starting, awaits⟩ := starting_startErase .score sound (since.mono (by omega : 0 ≤ 1)) lives' idle
        obtain ⟨rests, wiped⟩ := eraseRests_starting 2 starting awaits
        have still := eraseRun_still rests.idle
        change EraseRests m 9 _ (eraseRun 8 _) at rests
        rw [exhaust_dead rests.left.2.2, eraseRun_same 8 still]
        exact .erases .score hj rests wiped
      · have went := lives_settled (lives_evaluate sound idle lives' er)
        rw [eraseRun_none 8 (lives_evaluate sound idle lives' er).idle]
        have went : Lives m 1 (settled (evaluate false (settled m))) :=
          ⟨went.sound, since.trans went.since, went.idle, by rw [went.copies, f.copies], by rw [went.state, f.copies],
            went.alive⟩
        generalize settled (evaluate false (settled m)) = t at went
        by_cases ex : Exhausted t
        · obtain ⟨starting, awaits⟩ := starting_exhaust went.sound went.since went.alive went.idle ex
          obtain ⟨rests, wiped⟩ := eraseRests_starting 2 starting awaits
          exact .erases .exhaustion hj rests wiped
        · have e : exhaust t = t := if_neg ex
          rw [e, eraseRun_none 8 went.idle]
          exact .lives hj lives (lives_settled went)

end Jobs

end Sys2Proof.Machine
end


-- ==== Sys2Proof/Proofs/RecordLoads.lean ====
section
/-! PROOF. The records of a start-up as its steps 2 to 4 leave them, and what the alarm finds of a cold start (R1, R125,
R185, R187): O16. -/

-- As in the tests: each theorem that waits for the kernel in parallel would keep a thread.
set_option Elab.async false

namespace Sys2Proof.Machine

/-! ## The loading of the records -/

section Loads

variable {damage : List Damage} {m : State}

theorem follows_treat (d : Damage) (w : RecWrite) (h : Follows m) : Follows (treat damage d w m) := by
  unfold treat
  split
  · exact follows_put w h
  · exact h

/-- The store follows, but for the damaged range records of `l`, which are blank and not yet judged. -/
structure Judging (damage : List Damage) (l : List (Fin 16)) (m : State) : Prop where
  inOrder : InOrder m.store
  others : stored m.store = { m.copies with ranges := (stored m.store).ranges }
  ranges : ∀ q : Fin 16, (damagedRange damage q).isSome = true ∧ q ∈ l ∨ (stored m.store).ranges[q] = m.copies.ranges[q]

/-- R1: a damaged range record is judged. -/
def judgeRange (damage : List Damage) (s : State) (r : Fin 16) : State :=
  match damagedRange damage r with
  | some found => putRange r (treatedRange s.copies r found) s
  | none => s

theorem loadRanges_eq (damage : List Damage) (m : State) : loadRanges damage m
    = (List.finRange 16).foldl (judgeRange damage) { m with copies := blankRanges damage m.copies } := rfl

theorem judging_judgeRange {r : Fin 16} {l : List (Fin 16)} (h : Judging damage (r :: l) m) :
    Judging damage l (judgeRange damage m r) := by
  obtain ⟨inOrder, others, ranges⟩ := h
  unfold judgeRange
  split
  · rename_i found _
    obtain ⟨stored', inOrder'⟩ := stored_requestWrite (writeOwner (.range r (treatedRange m.copies r found)))
      (.range r (treatedRange m.copies r found)) inOrder
    change stored (putRange r (treatedRange m.copies r found) m).store = _ at stored'
    refine ⟨inOrder', ?_, fun q => ?_⟩
    · rw [stored', others]
      rfl
    · rw [stored', putRange_get]
      have at_ : (applyWrite (.range r (treatedRange m.copies r found)) (stored m.store)).ranges[q]
        = if q = r then treatedRange m.copies r found else (stored m.store).ranges[q] := set_get _ r q _
      rw [at_]
      by_cases e : q = r
      · rw [if_pos e, if_pos e]
        exact .inr rfl
      · rw [if_neg e, if_neg e]
        exact (ranges q).imp_left fun x => ⟨x.1, (List.mem_cons.mp x.2).resolve_left e⟩
  · rename_i sound
    refine ⟨inOrder, others, fun q => (ranges q).imp_left fun x => ⟨x.1, (List.mem_cons.mp x.2).resolve_left fun e => ?_⟩⟩
    rw [e, sound] at x
    cases x.1

/-- A pass over all places of which each step touches its own changes each place once. -/
theorem foldl_get {σ β : Type} {n : Nat} {get : σ → Fin n → β} {f : σ → Fin n → σ} {g : Fin n → β → β}
    (step : ∀ s a c, get (f s a) c = if c = a then g c (get s c) else get s c) (s : σ) (c : Fin n) :
    get ((List.finRange n).foldl f s) c = g c (get s c) := by
  have pass : ∀ (l : List (Fin n)), l.Nodup → ∀ s, get (l.foldl f s) c = if c ∈ l then g c (get s c) else get s c := by
    intro l
    induction l with
    | nil => exact fun _ s => (if_neg (by simp)).symm
    | cons a l ih =>
      intro once s
      obtain ⟨fresh, once⟩ := List.nodup_cons.mp once
      rw [List.foldl_cons, ih once, step]
      by_cases e : c = a
      · subst e
        simp [fresh]
      · simp [e]
  exact (pass _ (List.nodup_finRange n) s).trans (if_pos (List.mem_finRange c))

theorem blankRanges_get (damage : List Damage) (recs : Records) (q : Fin 16) : (blankRanges damage recs).ranges[q]
    = if (damagedRange damage q).isSome then RangeRec.undefined else recs.ranges[q] := by
  refine foldl_get (get := fun (recs : Records) (q : Fin 16) => recs.ranges[q])
    (g := fun q v => if (damagedRange damage q).isSome then RangeRec.undefined else v) (fun recs a c => ?_) recs q
  have at_ : (applyWrite (.range a RangeRec.undefined) recs).ranges[c]
    = if c = a then RangeRec.undefined else recs.ranges[c] := set_get _ a c _
  by_cases hd : (damagedRange damage a).isSome = true
  · rw [if_pos hd, at_]
    by_cases e : c = a
    · rw [if_pos e, if_pos e, e, if_pos hd]
    · rw [if_neg e, if_neg e]
  · rw [if_neg hd]
    by_cases e : c = a
    · rw [if_pos e, e, if_neg hd]
    · rw [if_neg e]

theorem follows_loadRanges (h : Follows m) : Follows (loadRanges damage m) := by
  have started : Judging damage (List.finRange 16) { m with copies := blankRanges damage m.copies } := by
    refine ⟨h.inOrder, ?_, fun q => ?_⟩
    · change stored m.store = { blankRanges damage m.copies with ranges := (stored m.store).ranges }
      rw [h.stored, blankRanges_eq]
    · change _ ∨ (stored m.store).ranges[q] = (blankRanges damage m.copies).ranges[q]
      rw [h.stored, blankRanges_get]
      by_cases hd : (damagedRange damage q).isSome = true
      · exact .inl ⟨hd, List.mem_finRange q⟩
      · rw [if_neg hd]
        exact .inr rfl
  rw [loadRanges_eq]
  generalize ({ m with copies := blankRanges damage m.copies } : State) = u at started ⊢
  have ended : ∀ (l : List (Fin 16)) (u : State), Judging damage l u → Judging damage [] (l.foldl (judgeRange damage) u) := by
    intro l
    induction l with
    | nil => exact fun u hu => hu
    | cons r l ih => exact fun u hu => ih _ (judging_judgeRange hu)
  obtain ⟨inOrder, others, ranges⟩ := ended _ u started
  refine ⟨?_, inOrder⟩
  rw [others]
  exact congrArg (fun x => { ((List.finRange 16).foldl (judgeRange damage) u).copies with ranges := x })
    (Vector.ext fun i hi => (ranges ⟨i, hi⟩).resolve_left (by simp))

theorem follows_loadRecords (h : Follows m) : Follows (loadRecords damage m) := by
  have s2 := follows_loadRanges (damage := damage) (follows_treat (damage := damage) .policy (.policy Policy.default) h)
  have s3 := keeps_foldl (f := fun s c => treat damage (.credential c) (.cred c CredRec.empty) s)
    (fun s c h => follows_treat _ _ h) (List.finRange 8) _ s2
  have s5 := keeps_foldl (f := fun s k => treat damage (.wrapEntry k) (.wrap k none) s)
    (fun s k h => follows_treat _ _ h) (List.finRange 64) _ (follows_treat (damage := damage) .chargedCount (.charged 0) s3)
  exact follows_treat _ _ (follows_treat _ _ (follows_treat _ _ (follows_treat _ _ (follows_treat _ _ (follows_treat _ _ s5)))))

/-! ## What follows from the records -/

/-- R3: a range takes the state that its record gives it. -/
def markOne (s : State) (r : Fin 16) : State := setRun r (if s.copies.ranges[r].erased then .erased else .locked) s

/-- R3: every range takes the state that its record gives it. -/
def markAll (m : State) : State := (List.finRange 16).foldl markOne m

theorem markOne_get (s : State) (r q : Fin 16) : (markOne s r).ranges[q]
    = if q = r then ⟨if s.copies.ranges[r].erased then .erased else .locked, s.ranges[r].sleepMark⟩ else s.ranges[q] :=
  set_get s.ranges r q _

/-- The state of range `q` is what its record gives it. -/
def RunMarked (q : Fin 16) (s : State) : Prop :=
  s.ranges[q].run = if s.copies.ranges[q].erased then .erased else .locked

theorem runMarked_markOne {q r : Fin 16} {s : State} (h : RunMarked q s ∨ q = r) : RunMarked q (markOne s r) := by
  unfold RunMarked
  rw [markOne_get]
  by_cases e : q = r
  · rw [if_pos e]
    subst e
    rfl
  · rw [if_neg e]
    exact h.resolve_right e

theorem frame_markAll (m : State) : Frame [.ranges] m (markAll m) := .foldl (fun s r => frame_setRun r _ s) _ m

theorem marked_markAll (cold : ∀ r : Fin 16, m.ranges[r].sleepMark = false) : Marked (markAll m) := by
  intro q
  have run : RunMarked q (markAll m) := foldl_makes (P := RunMarked q) (f := markOne) (fun _ _ x => runMarked_markOne (.inl x))
    (fun _ => runMarked_markOne (.inr rfl)) (List.mem_finRange q) m
  have mark : (markAll m).ranges[q].sleepMark = false :=
    keeps_foldl (Inv := fun s => s.ranges[q].sleepMark = false) (f := markOne) (fun s r x => by
      rw [markOne_get]
      split
      · rename_i e
        exact e ▸ x
      · exact x) _ m (cold q)
  generalize markAll m = u at run mark
  unfold RunMarked at run
  unfold runOf
  rw [← run, ← mark]

theorem sound_markAll (h : Dormant m) (cold : ∀ r : Fin 16, m.ranges[r].sleepMark = false) (follows : Follows m) :
    Sound (markAll m) := by
  have marked := marked_markAll cold
  exact ⟨h.of (frame_markAll m) marked.unheld, marked, follows_keeps.of follows (frame_markAll m)⟩

theorem sound_reconcileRekey (h : Sound m) : Sound (reconcileRekey m) := by
  have put : ∀ k, Sound (putRekey k m) := fun k => sound_put h .cRekey rfl (by decide)
  have judged : Sound (judgedRekey m) := by
    unfold judgedRekey
    split
    · split
      · split
        · exact h
        · exact put _
      · exact put _
    · exact h
  rw [reconcileRekey_eq]
  split
  · exact judged
  · refine keeps_foldl (fun s r hs => ?_) _ _ judged
    split
    · exact sound_putRange hs rfl
    · exact hs

theorem sound_disableLoaded (h : Sound m) : Sound (disableLoaded m) := by
  refine keeps_foldl (fun s c hs => ?_) _ m h
  unfold disableAtLimit
  dsimp only
  split
  · split
    · exact sound_put hs .cCreds rfl (by decide)
    · exact hs
  · exact hs

/-- R187, step 4, but for the incidents. -/
def derived_ (m : State) : State :=
  disableLoaded (removeWraps (unloadable (reconcileRekey (markAll m)).copies) (reconcileRekey (markAll m)))

theorem deriveStates_eq (damage : List Damage) (m : State) : deriveStates damage m
    = (damageOrder damage).foldl (fun s d => addIncident (damageKind d) s) (derived_ m) := rfl

theorem sound_deriveStates (h : Dormant m) (cold : ∀ r : Fin 16, m.ranges[r].sleepMark = false) (follows : Follows m) :
    Sound (deriveStates damage m) := by
  rw [deriveStates_eq]
  exact keeps_foldl (fun s d hs => sound_addIncident _ hs) _ _
    (sound_disableLoaded (sound_removeWraps _ (sound_reconcileRekey (sound_markAll h cold follows))))

/-- The records of a start-up, loaded and checked (R187, steps 1 to 4). -/
def loaded (damage : List Damage) (s : State) : State :=
  settled (deriveStates damage (settled (loadRecords damage (settled (countBoot damage s)))))

/-- The records as the start-up's step 3 leaves them. -/
def recordsLoaded (damage : List Damage) (s : State) : State := settled (loadRecords damage (settled (countBoot damage s)))

theorem follows_powerUp (nv : Records) (s : State) : Follows (powerUp nv s) := ⟨rfl, fun _ => rfl⟩

theorem frame_recordsLoaded (damage : List Damage) (s : State) :
    Frame (.nv :: .waits :: .cBoot :: loadFields) s (recordsLoaded damage s) :=
  ((frame_countBoot damage s).within.trans (frame_settled _).within).trans
    ((frame_loadRecords damage _).within.trans (frame_settled _).within)

theorem sound_loaded (damage : List Damage) (nv : Records) (s : State) : Sound (loaded damage (powerUp nv s))
    ∧ (loaded damage (powerUp nv s)).store.waits = [] := by
  have follows : Follows (recordsLoaded damage (powerUp nv s)) :=
    follows_settled (follows_loadRecords (follows_settled (follows_put _ (follows_powerUp nv s))))
  have f := frame_recordsLoaded damage (powerUp nv s)
  have waits : (recordsLoaded damage (powerUp nv s)).store.waits = [] :=
    (still_settled ((frame_loadRecords damage _).waits.trans (still_settled (frame_countBoot damage (powerUp nv s)).waits).2.2)).2.2
  have dormant := dormant_keeps.of (dormant_powerUp nv s) f
  have cold : ∀ r : Fin 16, (recordsLoaded damage (powerUp nv s)).ranges[r].sleepMark = false := fun r => by
    rw [f.ranges]
    simp [powerUp]
  change Sound (settled (deriveStates damage (recordsLoaded damage (powerUp nv s)))) ∧
    (settled (deriveStates damage (recordsLoaded damage (powerUp nv s)))).store.waits = []
  generalize recordsLoaded damage (powerUp nv s) = u at follows waits dormant cold ⊢
  exact ⟨sound_settled (sound_deriveStates dormant cold follows),
    (still_settled ((frame_deriveStates damage u).waits.trans waits)).2.2⟩

end Loads

/-! ## The last steps -/

/-- R188, steps 7 and 8: the timers start, and the watch. -/
def started (levels : BitVec 4) (m : State) : State := settled (startWatch levels (settled (restartHoldoff m)))

theorem frame_started (levels : BitVec 4) (m : State) :
    Frame [.holdoff, .sensors, .decay, .nv, .requests, .waits] m (started levels m) :=
  ((frame_restartHoldoff m).within.trans (frame_settled _).within).trans
    ((frame_startWatch levels _).within.trans (frame_settled _).within)

theorem startUp_state {damage : List Damage} (levels : BitVec 4) (s : State) (h : factoryLost damage = false) :
    (startUp damage levels s).state = takeLinks (settled (autoOpenAll (started levels (jobs (loaded damage s))))) := by
  unfold startUp
  rw [h]
  simp only [Bool.false_eq_true, if_false, bootStep_state, runErase_state]
  rfl

theorem startUp_lost {damage : List Damage} (levels : BitVec 4) (s : State) (h : factoryLost damage = true) :
    (startUp damage levels s).state = { settled (countBoot damage s) with phase := .held } := by
  unfold startUp
  rw [h]
  rfl

theorem Outcome.left {m t : State} (h : Outcome m t) (sound : Sound m) (idle : m.store.waits = []) :
    Sound t ∧ Since 9 m t ∧ t.store.waits = [] := by
  cases h with
  | lives _ _ h => exact ⟨h.sound, h.since.mono (by omega), h.idle⟩
  | erases _ _ h _ => exact ⟨h.left.1, h.left.2.1, h.idle⟩
  | dead _ _ h =>
    subst h
    exact ⟨sound_settled sound, ((Since.refl m).and (frame_settled m)).mono (by omega), (still_settled idle).2.2⟩
  | done _ _ _ h => exact ⟨h.sound, h.since.mono (by omega), h.idle⟩
  | scrubs _ _ _ h => exact ⟨h.left.1, h.left.2.1.mono (by omega), h.idle⟩
  | wipes _ _ _ h _ => exact ⟨h.left.1, h.left.2.1.mono (by omega), h.idle⟩

/-! ## The alarm -/

theorem started_decay {levels : BitVec 4} {m : State} (h : calm m.copies.watch.state = false) :
    (started levels m).watch.decay = none := by
  have f := (frame_settled (restartHoldoff m)).copies.trans (frame_restartHoldoff m).copies
  unfold started
  rw [(frame_settled _).decay]
  unfold startWatch
  generalize settled (restartHoldoff m) = u at f
  rw [f, h]
  rfl

/-- R148: what an alarm finds of a cold start. -/
theorem allClosed_startUp (damage : List Damage) (levels : BitVec 4) (nv : Records) (s : State)
    (h : (startUp damage levels (powerUp nv s)).state.copies.watch.state = .alarmed) :
    AllClosed (startUp damage levels (powerUp nv s)).state := by
  cases lost : factoryLost damage with
  | true =>
    rw [startUp_lost levels _ lost]
    have f := (frame_countBoot damage (powerUp nv s)).within.trans (frame_settled _).within (L := [.cBoot, .requests, .nv, .waits])
    have dormant := dormant_keeps.of (dormant_powerUp nv s) f
    exact ⟨dormant.unheld, dormant.pending, f.decay⟩
  | false =>
    rw [startUp_state levels _ lost] at h ⊢
    obtain ⟨sound, idle⟩ := sound_loaded damage nv s
    have rests := (outcome_jobs sound idle).left sound idle
    generalize jobs (loaded damage (powerUp nv s)) = u at h rests ⊢
    have dormant := dormant_keeps.of rests.1.dormant (frame_started levels u)
    have watch := (frame_started levels u).copies
    have off : calm u.copies.watch.state = false := by
      have f := (frame_settled _).cWatch.trans (frame_autoOpenAll (started levels u)).cWatch
      change (settled (autoOpenAll (started levels u))).copies.watch.state = .alarmed at h
      rw [f, watch] at h
      rw [h]
      rfl
    have decay := started_decay (levels := levels) off
    have none_ : autoOpenAll (started levels u) = started levels u := if_neg (by rw [watch, off]; nofun)
    rw [none_]
    generalize started levels u = v at dormant decay
    have f := frame_settled v
    have g := frame_takeLinks (settled v)
    exact ⟨fun r => (unheld_keeps r).of ((unheld_keeps r).of (dormant.unheld r) f) g,
      g.pendingSet.trans (f.pendingSet.trans dormant.pending), g.decay.trans (f.decay.trans decay)⟩

theorem allClosed_coldStart (damage : List Damage) (levels : BitVec 4) (cut : Option Nat) (s : State)
    (h : (coldStart damage levels cut s).copies.watch.state = .alarmed) : AllClosed (coldStart damage levels cut s) := by
  unfold coldStart at h ⊢
  dsimp only at h ⊢
  split
  · exact allClosed_startUp damage levels _ s h
  · have dormant := fun nv u => dormant_powerUp nv u
    exact ⟨(dormant _ _).unheld, rfl, rfl⟩

theorem allClosed_keeps : Keeps AllClosed (allFields.filter fun f => decide (f ∉ ([.ranges, .pendingSet, .decay] : List Field))) :=
  fun _ _ f h => ⟨fun r => (unheld_keeps r).of (h.unheld r) f, f.pendingSet.trans h.pending, f.decay.trans h.decay⟩

/-- What the alarm leaves of the ranges and the transfer table, where the ranges of `s` have been followed. -/
theorem Followed.closed {s t : State} (f : Followed s t) (c : AllClosed t) :
    (∀ (g : Fin 32) x, t.adm.table[g] = .admitted x → ∀ p ∈ x.segs, heldBy s.ranges[p.range].run = none)
      ∧ ∀ g ∈ t.adm.hold, ∀ k e, t.adm.table[g] = .held k e → ∀ r : Fin 16, isOpen s.ranges[r].run = true →
        touches s r e = false := by
  have off : ∀ r : Fin 16, heldBy t.ranges[r].run = none := c.unheld
  refine ⟨fun g x hx p hp => ?_, fun g hg k e he r open_ => ?_⟩
  · by_contra held
    have drains := (f.held p.range held).resolve_left fun x => x (off p.range)
    have out := (drained_iff p.range t).mp drains g x hx
    unfold admittedIn at out
    exact absurd (List.any_eq_false.mp out p hp) (by simp)
  · refine (f.opened r open_).resolve_left (fun x => ?_) g hg k e he
    have none := off r
    generalize t.ranges[r].run = run at x none
    cases run with
    | opened _ => cases none
    | closing _ _ _ => cases x
    | locked => cases x
    | erased => cases x

/-- Settles O16: a command that may raise the alarm closes every range as it does, and admits nothing after; a store
completion runs the Rekey Engine's work first, which raises no alarm; a cold start begins with nothing open and opens nothing
with the alarm raised. -/
theorem alarmClosesEveryRange : Obligations.AlarmClosesEveryRange := by
  intro c s t waits fails apart h before after
  have off : NotAlarmed (clearTouched s) := before
  have shut : ∀ u, AllClosed u → ∀ r : Fin 16, (clearTouched u).ranges[r].run = .locked ∨ (clearTouched u).ranges[r].run = .erased :=
    fun u hu r => (heldBy_eq_none _).mp (hu.unheld r)
  rcases exec_cases h with ⟨d, l, k, rfl, rfl⟩ | ⟨rfl, u, taken, rfl⟩ | ⟨other, rfl⟩
  · have closed := allClosed_coldStart d l k (clearTouched s) after
    have quiet := (fits_coldStart d l k (clearTouched s)).2 rfl
    generalize coldStart d l k (clearTouched s) = u at closed quiet after
    exact ⟨shut u closed, fun g x hx => absurd hx (quiet.2 g x), fun g hg k e he => absurd he (quiet.1 g hg k e),
      closed.pending, closed.decay⟩
  · have u_off := notAlarmed_keeps.of off (frame_takeUnit taken)
    exact absurd after (drainInbound_keeps notAlarmed_keeps.mono notAlarmed_takeFrame u u_off)
  · have waits : NoEraseWork (clearTouched s) := waits.resolve_right fun ⟨d, l, k, e⟩ => other d l k e
    have apart : RangesApart (clearTouched s).copies := apart
    obtain ⟨followed, closed⟩ := alerted_effect (s := clearTouched s) apart c waits off fails after
    obtain ⟨admitted, held⟩ := followed.closed closed
    have same : ∀ r e, touches (clearTouched s) r e = touches s r e := touches_congr apart rfl rfl
    simp only [same] at held
    generalize effect c (clearTouched s) = u at closed admitted held after
    exact ⟨shut u closed, admitted, held, closed.pending, closed.decay⟩

end Sys2Proof.Machine
end


-- ==== Sys2Proof/Proofs/RecordsTreated.lean ====
section
/-! PROOF. How a start-up treats each record that it loads (R1, R15, R59, R76, R125, R154, R185, R187). -/

-- As in the tests: each theorem that waits for the kernel in parallel would keep a thread.
set_option Elab.async false

namespace Sys2Proof.Machine

theorem Frame.cCharged {L : List Field} {s t : State} (h : Frame L s t) (hf : .cCharged ∉ L := by decide +kernel) :
    t.copies.charged = s.copies.charged := by
  rw [← h.eq]
  simp only [overlay, if_neg hf]

theorem Frame.cToken {L : List Field} {s t : State} (h : Frame L s t) (hf : .cToken ∉ L := by decide +kernel) :
    t.copies.token = s.copies.token := by
  rw [← h.eq]
  simp only [overlay, if_neg hf]

/-! ## Step 3: the records are loaded -/

section Load

variable {damage : List Damage}

theorem treat_copies (d : Damage) (w : RecWrite) (s : State) :
    (treat damage d w s).copies = if damage.contains d then applyWrite w s.copies else s.copies := by
  unfold treat
  split <;> rfl

/-- The damaged credential records are treated. -/
def treatCreds (damage : List Damage) (s : State) : State :=
  (List.finRange 8).foldl (fun s c => treat damage (.credential c) (.cred c CredRec.empty) s) s

/-- The damaged wrap entries are treated. -/
def treatWraps (damage : List Damage) (s : State) : State :=
  (List.finRange 64).foldl (fun s k => treat damage (.wrapEntry k) (.wrap k none) s) s

theorem frame_treatCreds (s : State) : Frame [.cCreds, .requests] s (treatCreds damage s) :=
  .foldl (fun s c => frame_treat damage _ (.cred c CredRec.empty) s .cCreds) _ s

theorem frame_treatWraps (s : State) : Frame [.cWraps, .requests] s (treatWraps damage s) :=
  .foldl (fun s k => frame_treat damage _ (.wrap k none) s .cWraps) _ s

theorem treatCreds_get (s : State) (c : Fin 8) : (treatCreds damage s).copies.creds[c]
    = if damage.contains (.credential c) then CredRec.empty else s.copies.creds[c] := by
  refine foldl_get (get := fun (s : State) (c : Fin 8) => s.copies.creds[c])
    (g := fun c v => if damage.contains (.credential c) then CredRec.empty else v) (fun s a c => ?_) s c
  have at_ : (applyWrite (.cred a CredRec.empty) s.copies).creds[c]
    = if c = a then CredRec.empty else s.copies.creds[c] := set_get _ a c _
  rw [treat_copies]
  by_cases e : c = a
  · subst e
    rw [if_pos rfl] at at_ ⊢
    split
    · exact at_
    · rfl
  · rw [if_neg e] at at_ ⊢
    split
    · exact at_
    · rfl

theorem treatWraps_get (s : State) (k : Fin 64) : (treatWraps damage s).copies.wraps[k]
    = if damage.contains (.wrapEntry k) then none else s.copies.wraps[k] := by
  refine foldl_get (get := fun (s : State) (k : Fin 64) => s.copies.wraps[k])
    (g := fun k v => if damage.contains (.wrapEntry k) then none else v) (fun s a k => ?_) s k
  have at_ : (applyWrite (.wrap a none) s.copies).wraps[k] = if k = a then none else s.copies.wraps[k] := set_get _ a k _
  rw [treat_copies]
  by_cases e : k = a
  · subst e
    rw [if_pos rfl] at at_ ⊢
    split
    · exact at_
    · rfl
  · rw [if_neg e] at at_ ⊢
    split
    · exact at_
    · rfl

/-- R1: an undamaged range record is as it was. -/
theorem loadRanges_undamaged {r : Fin 16} (s : State) (h : damagedRange damage r = none) :
    (loadRanges damage s).copies.ranges[r] = s.copies.ranges[r] := by
  rw [loadRanges_eq]
  refine keeps_foldl (f := judgeRange damage) (Inv := fun u => u.copies.ranges[r] = s.copies.ranges[r]) (fun u a hu => ?_) _ _ ?_
  · unfold judgeRange
    split
    · rename_i found hf
      rw [putRange_get, if_neg fun e => by rw [← e, h] at hf; cases hf]
      exact hu
    · exact hu
  · change (blankRanges damage s.copies).ranges[r] = _
    rw [blankRanges_get, h]
    rfl

/-- R1: a sole damaged range record is judged by the others as they are. -/
theorem loadRanges_one {r : Fin 16} {found : DamagedRange} (s : State)
    (h : ∀ q, damagedRange damage q = if q = r then some found else none) :
    (loadRanges damage s).copies.ranges[r] = treatedRange (blankRanges damage s.copies) r found := by
  have fold : loadRanges damage s = judgeRange damage { s with copies := blankRanges damage s.copies } r := by
    rw [loadRanges_eq]
    refine foldl_alone (List.mem_finRange r) (List.nodup_finRange 16) (fun q _ n => ?_) fun q _ n => ?_
    all_goals
      unfold judgeRange
      rw [h q, if_neg n]
  rw [fold]
  unfold judgeRange
  rw [h r, if_pos rfl]
  exact (putRange_get r r _ _).trans (if_pos rfl)

theorem treatedRange_congr {recs recs' : Records} (ranges : recs'.ranges = recs.ranges) (factory : recs'.factory = recs.factory)
    (r : Fin 16) (found : DamagedRange) : treatedRange recs' r found = treatedRange recs r found := by
  unfold treatedRange damagedExtent definedExtent
  rw [ranges, factory]

/-- R187, step 3: the records once loaded, and what each is. -/
structure Loaded (damage : List Damage) (nv recs : Records) : Prop where
  factory : recs.factory = nv.factory
  policy : recs.policy = if damage.contains .policy then Policy.default else nv.policy
  charged : recs.charged = if damage.contains .chargedCount then 0 else nv.charged
  digest : recs.digest = if damage.contains .bindingDigest then none else nv.digest
  token : recs.token = if damage.contains .remoteToken then none else nv.token
  creds : ∀ c : Fin 8, recs.creds[c] = if damage.contains (.credential c) then CredRec.empty else nv.creds[c]
  wraps : ∀ k : Fin 64, recs.wraps[k] = if damage.contains (.wrapEntry k) then none else nv.wraps[k]
  watch : recs.watch = if damage.contains .watchRecord then ⟨.alarmed, recs.policy.t2⟩ else nv.watch
  rekey : recs.rekey = if damage.contains .rekeyRecord then none else nv.rekey
  journal : recs.journal = if damage.contains .eraseJournal then some ⟨.unknown, 0, 0, [], none⟩ else nv.journal
  incidents : damage.contains .incidentList = true → recs.incidents = []
  undamaged : ∀ r : Fin 16, damagedRange damage r = none → recs.ranges[r] = nv.ranges[r]
  one : ∀ (r : Fin 16) found, (∀ q, damagedRange damage q = if q = r then some found else none) →
    recs.ranges[r] = treatedRange (blankRanges damage nv) r found

/-- The steps of the loading, in their order. -/
theorem loadRecords_eq (damage : List Damage) (s : State) : ∃ s1 s2 s3 s4 s5 s6 s7 s8 s9 s10,
    s1 = treat damage .policy (.policy Policy.default) s ∧ s2 = loadRanges damage s1 ∧ s3 = treatCreds damage s2
    ∧ s4 = treat damage .chargedCount (.charged 0) s3 ∧ s5 = treatWraps damage s4
    ∧ s6 = treat damage .bindingDigest (.digest none) s5 ∧ s7 = treat damage .remoteToken (.token none) s6
    ∧ s8 = treat damage .watchRecord (.watch ⟨.alarmed, s7.copies.policy.t2⟩) s7
    ∧ s9 = treat damage .rekeyRecord (.rekey none) s8
    ∧ s10 = treat damage .eraseJournal (.journal (some ⟨.unknown, 0, 0, [], none⟩)) s9
    ∧ loadRecords damage s = treat damage .incidentList (.incidents []) s10 :=
  ⟨_, _, _, _, _, _, _, _, _, _, rfl, rfl, rfl, rfl, rfl, rfl, rfl, rfl, rfl, rfl, rfl⟩

theorem loaded_loadRecords (damage : List Damage) (s : State) : Loaded damage s.copies (loadRecords damage s).copies := by
  obtain ⟨s1, s2, s3, s4, s5, s6, s7, s8, s9, s10, e1, e2, e3, e4, e5, e6, e7, e8, e9, e10, e11⟩ := loadRecords_eq damage s
  have f1 : Frame [.cPolicy, .requests] s s1 := e1 ▸ frame_treat damage _ _ s .cPolicy
  have f2 : Frame [.cRanges, .requests] s1 s2 := e2 ▸ frame_loadRanges damage s1
  have f3 : Frame [.cCreds, .requests] s2 s3 := e3 ▸ frame_treatCreds s2
  have f4 : Frame [.cCharged, .requests] s3 s4 := e4 ▸ frame_treat damage _ _ s3 .cCharged
  have f5 : Frame [.cWraps, .requests] s4 s5 := e5 ▸ frame_treatWraps s4
  have f6 : Frame [.cDigest, .requests] s5 s6 := e6 ▸ frame_treat damage _ _ s5 .cDigest
  have f7 : Frame [.cToken, .requests] s6 s7 := e7 ▸ frame_treat damage _ _ s6 .cToken
  have f8 : Frame [.cWatch, .requests] s7 s8 := e8 ▸ frame_treat damage _ _ s7 .cWatch
  have f9 : Frame [.cRekey, .requests] s8 s9 := e9 ▸ frame_treat damage _ _ s8 .cRekey
  have f10 : Frame [.cJournal, .requests] s9 s10 := e10 ▸ frame_treat damage _ _ s9 .cJournal
  have f11 : Frame [.cIncidents, .requests] s10 (loadRecords damage s) := e11 ▸ frame_treat damage _ _ s10 .cIncidents
  refine ⟨?_, ?_, ?_, ?_, ?_, fun c => ?_, fun k => ?_, ?_, ?_, ?_, fun lost => ?_, fun r h => ?_, fun r found h => ?_⟩
  · rw [f11.capacity, f10.capacity, f9.capacity, f8.capacity, f7.capacity, f6.capacity, f5.capacity, f4.capacity, f3.capacity, f2.capacity, f1.capacity]
  · rw [f11.cPolicy, f10.cPolicy, f9.cPolicy, f8.cPolicy, f7.cPolicy, f6.cPolicy, f5.cPolicy, f4.cPolicy, f3.cPolicy, f2.cPolicy, e1, treat_copies]
    split <;> rfl
  · rw [f11.cCharged, f10.cCharged, f9.cCharged, f8.cCharged, f7.cCharged, f6.cCharged, f5.cCharged, e4, treat_copies]
    split
    · rfl
    · rw [f3.cCharged, f2.cCharged, f1.cCharged]
  · rw [f11.cDigest, f10.cDigest, f9.cDigest, f8.cDigest, f7.cDigest, e6, treat_copies]
    split
    · rfl
    · rw [f5.cDigest, f4.cDigest, f3.cDigest, f2.cDigest, f1.cDigest]
  · rw [f11.cToken, f10.cToken, f9.cToken, f8.cToken, e7, treat_copies]
    split
    · rfl
    · rw [f6.cToken, f5.cToken, f4.cToken, f3.cToken, f2.cToken, f1.cToken]
  · rw [f11.cCreds, f10.cCreds, f9.cCreds, f8.cCreds, f7.cCreds, f6.cCreds, f5.cCreds, f4.cCreds, e3, treatCreds_get, f2.cCreds, f1.cCreds]
  · rw [f11.cWraps, f10.cWraps, f9.cWraps, f8.cWraps, f7.cWraps, f6.cWraps, e5, treatWraps_get, f4.cWraps, f3.cWraps, f2.cWraps, f1.cWraps]
  · have policy : (loadRecords damage s).copies.policy = s7.copies.policy := by rw [f11.cPolicy, f10.cPolicy, f9.cPolicy, f8.cPolicy]
    rw [policy, f11.cWatch, f10.cWatch, f9.cWatch, e8, treat_copies]
    split
    · rfl
    · rw [f7.cWatch, f6.cWatch, f5.cWatch, f4.cWatch, f3.cWatch, f2.cWatch, f1.cWatch]
  · rw [f11.cRekey, f10.cRekey, e9, treat_copies]
    split
    · rfl
    · rw [f8.cRekey, f7.cRekey, f6.cRekey, f5.cRekey, f4.cRekey, f3.cRekey, f2.cRekey, f1.cRekey]
  · rw [f11.cJournal, e10, treat_copies]
    split
    · rfl
    · rw [f9.cJournal, f8.cJournal, f7.cJournal, f6.cJournal, f5.cJournal, f4.cJournal, f3.cJournal, f2.cJournal, f1.cJournal]
  · rw [e11, treat_copies, if_pos lost]
    rfl
  · rw [f11.cRanges, f10.cRanges, f9.cRanges, f8.cRanges, f7.cRanges, f6.cRanges, f5.cRanges, f4.cRanges, f3.cRanges, e2, loadRanges_undamaged s1 h, f1.cRanges]
  · rw [f11.cRanges, f10.cRanges, f9.cRanges, f8.cRanges, f7.cRanges, f6.cRanges, f5.cRanges, f4.cRanges, f3.cRanges, e2, loadRanges_one s1 h]
    have ranges : (blankRanges damage s1.copies).ranges = (blankRanges damage s.copies).ranges :=
      Vector.ext fun i hi => by
        have x := blankRanges_get damage s1.copies ⟨i, hi⟩
        have y := blankRanges_get damage s.copies ⟨i, hi⟩
        rw [f1.cRanges] at x
        exact x.trans y.symm
    refine treatedRange_congr ranges ?_ r found
    rw [blankRanges_eq, blankRanges_eq damage s.copies]
    exact f1.capacity

end Load

end Sys2Proof.Machine
end


-- ==== Sys2Proof/Proofs/StatesDerived.lean ====
section
/-! PROOF. What a start-up's step 4 makes of the records that it has loaded (R15, R59, R76, R125, R154, R187). -/

-- As in the tests: each theorem that waits for the kernel in parallel would keep a thread.
set_option Elab.async false

namespace Sys2Proof.Machine

section Derive

variable {s : State}

/-! ## The rekey record -/

/-- R125: whether the rekey record has a rekey to go on with. -/
def Rekeyable (recs : Records) (k : RekeyRec) : Prop := rangeDefined recs k.range = true
  ∧ recs.ranges[k.range].erased = false ∧ recs.ranges[k.range].next.isSome = true

theorem judgedRekey_left (s : State) : (judgedRekey s).copies.ranges = s.copies.ranges
    ∧ (∀ k, s.copies.rekey = some k → Rekeyable s.copies k → (judgedRekey s).copies.rekey = some { k with state := .paused })
    ∧ ∀ k, (judgedRekey s).copies.rekey = some k →
      ∃ k', s.copies.rekey = some k' ∧ Rekeyable s.copies k' ∧ k = { k' with state := .paused } := by
  refine ⟨(frame_judgedRekey s).cRanges, fun k hk ok => ?_, fun k hk => ?_⟩
  · unfold judgedRekey
    simp only [hk]
    have ok : rangeDefined s.copies k.range = true ∧ s.copies.ranges[k.range].erased = false
        ∧ s.copies.ranges[k.range].next.isSome = true := ok
    rw [if_pos ok]
    split
    · rename_i paused
      rw [hk, ← paused]
    · rfl
  · unfold judgedRekey at hk
    split at hk
    · rename_i k' hk'
      split at hk
      · rename_i ok
        refine ⟨k', hk', ok, ?_⟩
        split at hk
        · rename_i paused
          rw [hk'] at hk
          cases hk
          rw [← paused]
        · exact (Option.some.inj hk).symm
      · cases hk
    · rename_i none_
      rw [none_] at hk
      cases hk

/-- R125: a next sealed key goes that belongs to no rekey. -/
def clearNext (s : State) (r : Fin 16) : State :=
  if s.copies.ranges[r].next.isSome then putRange r { s.copies.ranges[r] with next := none } s else s

theorem withoutNext_eq (s : State) : withoutNext s = (List.finRange 16).foldl clearNext s := rfl

theorem withoutNext_get (s : State) (r : Fin 16) :
    (withoutNext s).copies.ranges[r] = { s.copies.ranges[r] with next := none } := by
  rw [withoutNext_eq]
  refine foldl_get (get := fun (s : State) (r : Fin 16) => s.copies.ranges[r]) (f := clearNext)
    (g := fun _ v => { v with next := none }) (fun s a c => ?_) s r
  unfold clearNext
  by_cases e : c = a
  · subst e
    rw [if_pos rfl]
    split
    · exact (putRange_get c c _ s).trans (if_pos rfl)
    · rename_i none_
      have none_ : s.copies.ranges[c].next = none := by simpa using none_
      exact (congrArg (fun x => { s.copies.ranges[c] with next := x }) none_.symm).symm
  · rw [if_neg e]
    split
    · exact (putRange_get a c _ s).trans (if_neg e)
    · rfl

/-- R125: the rekey record, and the next sealed keys. -/
structure Reconciled (recs t : Records) : Prop where
  goes : ∀ k, t.rekey = some k → t.ranges = recs.ranges ∧ ∃ k', recs.rekey = some k' ∧ Rekeyable recs k'
    ∧ k = { k' with state := .paused }
  stays : ∀ k, recs.rekey = some k → Rekeyable recs k → t.rekey = some { k with state := .paused }
  ends : t.rekey = none → ∀ r : Fin 16, t.ranges[r] = { recs.ranges[r] with next := none }

theorem reconciled_reconcileRekey (s : State) : Reconciled s.copies (reconcileRekey s).copies := by
  obtain ⟨ranges, kept, found⟩ := judgedRekey_left s
  rw [reconcileRekey_eq]
  have cleared := withoutNext_get (judgedRekey s)
  have f : Frame [.cRanges, .requests] (judgedRekey s) (withoutNext (judgedRekey s)) := by
    rw [withoutNext_eq]
    exact .foldl (fun s r => .ite (frame_put (.range r _) s .cRanges) (.refl _ s)) _ _
  generalize judgedRekey s = u at ranges kept found cleared f ⊢
  cases hu : u.copies.rekey with
  | none =>
    rw [Option.isSome_none, if_neg nofun]
    refine ⟨fun k hk => ?_, fun k hk ok => ?_, fun _ r => by rw [cleared, ranges]⟩
    · rw [f.cRekey, hu] at hk
      cases hk
    · rw [kept k hk ok] at hu
      cases hu
  | some x =>
    rw [Option.isSome_some, if_pos rfl]
    exact ⟨fun k hk => ⟨ranges, found k hk⟩, kept, fun none_ => by rw [hu] at none_; cases none_⟩

/-! ## The credentials and the wrap table -/

/-- R76: a credential as it is loaded, under a policy. -/
def limited (p : Policy) (c : Fin 8) (v : CredRec) : CredRec :=
  if v.state = .active ∧ roleOf c = .user ∧ p.disableLimit ≠ 0 ∧ p.disableLimit ≤ v.ownCount then { v with state := .disabled }
  else v

/-- R76: one credential is tested. -/
def disableOne (s : State) (c : Fin 8) : State := if s.copies.creds[c].state = .active then disableAtLimit c s else s

theorem disableLoaded_eq (s : State) : disableLoaded s = (List.finRange 8).foldl disableOne s := rfl

theorem disableOne_get (s : State) (a c : Fin 8) : (disableOne s a).copies.creds[c]
    = if c = a then limited s.copies.policy c s.copies.creds[c] else s.copies.creds[c] := by
  have at_ : ∀ v, (putCred a v s).copies.creds[c] = if c = a then v else s.copies.creds[c] := fun v => set_get _ a c v
  unfold disableOne disableAtLimit limited
  dsimp only
  by_cases e : c = a
  · subst e
    rw [if_pos rfl]
    by_cases active : s.copies.creds[c].state = .active
    · rw [if_pos active]
      by_cases due : roleOf c = .user ∧ s.copies.policy.disableLimit ≠ 0
          ∧ s.copies.policy.disableLimit ≤ s.copies.creds[c].ownCount
      · rw [if_pos due, if_pos ⟨active, due⟩, at_, if_pos rfl]
      · rw [if_neg due, if_neg fun x => due x.2]
    · rw [if_neg active, if_neg fun x => active x.1]
  · rw [if_neg e]
    split
    · split
      · rw [at_, if_neg e]
      · rfl
    · rfl

theorem disableLoaded_get (s : State) (c : Fin 8) :
    (disableLoaded s).copies.creds[c] = limited s.copies.policy c s.copies.creds[c] := by
  rw [disableLoaded_eq]
  have both : (((List.finRange 8).foldl disableOne s).copies.policy, ((List.finRange 8).foldl disableOne s).copies.creds[c])
      = (s.copies.policy, limited s.copies.policy c s.copies.creds[c]) := by
    refine foldl_get (get := fun (s : State) (c : Fin 8) => (s.copies.policy, s.copies.creds[c])) (f := disableOne)
      (g := fun c x => (x.1, limited x.1 c x.2)) (fun s a c => ?_) s c
    have policy : (disableOne s a).copies.policy = s.copies.policy :=
      (Frame.ite (L := [.cCreds, .requests]) (frame_disableAtLimit a s) (.refl _ s)).cPolicy
    rw [policy, disableOne_get]
    split <;> rfl
  exact (Prod.mk.inj both).2

theorem limited_empty (p : Policy) (c : Fin 8) (v : CredRec) : (limited p c v).state = .empty ↔ v.state = .empty := by
  unfold limited
  split
  · rename_i due
    rw [due.1]
    simp
  · rfl

theorem unloadable_congr {recs t : Records} (ranges : t.ranges = recs.ranges)
    (creds : ∀ c : Fin 8, t.creds[c].state = .empty ↔ recs.creds[c].state = .empty) : unloadable t = unloadable recs := by
  funext e
  unfold unloadable isStale rangeDefined
  rw [ranges]
  congr 1
  cases e.holder with
  | slot c => exact decide_eq_decide.mpr (creds c)
  | device => rfl

/-! ## The whole step -/

/-- R187, step 4: what it makes of the records `recs`. -/
structure Derived (recs t : Records) : Prop where
  factory : t.factory = recs.factory
  policy : t.policy = recs.policy
  charged : t.charged = recs.charged
  digest : t.digest = recs.digest
  token : t.token = recs.token
  watch : t.watch = recs.watch
  journal : t.journal = recs.journal
  creds : ∀ c : Fin 8, t.creds[c] = limited recs.policy c recs.creds[c]
  wraps : ∀ k : Fin 64, t.wraps[k] = if recs.wraps[k].any (unloadable t) = true then none else recs.wraps[k]
  reconciled : Reconciled recs t

theorem derived_deriveStates (damage : List Damage) (s : State) : Derived s.copies (deriveStates damage s).copies := by
  have f := frame_deriveStates damage s
  have marked := (frame_markAll s).copies
  have went := reconciled_reconcileRekey (markAll s)
  have f1 := frame_reconcileRekey (markAll s)
  rw [marked] at went
  rw [deriveStates_eq] at f ⊢
  unfold derived_ at f ⊢
  generalize reconcileRekey (markAll s) = u at f went f1 ⊢
  have policy := f1.cPolicy
  have creds := f1.cCreds
  have table := f1.cWraps
  rw [marked] at policy creds table
  have f2 := frame_removeWraps (unloadable u.copies) u
  have wraps := removeWraps_wraps (unloadable u.copies) u
  generalize removeWraps (unloadable u.copies) u = v at f f2 wraps ⊢
  have f3 := frame_disableLoaded v
  have limits := disableLoaded_get v
  generalize disableLoaded v = w at f f3 limits ⊢
  have f4 : Frame [.cIncidents, .requests] w ((damageOrder damage).foldl (fun s d => addIncident (damageKind d) s) w) :=
    .foldl (fun s d => frame_addIncident (damageKind d) s) _ w
  generalize (damageOrder damage).foldl (fun s d => addIncident (damageKind d) s) w = t at f f4 ⊢
  have ranges : t.copies.ranges = u.copies.ranges := by rw [f4.cRanges, f3.cRanges, f2.cRanges]
  have rekey : t.copies.rekey = u.copies.rekey := by rw [f4.cRekey, f3.cRekey, f2.cRekey]
  have limited_ : ∀ c : Fin 8, t.copies.creds[c] = limited s.copies.policy c s.copies.creds[c] := fun c => by
    rw [f4.cCreds, limits, f2.cPolicy, f2.cCreds, policy, creds]
  have same : unloadable t.copies = unloadable u.copies := unloadable_congr ranges fun c => by
    rw [limited_, limited_empty, creds]
  refine ⟨by rw [f.capacity], f.cPolicy, f.cCharged, f.cDigest, f.cToken, f.cWatch, f.cJournal, limited_, fun k => ?_, ?_⟩
  · rw [f4.cWraps, f3.cWraps, wraps, same, table]
  · exact ⟨by rw [rekey, ranges]; exact went.goes, by rw [rekey]; exact went.stays, by rw [rekey, ranges]; exact went.ends⟩

end Derive

end Sys2Proof.Machine
end


-- ==== Sys2Proof/Proofs/StartUpOpens.lean ====
section
/-! PROOF. The auto-open of a cold start (R83): which ranges open and which pend on their binding, and what becomes of a
rekey whose range opens (R122, R125). -/

-- As in the tests: each theorem that waits for the kernel in parallel would keep a thread.
set_option Elab.async false

namespace Sys2Proof.Machine

/-! ## Slots for every range -/

/-- The slots that an open of range `r` takes (R11). -/
def slotNeed (recs : Records) (r : Fin 16) : Nat := if rekeyOn r recs then 2 else 1

/-- At most one range is under rekey. -/
theorem slotNeed_sum (recs : Records) : ((List.finRange 16).map (slotNeed recs)).sum ≤ 17 := by
  have one : ∀ q : Fin 16, ((List.finRange 16).map fun r => if q = r then 2 else 1).sum = 17 := by decide
  unfold slotNeed rekeyOn
  cases recs.rekey with
  | none => simp
  | some k => simpa using (one k.range).le

theorem emptySlots_setSlot (k : Fin 18) (v : Slot) (s : State) : (emptySlots s).length ≤ (emptySlots (setSlot k v s)).length + 1 := by
  have sub : emptySlots s ⊆ k :: emptySlots (setSlot k v s) := by
    intro q hq
    by_cases e : q = k
    · exact e ▸ List.mem_cons_self
    · refine List.mem_cons_of_mem _ ?_
      unfold emptySlots at hq ⊢
      simp only [List.mem_filter, List.mem_finRange, true_and, decide_eq_true_eq] at hq ⊢
      rw [setSlot_get k q v s, if_neg e]
      exact hq
  have once : (emptySlots s).Nodup := (List.nodup_finRange 18).filter _
  exact (once.subperm sub).length_le

section Open

variable {r : Fin 16} {s : State}

/-- R11: where there are slots enough they are taken. -/
theorem takeSlots_enough {m : SealedKey} (current : s.copies.ranges[r].current = some m)
    (enough : slotNeed s.copies r ≤ (emptySlots s).length) : ∃ k l t, takeSlots r s = some (k, l, t) ∧ Frame [.slots] s t
      ∧ (emptySlots s).length ≤ (emptySlots t).length + slotNeed s.copies r := by
  have found : ∃ k l t, takeSlots r s = some (k, l, t)
      ∧ (emptySlots s).length ≤ (emptySlots t).length + slotNeed s.copies r := by
    unfold takeSlots allocOne allocTwo slotNeed at *
    simp only [current]
    by_cases on : rekeyOn r s.copies = true
    · simp only [on, if_true] at enough ⊢
      match empties : emptySlots s, enough with
      | k :: l :: rest, _ =>
        cases next : s.copies.ranges[r].next with
        | none =>
          refine ⟨k, none, _, rfl, ?_⟩
          have := emptySlots_setSlot k (.live r m.media 0) s
          rw [empties] at this
          omega
        | some n =>
          refine ⟨k, some l, _, rfl, ?_⟩
          have h1 := emptySlots_setSlot k (.live r m.media 0) s
          have h2 := emptySlots_setSlot l (.live r n.media 0) (setSlot k (.live r m.media 0) s)
          rw [empties] at h1
          omega
    · simp only [on, if_false, Bool.false_eq_true] at enough ⊢
      match empties : emptySlots s, enough with
      | k :: rest, _ =>
        refine ⟨k, none, _, rfl, ?_⟩
        have := emptySlots_setSlot k (.live r m.media 0) s
        rw [empties] at this
        exact this
  obtain ⟨k, l, t, taken, count⟩ := found
  exact ⟨k, l, t, taken, frame_takeSlots taken, count⟩

/-- R122: while the drive link is DOWN the rekey record alone tells of an opening. -/
theorem resumeRekey_down (up : s.drive.up = false) : (∀ k, s.copies.rekey = some k → k.range = r → k.state = .paused →
      resumeRekey r s = putRekey (some { k with state := .running }) s)
    ∧ (rekeyOn r s.copies = false → resumeRekey r s = s) := by
  have idle : ∀ u : State, u.drive.up = false → chooseWindow u = u := by
    intro u hu
    refine if_neg ?_
    unfold windowDue
    split
    · simp [hu]
    · nofun
  unfold resumeRekey
  refine ⟨fun k hk hr hs => ?_, fun off => ?_⟩
  · simp only [hk, hr, hs, if_true]
    exact idle _ up
  · unfold rekeyOn at off
    cases hk : s.copies.rekey with
    | none => rfl
    | some k =>
      rw [hk] at off
      exact if_neg (by simpa using off)

/-- A range that auto-open finds LOCKED and opens. -/
theorem autoOpen_fit {e : WrapEntry} {m : SealedKey} {k : Fin 18} {l : Option (Fin 18)} {t : State}
    (calm_ : calm s.copies.watch.state = true) (fits : autoOpenFits r s = true)
    (fresh : freshEntry .device r s.copies = some e) (under : e.wrapped.under = .device s.deviceKey)
    (current : s.copies.ranges[r].current = some m) (taken : takeSlots r s = some (k, l, t)) :
    autoOpen r s
      = resumeRekey r (setMark r false (setRun r (.opened ⟨levelOf e.access, e.wrapped.key, k, l⟩) t)) := by
  have locked : s.ranges[r].run = .locked := by
    unfold autoOpenFits at fits
    simp only [Bool.and_eq_true, decide_eq_true_eq] at fits
    exact fits.1.1.2
  have opens : openRange r e.wrapped.key e.access s
      = (.opened, resumeRekey r (setMark r false (setRun r (.opened ⟨levelOf e.access, e.wrapped.key, k, l⟩) t))) := by
    unfold openRange
    simp only [locked, current, taken, Option.isNone_some, Bool.false_eq_true, if_false]
  unfold autoOpen
  simp only [purgeStale_of_fresh fresh, calm_, fits, fresh, Bool.and_self, if_true, unwrap, deviceWrap, under, opens]

/-- A range that auto-open cannot open it leaves as it is. -/
theorem autoOpen_unfit (calm_ : calm s.copies.watch.state = true) (fits : autoOpenFits r s = true)
    (unfit : ∀ e, freshEntry .device r s.copies = some e → e.wrapped.under = .device s.deviceKey →
      s.copies.ranges[r].current = none) : autoOpen r s = s := by
  have fits' := fits
  unfold autoOpenFits at fits'
  simp only [Bool.and_eq_true, decide_eq_true_eq] at fits'
  obtain ⟨⟨⟨-, locked⟩, -⟩, found⟩ := fits'
  obtain ⟨e, fresh⟩ := Option.isSome_iff_exists.mp found
  unfold autoOpen
  simp only [purgeStale_of_fresh fresh, calm_, fits, fresh, Bool.and_self, if_true, unwrap, deviceWrap]
  by_cases under : e.wrapped.under = .device s.deviceKey
  · have gone : openRange r e.wrapped.key e.access s = (.erased, s) := by
      unfold openRange
      simp only [locked, unfit e fresh under, Option.isNone_none, if_true]
    rw [if_pos under]
    simp only [gone]
  · rw [if_neg under]

end Open

/-! ## The pass -/

/-- What auto-open finds at the start of a part in use (R83): no range is open, no wrap entry is stale, and a rekey is
PAUSED. -/
structure AutoStart (s : State) : Prop where
  sound : Sound s
  calm : calm s.copies.watch.state = true
  fresh : ∀ (k : Fin 64) e, s.copies.wraps[k] = some e → isStale s.copies e = false
  paused : ∀ k, s.copies.rekey = some k → k.state = .paused

/-- Whether the binding lets range `r` open (R83). -/
def bindingOpens (s : State) (r : Fin 16) : Bool :=
  !(s.copies.ranges[r].attributes.bindingRequired && !bindingLets s.watch.binding)

/-- What auto-open has made of a range that it has passed. -/
structure RangePassed (s : State) (r : Fin 16) (x : RangeRt) : Prop where
  mark : x.sleepMark = false
  run : x.run = s.ranges[r].run ∨ (∃ h, x.run = .opened h) ∧ autoOpenFits r s = true ∧ bindingOpens s r = true
  opens : ∀ e m, autoOpenFits r s = true → freshEntry .device r s.copies = some e → e.wrapped.under = .device s.deviceKey →
    s.copies.ranges[r].current = some m → bindingOpens s r = true →
    ∃ h, x.run = .opened h ∧ h.level = levelOf e.access ∧ h.key = e.wrapped.key

/-- The fields that auto-open changes at the start of the part. -/
abbrev startOpenFields : List Field := [.ranges, .slots, .cRekey, .requests, .pendingSet]

/-- The pass has reached the ranges of `pre`. -/
structure Opening (s : State) (pre : List (Fin 16)) (u : State) : Prop where
  frame : Frame startOpenFields s u
  follows : Follows u
  rest : ∀ q : Fin 16, q ∉ pre → u.ranges[q] = s.ranges[q]
  slots : 18 ≤ (emptySlots u).length + (pre.map (slotNeed s.copies)).sum
  rekey : u.copies.rekey = s.copies.rekey.map fun k =>
    { k with state := if isOpen u.ranges[k.range].run then .running else .paused }
  pends : ∀ q, q ∈ u.cred.pendingSet ↔ q ∈ pre ∧ autoOpenFits q s = true ∧ bindingOpens s q = false
  passed : ∀ q ∈ pre, RangePassed s q u.ranges[q]

section Pass

variable {s u : State} {pre : List (Fin 16)} {r : Fin 16}

theorem opening_start (h : AutoStart s) : Opening s [] s := by
  obtain ⟨⟨dormant, marked, follows⟩, -, -, paused⟩ := h
  have empty : emptySlots s = List.finRange 18 := by
    unfold emptySlots
    rw [dormant.slots]
    simp
  refine ⟨.refl _ s, follows, fun _ _ => rfl, ?_, ?_, fun q => ?_, fun q hq => (nomatch hq)⟩
  · rw [empty]
    simp
  · cases hk : s.copies.rekey with
    | none => rfl
    | some k =>
      have shut : isOpen s.ranges[k.range].run = false := by
        rw [marked k.range]
        unfold runOf
        dsimp only
        split <;> rfl
      rw [Option.map_some, shut]
      exact congrArg some (by rw [← paused k hk]; rfl)
  · rw [dormant.pending]
    simp

/-- The pass finds the range as it was. -/
structure Finds (s : State) (r : Fin 16) (u : State) : Prop where
  purged : purgeStale .device r u = u
  fits : autoOpenFits r u = autoOpenFits r s
  fresh : freshEntry .device r u.copies = freshEntry .device r s.copies
  calm : calm u.copies.watch.state = true
  run : u.ranges[r] = s.ranges[r]

theorem Opening.finds (h : Opening s pre u) (start : AutoStart s) (new : r ∉ pre) : Finds s r u := by
  have f := h.frame
  have run := h.rest r new
  have fresh : freshEntry .device r u.copies = freshEntry .device r s.copies := by
    unfold freshEntry findWrap isStale
    rw [f.cRanges, f.cWraps]
  refine ⟨?_, ?_, fresh, by rw [f.cWatch]; exact start.calm, run⟩
  · unfold purgeStale
    cases findWrap .device r u.copies with
    | none => rfl
    | some k =>
      dsimp only
      cases he : u.copies.wraps[k] with
      | none => rfl
      | some e =>
        rw [f.cWraps] at he
        have ok := start.fresh k e he
        unfold isStale at ok
        rw [← f.cRanges] at ok
        exact if_neg (by unfold isStale; rw [ok]; decide)
  · unfold autoOpenFits rangeDefined
    rw [fresh, run, f.cRanges]

theorem AutoStart.locked (h : AutoStart s) (fits : autoOpenFits r s = true) : s.ranges[r] = ⟨.locked, false⟩ := by
  have mark := h.sound.marked r
  unfold autoOpenFits at fits
  simp only [Bool.and_eq_true, decide_eq_true_eq] at fits
  have run := fits.1.1.2
  rw [mark] at run ⊢
  unfold runOf at run ⊢
  dsimp only at run
  rw [run]

/-- A range that stays as it was, and does not pend. -/
theorem Opening.same (h : Opening s pre u) (start : AutoStart s) (new : r ∉ pre)
    (off : ¬(autoOpenFits r s = true ∧ bindingOpens s r = false))
    (unfit : ∀ e m, autoOpenFits r s = true → freshEntry .device r s.copies = some e → e.wrapped.under = .device s.deviceKey →
      s.copies.ranges[r].current = some m → bindingOpens s r ≠ true) : Opening s (pre ++ [r]) u := by
  obtain ⟨frame, follows, rest, slots, rekey, pends, passed⟩ := h
  refine ⟨frame, follows, fun q hq => rest q fun x => hq (List.mem_append_left _ x), ?_, rekey, fun q => ?_, fun q hq => ?_⟩
  · rw [List.map_append, List.sum_append]
    omega
  · rw [pends, List.mem_append, List.mem_singleton]
    refine and_congr_left fun x => ⟨.inl, fun y => y.resolve_right fun e => ?_⟩
    subst e
    exact off x
  · rcases List.mem_append.mp hq with hq | hq
    · exact passed q hq
    · obtain rfl := List.mem_singleton.mp hq
      rw [rest q new]
      refine ⟨by rw [start.sound.marked q]; rfl, .inl rfl, fun e m h1 h2 h3 h4 h5 => absurd h5 (unfit e m h1 h2 h3 h4)⟩

/-- A range whose binding does not let it open. -/
theorem Opening.pend (h : Opening s pre u) (start : AutoStart s) (new : r ∉ pre) (fits : autoOpenFits r s = true)
    (held : bindingOpens s r = false) : Opening s (pre ++ [r]) (setPending (withPending r u.cred.pendingSet) u) := by
  obtain ⟨frame, follows, rest, slots, rekey, pends, passed⟩ := h
  have f := frame_setPending (withPending r u.cred.pendingSet) u
  refine ⟨frame.trans f.within, follows_keeps.of follows f, fun q hq => rest q fun x => hq (List.mem_append_left _ x), ?_, rekey,
    fun q => ?_, fun q hq => ?_⟩
  · change 18 ≤ (emptySlots u).length + _
    rw [List.map_append, List.sum_append]
    omega
  · change q ∈ withPending r u.cred.pendingSet ↔ _
    rw [mem_withPending, pends, List.mem_append, List.mem_singleton]
    constructor
    · rintro (rfl | ⟨x, y⟩)
      · exact ⟨.inr rfl, fits, held⟩
      · exact ⟨.inl x, y⟩
    · rintro ⟨x | x, y⟩
      · exact .inr ⟨x, y⟩
      · exact .inl x
  · rcases List.mem_append.mp hq with hq | hq
    · exact passed q hq
    · obtain rfl := List.mem_singleton.mp hq
      change RangePassed s q u.ranges[q]
      rw [rest q new]
      exact ⟨by rw [start.sound.marked q]; rfl, .inl rfl, fun _ _ _ _ _ _ x => by rw [held] at x; cases x⟩

/-- What an opening at the start of the part leaves. -/
theorem resumeRekey_start {t : State} (up : t.drive.up = false)
    (paused : ∀ k, t.copies.rekey = some k → k.range = r → k.state = .paused) :
    Frame [.cRekey, .requests] t (resumeRekey r t) ∧ (Follows t → Follows (resumeRekey r t))
    ∧ (resumeRekey r t).copies.rekey
      = t.copies.rekey.map fun k => if k.range = r then { k with state := .running } else k := by
  obtain ⟨onRange, off⟩ := resumeRekey_down (r := r) up
  cases hk : t.copies.rekey with
  | none =>
    rw [off (by unfold rekeyOn; rw [hk])]
    exact ⟨.refl _ t, id, hk⟩
  | some k =>
    by_cases hr : k.range = r
    · rw [onRange k hk hr (paused k hk hr)]
      refine ⟨(frame_put (.rekey _) t .cRekey).within, fun h => follows_put _ h, ?_⟩
      rw [Option.map_some, if_pos hr]
      rfl
    · rw [off (by unfold rekeyOn; rw [hk]; simpa using hr), Option.map_some, if_neg hr]
      exact ⟨.refl _ t, id, hk⟩

/-- A range that opens. -/
theorem Opening.opens {e : WrapEntry} {m : SealedKey} (h : Opening s pre u) (start : AutoStart s) (new : r ∉ pre)
    (room : (pre.map (slotNeed s.copies)).sum + slotNeed s.copies r ≤ 17) (fits : autoOpenFits r s = true)
    (lets : bindingOpens s r = true) (fresh : freshEntry .device r s.copies = some e)
    (under : e.wrapped.under = .device s.deviceKey) (current : s.copies.ranges[r].current = some m) :
    Opening s (pre ++ [r]) (autoOpen r u) := by
  obtain ⟨-, fits', fresh', calm', run⟩ := h.finds start new
  obtain ⟨frame, follows, rest, slots, rekey, pends, passed⟩ := h
  have locked := start.locked fits
  have shut : isOpen u.ranges[r].run = false := by rw [run, locked]; rfl
  have need : slotNeed u.copies r = slotNeed s.copies r := by
    unfold slotNeed rekeyOn
    rw [rekey]
    cases s.copies.rekey <;> rfl
  have current' : u.copies.ranges[r].current = some m := by rw [frame.cRanges]; exact current
  obtain ⟨k, l, t, taken, ft, count⟩ := takeSlots_enough current' (by rw [need]; omega)
  rw [autoOpen_fit calm' (fits'.trans fits) (fresh'.trans fresh) (by rw [frame.deviceKey]; exact under) current' taken]
  let x : Held := ⟨levelOf e.access, e.wrapped.key, k, l⟩
  have fw : Frame [.ranges] t (setMark r false (setRun r (.opened x) t)) :=
    ((frame_setRun r (.opened x) t).trans (frame_setMark r false _)).within
  have get : ∀ q : Fin 16, (setMark r false (setRun r (.opened x) t)).ranges[q]
      = if q = r then ⟨.opened x, false⟩ else u.ranges[q] := by
    intro q
    rw [← ft.ranges]
    unfold setMark setRun
    simp only [set_get]
    split <;> simp_all
  have kept : emptySlots (setMark r false (setRun r (.opened x) t)) = emptySlots t := rfl
  generalize setMark r false (setRun r (.opened x) t) = w at *
  have fuw : Frame [.slots, .ranges] u w := ft.andThen fw
  have up : w.drive.up = false := by rw [fuw.up, frame.up]; exact start.sound.dormant.up
  have paused : ∀ k, w.copies.rekey = some k → k.range = r → k.state = .paused := by
    intro k hk hr
    rw [fuw.cRekey, rekey] at hk
    cases hs : s.copies.rekey with
    | none => rw [hs] at hk; cases hk
    | some k0 =>
      rw [hs] at hk
      cases hk
      change k0.range = r at hr
      change (if isOpen u.ranges[k0.range].run then RekeyState.running else .paused) = .paused
      subst hr
      rw [shut]
      rfl
  obtain ⟨fv, follows', moves⟩ := resumeRekey_start up paused
  have fall := frame.trans ((fuw.andThen fv : Frame startOpenFields u (resumeRekey r w)))
  refine ⟨fall, follows' (follows_keeps.of follows fuw), fun q hq => ?_, ?_, ?_, fun q => ?_, fun q hq => ?_⟩
  · rw [fv.ranges, get q, if_neg fun e : q = r => hq (e ▸ List.mem_append_right _ List.mem_cons_self)]
    exact rest q fun x => hq (List.mem_append_left _ x)
  · have same : emptySlots (resumeRekey r w) = emptySlots t := by rw [← kept]; unfold emptySlots; rw [fv.slots]
    rw [same, List.map_append, List.sum_append]
    change 18 ≤ _ + (_ + (slotNeed s.copies r + 0))
    omega
  · rw [moves, fuw.cRekey, rekey]
    cases s.copies.rekey with
    | none => rfl
    | some k0 =>
      simp only [Option.map_some, fv.ranges, get]
      by_cases hr : k0.range = r
      · simp [hr, isOpen]
      · simp [hr]
  · have pend : (resumeRekey r w).cred.pendingSet = u.cred.pendingSet :=
      (fuw.andThen fv : Frame startOpenFields.dropLast u (resumeRekey r w)).pendingSet
    rw [pend, pends, List.mem_append, List.mem_singleton]
    refine and_congr_left fun y => ⟨.inl, fun z => z.resolve_right fun e => ?_⟩
    subst e
    rw [lets] at y
    exact absurd y.2 (by decide)
  · rw [fv.ranges, get q]
    by_cases hr : q = r
    · subst hr
      rw [if_pos rfl]
      refine ⟨rfl, .inr ⟨⟨x, rfl⟩, fits, lets⟩, fun e' _ _ he' _ _ _ => ?_⟩
      obtain rfl : e = e' := Option.some.inj (fresh.symm.trans he')
      exact ⟨x, rfl, rfl, rfl⟩
    · rw [if_neg hr]
      exact passed q ((List.mem_append.mp hq).resolve_right fun y => hr (List.mem_singleton.mp y))

/-- R83 for one range. -/
theorem opening_step (h : Opening s pre u) (start : AutoStart s) (new : r ∉ pre)
    (room : (pre.map (slotNeed s.copies)).sum + slotNeed s.copies r ≤ 17) :
    Opening s (pre ++ [r]) (autoOpenOrPend bindingLets r u) := by
  obtain ⟨purged, fits', fresh', calm', -⟩ := h.finds start new
  have binds : (u.copies.ranges[r].attributes.bindingRequired && !bindingLets u.watch.binding) = !bindingOpens s r := by
    unfold bindingOpens
    rw [Bool.not_not, h.frame.cRanges, h.frame.binding]
  unfold autoOpenOrPend
  dsimp only
  rw [purged, fits', binds]
  by_cases fits : autoOpenFits r s = true
  · rw [if_pos fits]
    cases lets : bindingOpens s r with
    | false => exact h.pend start new fits lets
    | true =>
      rw [if_neg (by decide)]
      by_cases found : ∃ e m, freshEntry .device r s.copies = some e ∧ e.wrapped.under = .device s.deviceKey
          ∧ s.copies.ranges[r].current = some m
      · obtain ⟨e, m, fresh, under, current⟩ := found
        exact h.opens start new room fits lets fresh under current
      · rw [autoOpen_unfit calm' (fits'.trans fits)]
        · exact h.same start new (fun x => by rw [lets] at x; exact absurd x.2 (by decide))
            fun e m _ h2 h3 h4 _ => found ⟨e, m, h2, h3, h4⟩
        · intro e he hu
          rw [fresh'] at he
          rw [h.frame.deviceKey] at hu
          rw [h.frame.cRanges]
          cases hc : s.copies.ranges[r].current with
          | none => rfl
          | some m => exact absurd ⟨e, m, he, hu, hc⟩ found
  · rw [if_neg fits]
    exact h.same start new (fun x => fits x.1) fun e m x => absurd x fits

theorem opening_foldl (start : AutoStart s) : ∀ (post pre : List (Fin 16)) (u : State), pre ++ post = List.finRange 16 →
    Opening s pre u → Opening s (List.finRange 16) (post.foldl (fun s r => autoOpenOrPend bindingLets r s) u)
  | [], pre, u, whole, h => by
    rw [List.append_nil] at whole
    exact whole ▸ h
  | r :: post, pre, u, whole, h => by
    have once : (pre ++ r :: post).Nodup := whole ▸ List.nodup_finRange 16
    have new : r ∉ pre := fun x => (List.nodup_append.mp once).2.2 r x r List.mem_cons_self rfl
    have room : (pre.map (slotNeed s.copies)).sum + slotNeed s.copies r ≤ 17 := by
      have total := slotNeed_sum s.copies
      rw [← whole, List.map_append, List.sum_append, List.map_cons, List.sum_cons] at total
      omega
    exact opening_foldl start post (pre ++ [r]) _ (by rw [List.append_assoc]; exact whole)
      (opening_step h start new room)

/-- R83: what auto-open makes of a part in use. -/
theorem opening_autoOpenAll (start : AutoStart s) : Opening s (List.finRange 16) (autoOpenAll s) := by
  unfold autoOpenAll
  rw [if_pos start.calm]
  exact opening_foldl start (List.finRange 16) [] s rfl (opening_start start)

end Pass

end Sys2Proof.Machine
end


-- ==== Sys2Proof/Proofs/StartUpEnds.lean ====
section
/-! PROOF. The end of a start-up: the part with its ranges marked as their records say, auto-opened where the watch is calm,
and with every write made. -/

-- As in the tests: each theorem that waits for the kernel in parallel would keep a thread.
set_option Elab.async false

namespace Sys2Proof.Machine

/-- Whether auto-open may open the range: it is defined, not erased, and has AUTO_OPEN and a DEVICE entry (R81). -/
def Openable (recs : Records) (r : Fin 16) : Prop := rangeDefined recs r = true ∧ recs.ranges[r].erased = false
  ∧ recs.ranges[r].attributes.autoOpen = true ∧ (freshEntry .device r recs).isSome = true

/-- Whether range `r` waits for the binding of a part that knows none yet (R83). -/
def Unbound (recs : Records) (r : Fin 16) : Prop :=
  recs.ranges[r].attributes.bindingRequired = false ∨ recs.digest = none

/-- The end of a start-up whose jobs have left the part `m`. -/
structure Finished (m t : State) : Prop where
  copies : t.copies = { m.copies with rekey := t.copies.rekey }
  follows : Follows t
  sec : t.cmd.sec = none
  mark : ∀ r : Fin 16, t.ranges[r].sleepMark = false
  run : ∀ r : Fin 16, t.ranges[r].run = (runOf m.copies r).run
    ∨ (∃ h, t.ranges[r].run = .opened h) ∧ calm m.copies.watch.state = true ∧ Openable m.copies r ∧ Unbound m.copies r
  pends : ∀ r, r ∈ t.cred.pendingSet ↔ calm m.copies.watch.state = true ∧ Openable m.copies r ∧ ¬Unbound m.copies r
  opens : ∀ r e k, calm m.copies.watch.state = true → Openable m.copies r → Unbound m.copies r →
    freshEntry .device r m.copies = some e → e.wrapped.under = .device m.deviceKey →
    m.copies.ranges[r].current = some k →
    ∃ h, t.ranges[r].run = .opened h ∧ h.level = levelOf e.access ∧ h.key = e.wrapped.key
  rekey : (∀ k, m.copies.rekey = some k → k.state = .paused) → t.copies.rekey = m.copies.rekey.map fun k =>
    { k with state := if isOpen t.ranges[k.range].run then .running else .paused }
  rests : m.copies.rekey = none → t.copies.rekey = none

section Ends

variable {m v u t : State}

theorem started_binding (levels : BitVec 4) (m : State) :
    (started levels m).watch.binding = if m.copies.digest.isNone then .unbound else .unknown := by
  have f := (frame_settled (restartHoldoff m)).copies.trans (frame_restartHoldoff m).copies
  unfold started
  rw [(frame_settled _).binding]
  unfold startWatch
  generalize settled (restartHoldoff m) = u at f
  rw [f]

theorem bindingOpens_started (levels : BitVec 4) (m : State) (r : Fin 16) :
    bindingOpens (started levels m) r = true ↔ Unbound m.copies r := by
  unfold bindingOpens Unbound
  rw [started_binding, (frame_started levels m).copies]
  cases m.copies.ranges[r].attributes.bindingRequired <;> cases m.copies.digest <;> simp [bindingLets]

theorem autoOpenFits_started (levels : BitVec 4) (h : Marked m) (r : Fin 16) :
    autoOpenFits r (started levels m) = true ↔ Openable m.copies r := by
  have f := frame_started levels m
  have locked : m.ranges[r].run = .locked ↔ m.copies.ranges[r].erased = false := by
    rw [h r]
    unfold runOf
    cases m.copies.ranges[r].erased <;> simp
  unfold autoOpenFits Openable
  rw [f.copies, f.ranges]
  simp only [Bool.and_eq_true, decide_eq_true_eq, locked, and_assoc]

theorem isOpen_runOf (recs : Records) (r : Fin 16) : isOpen (runOf recs r).run = false := by
  unfold runOf
  dsimp only
  split <;> rfl

/-- The links come up, and the writes of auto-open are made. -/
def ended (u : State) : State := takeLinks (settled u)

theorem frame_ended (u : State) : Frame [.phase, .platUp, .nv, .requests, .waits] u (ended u) :=
  (frame_settled u).within.trans (frame_takeLinks _).within

theorem sound_started (levels : BitVec 4) (h : Sound m) : Sound (started levels m) :=
  sound_settled (sound_keeps.of (sound_settled (sound_keeps.of h (frame_restartHoldoff m))) (frame_startWatch levels _))

theorem follows_ended (h : Follows u) : Follows (ended u) :=
  follows_keeps.of (follows_settled h) (frame_takeLinks _)

/-- R83, R148: with the watch not calm no range opens and none pends. -/
theorem finished_shut (levels : BitVec 4) (sound : Sound m) (off : calm m.copies.watch.state = false) :
    Finished m (ended (autoOpenAll (started levels m))) := by
  have fv := frame_started levels m
  have none_ : autoOpenAll (started levels m) = started levels m := if_neg (by rw [fv.copies, off]; nofun)
  rw [none_]
  have f := frame_ended (started levels m)
  have follows := follows_ended (sound_started levels sound).follows
  have copies := f.copies.trans fv.copies
  have run : ∀ r : Fin 16, (ended (started levels m)).ranges[r] = runOf m.copies r := fun r => by
    rw [f.ranges, fv.ranges]
    exact sound.marked r
  have sec := f.sec.trans (fv.sec.trans sound.dormant.sec)
  have pends := f.pendingSet.trans (fv.pendingSet.trans sound.dormant.pending)
  generalize ended (started levels m) = t at copies run sec pends follows ⊢
  have records : t.copies = { m.copies with rekey := t.copies.rekey } := by rw [copies]
  refine ⟨records, follows, sec, fun r => by rw [run r]; rfl,
    fun r => .inl (by rw [run r]), fun r => ?_, fun r e k x => (by rw [off] at x; cases x), fun paused => ?_,
    fun x => by rw [copies]; exact x⟩
  · rw [pends, off]
    simp
  · rw [copies]
    cases hk : m.copies.rekey with
    | none => rfl
    | some k =>
      rw [Option.map_some, run k.range, isOpen_runOf]
      exact congrArg some (by rw [← paused k hk]; rfl)

/-- R83: with the watch calm each range that may opens, or pends on its binding. -/
theorem finished_calm (levels : BitVec 4) (sound : Sound m) (calm_ : calm m.copies.watch.state = true)
    (fresh : ∀ (k : Fin 64) e, m.copies.wraps[k] = some e → isStale m.copies e = false)
    (paused : ∀ k, m.copies.rekey = some k → k.state = .paused) :
    Finished m (ended (autoOpenAll (started levels m))) := by
  have fv := frame_started levels m
  have start : AutoStart (started levels m) := by
    refine ⟨sound_started levels sound, ?_, ?_, ?_⟩ <;> rw [fv.copies] <;> assumption
  obtain ⟨frame, follows, -, -, rekey, pends, passed⟩ := opening_autoOpenAll start
  have fits := autoOpenFits_started levels sound.marked
  have lets := bindingOpens_started levels m
  have run := fun r : Fin 16 => (start.sound.marked r)
  have key := fv.deviceKey
  have copies := fv.copies
  generalize started levels m = v at *
  have f := frame_ended (autoOpenAll v)
  have passed := fun r : Fin 16 => passed r (List.mem_finRange r)
  generalize autoOpenAll v = u at *
  refine ⟨?_, follows_ended follows, f.sec.trans (frame.sec.trans start.sound.dormant.sec), fun r => ?_, fun r => ?_,
    fun r => ?_, fun r e k _ may unbound found under current => ?_, fun _ => ?_, fun none_ => ?_⟩
  · rw [f.copies, ← copies]
    exact frame.rekeyOnly
  · rw [f.ranges]
    exact (passed r).mark
  · rw [f.ranges]
    rcases (passed r).run with same | ⟨opened, fit, let_⟩
    · exact .inl (by rw [same, run r, copies])
    · exact .inr ⟨opened, calm_, (fits r).mp fit, (lets r).mp let_⟩
  · rw [f.pendingSet, pends, ← fits, ← lets, Bool.not_eq_true]
    exact ⟨fun x => ⟨calm_, x.2⟩, fun x => ⟨List.mem_finRange r, x.2⟩⟩
  · rw [f.ranges]
    rw [← copies] at found current
    exact (passed r).opens e k ((fits r).mpr may) found (by rw [key]; exact under) current ((lets r).mpr unbound)
  · rw [f.copies, rekey, copies, f.ranges]
  · rw [f.copies, rekey, copies, none_]
    rfl

end Ends

end Sys2Proof.Machine
end


-- ==== Sys2Proof/Proofs/ColdStarts.lean ====
section
/-! PROOF. What a cold start makes of the records, the ranges, a rekey and an erase: its steps put together. -/

-- As in the tests: each theorem that waits for the kernel in parallel would keep a thread.
set_option Elab.async false

namespace Sys2Proof.Machine

/-! ## Incidents -/

section Incidents

theorem joinIncident_or {i j : Incident} {l : List Incident} (h : i ∈ joinIncident j l) : i ∈ l ∨ i = j := by
  unfold joinIncident at h
  split at h
  · simpa using h
  · rcases List.mem_append.mp h with h | h
    · exact .inl (List.mem_of_mem_tail h)
    · exact .inr (List.mem_singleton.mp h)

theorem joins_or {i : Incident} : ∀ {l a : List Incident}, i ∈ l.foldl (fun a i => joinIncident i a) a → i ∈ a ∨ i ∈ l
  | [], _, h => .inl h
  | j :: l, a, h => by
    rcases joins_or (l := l) (a := joinIncident j a) h with h | h
    · rcases joinIncident_or h with h | rfl
      · exact .inl h
      · exact .inr List.mem_cons_self
    · exact .inr (List.mem_cons_of_mem _ h)

/-- R154: the list ends with the incident that joined last. -/
theorem joinIncident_last (i : Incident) (l : List Incident) : ∃ x, joinIncident i l = x ++ [i] := by
  unfold joinIncident
  split
  · exact ⟨_, rfl⟩
  · exact ⟨_, rfl⟩

/-- R154: an incident stays for as long as not too many follow it. -/
theorem joins_keep {i : Incident} : ∀ (l x y : List Incident), y.length + l.length < 24 →
    i ∈ l.foldl (fun a i => joinIncident i a) (x ++ i :: y)
  | [], x, y, _ => List.mem_append_right _ List.mem_cons_self
  | j :: l, x, y, room => by
    rw [List.length_cons] at room
    have stays : ∃ x', joinIncident j (x ++ i :: y) = x' ++ i :: (y ++ [j]) := by
      unfold joinIncident
      split
      · exact ⟨x, by simp⟩
      · rename_i full
        cases x with
        | nil =>
          rw [List.nil_append, List.length_cons] at full
          omega
        | cons a x => exact ⟨x, by simp⟩
    obtain ⟨x', e⟩ := stays
    rw [List.foldl_cons, e]
    refine joins_keep l x' (y ++ [j]) ?_
    rw [List.length_append, List.length_singleton]
    omega

/-- R153: what a damaged record tells. -/
def damageIncident (m : State) (d : Damage) : Incident := ⟨damageKind d, m.copies.boot, m.uptime, m.copies.watch.score⟩

theorem incidents_addIncidents : ∀ (l : List Damage) (m : State),
    (l.foldl (fun s d => addIncident (damageKind d) s) m).copies.incidents
      = (l.map (damageIncident m)).foldl (fun a i => joinIncident i a) m.copies.incidents
  | [], _ => rfl
  | d :: l, m => incidents_addIncidents l (addIncident (damageKind d) m)

/-- A sole damaged record is told of. -/
theorem damageOrder_sole {d : Damage} (told : d ≠ .factoryCopy true) : ∃ l, damageOrder [d] = l ++ [d] := by
  have found : d ∈ damageOrder [d] := by
    unfold damageOrder
    dsimp only
    refine List.mem_filter.mpr ⟨?_, by simp⟩
    cases d with
    | factoryCopy b =>
      cases b with
      | false => simp
      | true => exact absurd rfl told
    | range r found =>
      have here : damagedRange [.range r found] r = some found := by simp [damagedRange]
      have mem : Damage.range r found
          ∈ (List.finRange 16).filterMap fun q => (damagedRange [.range r found] q).map (Damage.range q) :=
        List.mem_filterMap.mpr ⟨r, List.mem_finRange r, by rw [here]; rfl⟩
      simp only [List.mem_append, mem, or_true, true_or]
    | _ => simp
  have only : ∀ x ∈ damageOrder [d], x = d := fun x hx => by
    unfold damageOrder at hx
    simpa using (List.mem_filter.mp hx).2
  have ne : damageOrder [d] ≠ [] := List.ne_nil_of_mem found
  refine ⟨(damageOrder [d]).dropLast, ?_⟩
  have last := List.dropLast_append_getLast ne
  rwa [only _ (List.getLast_mem ne), eq_comm] at last

end Incidents

/-! ## The steps together -/

theorem frame_derived (m : State) : Frame [.ranges, .cRanges, .cRekey, .cWraps, .cCreds, .requests] m (derived_ m) := by
  unfold derived_
  have f1 : Frame [.ranges, .cRanges, .cRekey, .cWraps, .cCreds, .requests] m (reconcileRekey (markAll m)) :=
    (frame_markAll m).within.trans (frame_reconcileRekey (markAll m)).within
  generalize reconcileRekey (markAll m) = u at f1 ⊢
  exact (f1.trans (frame_removeWraps (unloadable u.copies) u).within).trans (frame_disableLoaded _).within

/-- A cold start of `s` without a further power loss, where the factory record is read: it loads the records `l`, derives
`d`, does the jobs `j` and ends at `t` (R187, R188). -/
structure Arrival (damage : List Damage) (s l d j t : State) : Prop where
  loaded : Loaded damage s.store.nv l.copies
  derived : Derived l.copies d.copies
  joined : d.copies.incidents
    = ((damageOrder damage).map (damageIncident l)).foldl (fun a i => joinIncident i a) l.copies.incidents
  boot : d.copies.boot = l.copies.boot
  uptime : l.uptime = 0 ∧ d.uptime = 0
  sound : Sound d
  outcome : Outcome d j
  since : Since 9 d j
  finished : Finished j t
  key : j.deviceKey = s.deviceKey

theorem Finished.cleared {m t : State} (h : Finished m t) : Finished m (clearTouched t) :=
  ⟨h.copies, ⟨h.follows.stored, h.follows.inOrder⟩, h.sec, h.mark, h.run, h.pends, h.opens, h.rekey, h.rests⟩

/-- Only a part in use is alive after the jobs. -/
theorem Outcome.live {d j : State} (h : Outcome d j) (live : alive j.copies.watch.state = true) :
    Lives d 1 j ∧ d.copies.journal = none := by
  have dead : ∀ {n m}, ScrubRests d n m j ∨ EraseRests d n m j → False := by
    rintro n m (rests | rests)
    · exact absurd live (by rw [rests.left.2.2]; nofun)
    · exact absurd live (by rw [rests.left.2.2]; nofun)
  cases h with
  | lives journal _ h => exact ⟨h, journal⟩
  | erases _ _ h _ => exact (dead (.inr h)).elim
  | dead _ off h =>
    rw [h, (frame_settled d).copies, off] at live
    cases live
  | done _ _ _ h =>
    rw [h.state] at live
    cases live
  | scrubs _ _ _ h => exact (dead (.inl h)).elim
  | wipes _ _ _ h _ => exact (dead (.inr h)).elim

section Derived

variable {l d : Records}

/-- R15, R59: an entry that a start-up has kept. -/
theorem Derived.fits (h : Derived l d) {k : Fin 64} {e : WrapEntry} (he : d.wraps[k] = some e) :
    unloadable d e = false ∧ l.wraps[k] = some e := by
  have kept := h.wraps k
  rw [he] at kept
  split at kept
  · cases kept
  · rename_i fits
    rw [← kept] at fits
    exact ⟨by simpa using fits, kept.symm⟩

theorem fresh_of_fits {e : WrapEntry} (h : unloadable d e = false) : isStale d e = false := by
  unfold unloadable at h
  simp only [Bool.or_eq_false_iff] at h
  exact h.1.1.1

theorem Reconciled.paused (h : Reconciled l d) {k : RekeyRec} (hk : d.rekey = some k) : k.state = .paused := by
  obtain ⟨-, k', -, -, rfl⟩ := h.goes k hk
  rfl

end Derived

theorem calm_alive {w : WatchState} (h : calm w = true) : alive w = true := by
  cases w with
  | settled => rfl
  | wary => rfl
  | alarmed => cases h
  | erasing => cases h
  | erased => cases h

/-- With the watch calm the records stand as they were derived: no entry is stale, and a rekey waits. -/
theorem outcome_calm {l : Records} {d j : State} (h : Outcome d j) (derived : Derived l d.copies)
    (calm_ : calm j.copies.watch.state = true) :
    (∀ (k : Fin 64) e, j.copies.wraps[k] = some e → isStale j.copies e = false)
      ∧ ∀ k, j.copies.rekey = some k → k.state = .paused := by
  obtain ⟨lives, -⟩ := h.live (calm_alive calm_)
  rw [lives.copies]
  exact ⟨fun k e he => fresh_of_fits (derived.fits he).1, fun k hk => derived.reconciled.paused hk⟩

theorem finished_jobs {l : Records} {d j : State} (levels : BitVec 4) (h : Outcome d j) (derived : Derived l d.copies)
    (sound : Sound j) : Finished j (ended (autoOpenAll (started levels j))) := by
  cases calm_ : calm j.copies.watch.state with
  | false => exact finished_shut levels sound calm_
  | true =>
    obtain ⟨fresh, paused⟩ := outcome_calm h derived calm_
    exact finished_calm levels sound calm_ fresh paused

/-- The boot count does not matter to the loading. -/
theorem Loaded.uncounted {damage : List Damage} {nv recs : Records} {b : Nat}
    (h : Loaded damage { nv with boot := b } recs) : Loaded damage nv recs := by
  obtain ⟨h1, h2, h3, h4, h5, h6, h7, h8, h9, h10, h11, h12, one⟩ := h
  refine ⟨h1, h2, h3, h4, h5, h6, h7, h8, h9, h10, h11, h12, fun r found only => (one r found only).trans ?_⟩
  refine treatedRange_congr (Vector.ext fun i hi => ?_) (by rw [blankRanges_eq, blankRanges_eq damage nv]) r found
  exact (blankRanges_get damage { nv with boot := b } ⟨i, hi⟩).trans (blankRanges_get damage nv ⟨i, hi⟩).symm

theorem loaded_recordsLoaded (damage : List Damage) (m : State) : Loaded damage m.copies (recordsLoaded damage m).copies := by
  have went := loaded_loadRecords damage (settled (countBoot damage m))
  rw [(frame_settled (countBoot damage m)).copies] at went
  unfold recordsLoaded
  rw [(frame_settled _).copies]
  exact went.uncounted

theorem arrival {damage : List Damage} (levels : BitVec 4) (s : State) (lost : factoryLost damage = false) :
    ∃ l d j t, exec (.coldStart damage levels none) s = .next t ∧ SlotsOk t ∧ Arrival damage s l d j t := by
  obtain ⟨sound, idle⟩ := sound_loaded damage s.store.nv (clearTouched s)
  have outcome := outcome_jobs sound idle
  have first := loaded_recordsLoaded damage (powerUp s.store.nv (clearTouched s))
  have f0 := frame_recordsLoaded damage (powerUp s.store.nv (clearTouched s))
  have ends := startUp_state levels (powerUp s.store.nv (clearTouched s)) lost
  have cold : exec (.coldStart damage levels none) s
      = .next (clearTouched (startUp damage levels (powerUp s.store.nv (clearTouched s))).state) := rfl
  have slots : Fits true (clearTouched (startUp damage levels (powerUp s.store.nv (clearTouched s))).state) :=
    (fits_keeps true).of (fits_coldStart damage levels none (clearTouched s)) (frame_clearTouched _)
  have at_ : ∀ m : State, loaded damage m = settled (deriveStates damage (recordsLoaded damage m)) := fun _ => rfl
  rw [at_] at sound idle outcome ends
  rw [ends] at cold slots
  generalize recordsLoaded damage (powerUp s.store.nv (clearTouched s)) = l at *
  have derived := derived_deriveStates damage l
  have f1 := frame_derived l
  have joined := incidents_addIncidents (damageOrder damage) (derived_ l)
  have tags : damageIncident (derived_ l) = damageIncident l := by
    funext d
    unfold damageIncident
    rw [f1.cBoot, f1.uptime, f1.cWatch]
  rw [← deriveStates_eq, f1.cIncidents, tags] at joined
  have f2 := (frame_deriveStates damage l)
  have f3 := frame_settled (deriveStates damage l)
  generalize deriveStates damage l = c at *
  have copies := f3.copies
  have up := f3.uptime
  have key := f3.deviceKey
  generalize settled c = d at *
  obtain ⟨soundJ, since, -⟩ := outcome.left sound idle
  have finished := finished_jobs levels outcome (by rw [copies]; exact derived) soundJ
  generalize jobs d = j at *
  refine ⟨l, d, j, clearTouched (ended (autoOpenAll (started levels j))), ?_, ?_, ?_⟩
  · exact cold
  · exact slots.1
  · refine ⟨first, by rw [copies]; exact derived, by rw [copies]; exact joined, by rw [copies, f2.cBoot],
      ⟨f0.uptime, up.trans (f2.uptime.trans f0.uptime)⟩, sound, outcome, since, finished.cleared, ?_⟩
    exact since.frame.deviceKey.trans (key.trans (f2.deviceKey.trans f0.deviceKey))

end Sys2Proof.Machine
end


-- ==== Sys2Proof/Proofs/ColdStartLoads.lean ====
section
/-! PROOF. O30: what a cold start leaves, clause by clause. -/

-- As in the tests: each theorem that waits for the kernel in parallel would keep a thread.
set_option Elab.async false

namespace Sys2Proof.Machine

section Clauses

variable {damage : List Damage} {s l d j t : State}

/-! ## The records -/

theorem Arrival.policy (h : Arrival damage s l d j t) : t.copies.policy = l.copies.policy := by
  rw [h.finished.copies]
  exact h.since.policy.trans h.derived.policy

theorem Arrival.factory (h : Arrival damage s l d j t) : t.copies.factory = s.store.nv.factory
    ∧ d.copies.factory = s.store.nv.factory := by
  have start := h.derived.factory.trans h.loaded.factory
  refine ⟨?_, start⟩
  rw [h.finished.copies, ← start]
  exact h.since.frame.capacity

/-- R59, R76, R141: the records that stand by themselves. -/
theorem Arrival.records (h : Arrival damage s l d j t) : t.copies.factory = s.store.nv.factory
    ∧ t.copies.policy = (if damage.contains .policy then Policy.default else s.store.nv.policy)
    ∧ t.copies.charged = (if damage.contains .chargedCount then 0 else s.store.nv.charged)
    ∧ t.copies.digest = (if damage.contains .bindingDigest then none else s.store.nv.digest)
    ∧ t.copies.token = (if damage.contains .remoteToken then none else s.store.nv.token)
    ∧ ∀ c : Fin 8, t.copies.creds[c] = limited t.copies.policy c
      (if damage.contains (.credential c) then CredRec.empty else s.store.nv.creds[c]) := by
  refine ⟨h.factory.1, h.policy.trans h.loaded.policy, ?_, ?_, ?_, fun c => ?_⟩
  · rw [h.finished.copies]
    exact h.since.frame.cCharged.trans (h.derived.charged.trans h.loaded.charged)
  · rw [h.finished.copies]
    exact h.since.frame.cDigest.trans (h.derived.digest.trans h.loaded.digest)
  · rw [h.finished.copies]
    exact h.since.frame.cToken.trans (h.derived.token.trans h.loaded.token)
  · rw [h.policy, h.finished.copies, ← h.loaded.creds, ← h.derived.creds]
    change j.copies.creds[c] = _
    rw [h.since.frame.cCreds]

/-- R154: an incident list that is lost begins anew. -/
theorem Arrival.incidents_lost (h : Arrival damage s l d j t) (lost : damage.contains .incidentList = true) :
    ∀ i ∈ t.copies.incidents, i.boot = t.copies.boot ∧ i.uptime = 0 := by
  intro i hi
  rw [h.finished.copies] at hi ⊢
  change i ∈ j.copies.incidents at hi
  change i.boot = j.copies.boot ∧ _
  rw [h.since.frame.cBoot]
  obtain ⟨new, -, tags, e⟩ := h.since.joins
  rw [e] at hi
  rcases joins_or hi with old | new
  · rw [h.joined, h.loaded.incidents lost] at old
    obtain ⟨x, -, rfl⟩ := List.mem_map.mp ((joins_or old).resolve_left (by simp))
    exact ⟨h.boot.symm, h.uptime.1⟩
  · obtain ⟨boot, uptime⟩ := tags i new
    exact ⟨boot, uptime.trans h.uptime.2⟩

/-- R185: a sole damaged record is told of. -/
theorem Arrival.incident_told {x : Damage} (h : Arrival [x] s l d j t) (told : x ≠ .factoryCopy true) :
    ∃ i ∈ t.copies.incidents, i.kind = damageKind x := by
  refine ⟨damageIncident l x, ?_, rfl⟩
  rw [h.finished.copies]
  change _ ∈ j.copies.incidents
  obtain ⟨new, few, -, e⟩ := h.since.joins
  obtain ⟨before, order⟩ := damageOrder_sole told
  have joined := h.joined
  rw [order, List.map_append, List.foldl_append] at joined
  obtain ⟨a, last⟩ := joinIncident_last (damageIncident l x)
    ((before.map (damageIncident l)).foldl (fun a i => joinIncident i a) l.copies.incidents)
  rw [e, joined]
  change _ ∈ List.foldl _ (joinIncident (damageIncident l x) _) new
  rw [last]
  exact joins_keep new a [] (by simpa using Nat.lt_of_le_of_lt few (by omega))

/-- R144, R188: the loaded score stands, and is evaluated. -/
theorem Arrival.score (h : Arrival damage s l d j t) :
    let found : WatchRec := if damage.contains .watchRecord then ⟨.alarmed, t.copies.policy.t2⟩ else s.store.nv.watch
    t.copies.watch.score = found.score
      ∧ (alive t.copies.watch.state = true → t.copies.watch.state = watchAt t.copies.policy found.state found.score) := by
  have found := h.derived.watch.trans h.loaded.watch
  rw [← h.policy] at found
  dsimp only
  rw [← found]
  have watch : t.copies.watch = j.copies.watch := by rw [h.finished.copies]
  refine ⟨(congrArg WatchRec.score watch).trans h.since.score, fun live => ?_⟩
  rw [watch] at live ⊢
  rw [h.policy, ← h.derived.policy]
  exact (h.outcome.live live).1.state

/-- A part in use keeps the records as they were derived (R188). -/
theorem Arrival.live (h : Arrival damage s l d j t) (live : alive t.copies.watch.state = true) :
    t.copies.ranges = d.copies.ranges ∧ t.copies.creds = d.copies.creds ∧ t.copies.wraps = d.copies.wraps
      ∧ j.copies.rekey = d.copies.rekey ∧ d.copies.journal = none := by
  have watch : t.copies.watch = j.copies.watch := by rw [h.finished.copies]
  rw [watch] at live
  obtain ⟨lives, none_⟩ := h.outcome.live live
  rw [h.finished.copies, lives.copies]
  exact ⟨rfl, rfl, rfl, rfl, none_⟩

/-! ## The wrap table -/

theorem Arrival.wraps_go (h : Arrival damage s l d j t) (k : Fin 64) : t.copies.wraps[k] = none
    ∨ ¬damage.contains (.wrapEntry k) = true ∧ t.copies.wraps[k] = s.store.nv.wraps[k] := by
  have wraps : t.copies.wraps[k] = j.copies.wraps[k] := by rw [h.finished.copies]
  rw [wraps]
  have went := h.since.wraps k
  rw [h.derived.wraps, h.loaded.wraps] at went
  by_cases lost : damage.contains (.wrapEntry k) = true
  · rw [if_pos lost] at went
    simp only [Option.any_none, ite_self, or_self] at went
    exact .inl went
  · rw [if_neg lost] at went
    split at went
    · exact .inl (went.elim id id)
    · exact went.imp_right fun x => ⟨lost, x⟩

theorem Arrival.wraps_stay (h : Arrival damage s l d j t) (live : alive t.copies.watch.state = true) :
    (∀ (k : Fin 64) e, s.store.nv.wraps[k] = some e → ¬damage.contains (.wrapEntry k) = true →
      unloadable t.copies e = false → t.copies.wraps[k] = some e)
    ∧ ∀ (k : Fin 64) e, t.copies.wraps[k] = some e → unloadable t.copies e = false := by
  obtain ⟨ranges, creds, wraps, -, -⟩ := h.live live
  have same : unloadable t.copies = unloadable d.copies := unloadable_congr ranges fun c => by rw [creds]
  rw [same, wraps]
  refine ⟨fun k e found lost fits => ?_, fun k e he => (h.derived.fits he).1⟩
  rw [h.derived.wraps, h.loaded.wraps, if_neg lost, found]
  exact if_neg (by simpa using fits)

/-! ## The ranges -/

theorem Arrival.ranges_undamaged (h : Arrival [] s l d j t) (live : alive t.copies.watch.state = true) (r : Fin 16) :
    t.copies.ranges[r] = { s.store.nv.ranges[r] with next := t.copies.ranges[r].next }
      ∧ (t.copies.ranges[r].next = none ∨ t.copies.ranges[r].next = s.store.nv.ranges[r].next) := by
  rw [(h.live live).1, ← h.loaded.undamaged r rfl]
  cases hk : d.copies.rekey with
  | none =>
    rw [h.derived.reconciled.ends hk r]
    exact ⟨rfl, .inl rfl⟩
  | some k =>
    rw [(h.derived.reconciled.goes k hk).1]
    exact ⟨rfl, .inr rfl⟩

/-- A damaged range 1 to 15 that stays defined (R1). -/
theorem damagedExtent_blank {r : Fin 16} {found : DamagedRange} {e : Extent} (nv : Records)
    (only : ∀ q, damagedRange damage q = if q = r then some found else none) (he : found.extent = some e) :
    damagedExtent (blankRanges damage nv) found =
      if found.defined = true ∧ e.start % 8 = 0 ∧ e.len % 8 = 0 ∧ 8 ≤ e.len ∧ extentEnd e ≤ nv.factory.capacity
        ∧ ∀ q, q ≠ r → ∀ x, definedExtent nv q = some x → extentsOverlap x e = false then some e else none := by
  have capacity : (blankRanges damage nv).factory = nv.factory := by rw [blankRanges_eq]
  have extents : ∀ q, definedExtent (blankRanges damage nv) q = if q = r then none else definedExtent nv q := by
    intro q
    unfold definedExtent
    rw [blankRanges_get, only]
    by_cases hq : q = r
    · rw [if_pos hq, if_pos hq, Option.isSome_some, if_pos rfl]
      exact if_neg fun x => by cases x.2
    · rw [if_neg hq, if_neg hq]
      rfl
  unfold damagedExtent
  rw [he, capacity]
  refine if_congr ?_ rfl rfl
  refine and_congr_right fun _ => and_congr_right fun _ => and_congr_right fun _ => and_congr_right fun _ =>
    and_congr_right fun _ => ?_
  rw [List.all_eq_true]
  refine ⟨fun all q hq x hx => ?_, fun apart q _ => ?_⟩
  · have := all q (List.mem_finRange q)
    rw [extents, if_neg hq, hx] at this
    simpa using this
  · rw [extents]
    by_cases hq : q = r
    · rw [if_pos hq]
    · rw [if_neg hq]
      cases hx : definedExtent nv q with
      | none => rfl
      | some x => simpa using apart q hq x hx

theorem damagedRange_sole (r : Fin 16) (found : DamagedRange) (q : Fin 16) :
    damagedRange [.range r found] q = if q = r then some found else none := by
  unfold damagedRange
  by_cases hq : r = q
  · simp [hq]
  · simp [hq, Ne.symm hq]

/-- R1: a sole damaged range record. -/
theorem Arrival.range_damaged {r : Fin 16} {found : DamagedRange} (h : Arrival [.range r found] s l d j t)
    (live : alive t.copies.watch.state = true) :
    t.copies.ranges[r] = treatedRange (blankRanges [.range r found] s.store.nv) r found := by
  rw [(h.live live).1]
  have treated := h.loaded.one r found (damagedRange_sole r found)
  have bare : l.copies.ranges[r].next = none := by
    rw [treated]
    unfold treatedRange
    split
    · rfl
    · split <;> rfl
  rw [← treated]
  cases hk : d.copies.rekey with
  | none =>
    rw [h.derived.reconciled.ends hk r, ← bare]
  | some k => rw [(h.derived.reconciled.goes k hk).1]

/-- What the end of a start-up leaves of the records. -/
theorem Finished.recs_eq {m u : State} (h : Finished m u) : u.copies.ranges = m.copies.ranges ∧ u.copies.wraps = m.copies.wraps
    ∧ u.copies.digest = m.copies.digest ∧ u.copies.watch = m.copies.watch ∧ u.copies.journal = m.copies.journal := by
  rw [h.copies]
  exact ⟨rfl, rfl, rfl, rfl, rfl⟩

/-- R3, R83: no range is CLOSING, and the others are as their records and the auto-open say. -/
theorem Arrival.runs (h : Arrival damage s l d j t) (r : Fin 16) : t.ranges[r].sleepMark = false
    ∧ ((∃ x, t.ranges[r].run = .opened x) ∧ calm t.copies.watch.state = true
        ∧ t.copies.ranges[r].attributes.autoOpen = true ∧ t.copies.ranges[r].erased = false
        ∧ (t.copies.ranges[r].attributes.bindingRequired = true → t.copies.digest = none)
      ∨ t.ranges[r].run = .locked ∧ t.copies.ranges[r].erased = false
      ∨ t.ranges[r].run = .erased ∧ t.copies.ranges[r].erased = true) := by
  refine ⟨h.finished.mark r, ?_⟩
  rw [h.finished.copies]
  change (_ ∧ calm j.copies.watch.state = true ∧ j.copies.ranges[r].attributes.autoOpen = true
    ∧ j.copies.ranges[r].erased = false ∧ (j.copies.ranges[r].attributes.bindingRequired = true → j.copies.digest = none))
    ∨ (_ ∧ j.copies.ranges[r].erased = false) ∨ (_ ∧ j.copies.ranges[r].erased = true)
  rcases h.finished.run r with marked | ⟨opened, calm_, ⟨-, whole, auto, -⟩, unbound⟩
  · right
    rw [marked]
    unfold runOf
    cases j.copies.ranges[r].erased
    · exact .inl ⟨rfl, rfl⟩
    · exact .inr ⟨rfl, rfl⟩
  · exact .inl ⟨opened, calm_, auto, whole, fun required => unbound.resolve_left (by rw [required]; nofun)⟩

/-- R83: the conditions of auto-open are those of the records that the cold start leaves. -/
theorem Finished.conditions {m u : State} (h : Finished m u) (r : Fin 16) : (Openable u.copies r ↔ Openable m.copies r)
    ∧ (Unbound u.copies r ↔ Unbound m.copies r) ∧ freshEntry .device r u.copies = freshEntry .device r m.copies := by
  rw [h.copies]
  exact ⟨Iff.rfl, Iff.rfl, rfl⟩

/-- R83: the ranges that pend. -/
theorem Arrival.pends (h : Arrival damage s l d j t) (r : Fin 16) : r ∈ t.cred.pendingSet ↔
    calm t.copies.watch.state = true ∧ Openable t.copies r ∧ ¬Unbound t.copies r := by
  obtain ⟨-, -, -, watch, -⟩ := h.finished.recs_eq
  obtain ⟨may, unbound, -⟩ := h.finished.conditions r
  rw [watch, may, unbound]
  exact h.finished.pends r

/-- R83: the ranges that open. -/
theorem Arrival.opens (h : Arrival damage s l d j t) {r : Fin 16} {e : WrapEntry}
    (calm_ : calm t.copies.watch.state = true) (may : Openable t.copies r) (unbound : Unbound t.copies r)
    (fresh : freshEntry .device r t.copies = some e) (under : e.wrapped.under = .device s.deviceKey)
    (current : t.copies.ranges[r].current.isSome = true) :
    ∃ x, t.ranges[r].run = .opened x ∧ x.level = levelOf e.access ∧ x.key = e.wrapped.key := by
  obtain ⟨ranges, -, -, watch, -⟩ := h.finished.recs_eq
  obtain ⟨may', unbound', fresh'⟩ := h.finished.conditions r
  rw [ranges] at current
  obtain ⟨k, hk⟩ := Option.isSome_iff_exists.mp current
  exact h.finished.opens r e k (watch ▸ calm_) (may'.mp may) (unbound'.mp unbound) (fresh' ▸ fresh)
    (by rw [h.key]; exact under) hk

/-! ## The rekey record -/

/-- R125: the rekey record of a part in use. -/
theorem Arrival.rekey_live (h : Arrival damage s l d j t) (live : alive t.copies.watch.state = true) :
    (∀ k, d.copies.rekey = some k → k.state = .paused)
      ∧ t.copies.rekey = d.copies.rekey.map fun k =>
        { k with state := if isOpen t.ranges[k.range].run then .running else .paused } := by
  have paused : ∀ k, d.copies.rekey = some k → k.state = .paused := fun k hk => h.derived.reconciled.paused hk
  obtain ⟨-, -, -, same, -⟩ := h.live live
  refine ⟨paused, ?_⟩
  rw [← same] at paused ⊢
  exact h.finished.rekey paused

theorem Arrival.rekey_ends (h : Arrival damage s l d j t) (live : alive t.copies.watch.state = true)
    (none_ : t.copies.rekey = none) (r : Fin 16) : t.copies.ranges[r].next = none := by
  obtain ⟨-, moved⟩ := h.rekey_live live
  rw [none_, eq_comm, Option.map_eq_none_iff] at moved
  rw [(h.live live).1, h.derived.reconciled.ends moved r]

theorem Arrival.rekey_goes_on (h : Arrival damage s l d j t) (live : alive t.copies.watch.state = true) {k : RekeyRec}
    (hk : t.copies.rekey = some k) : ∃ k', s.store.nv.rekey = some k' ∧ ¬damage.contains .rekeyRecord = true
      ∧ Rekeyable t.copies k
      ∧ k = { k' with state := if isOpen t.ranges[k.range].run = true then .running else .paused } := by
  obtain ⟨-, moved⟩ := h.rekey_live live
  obtain ⟨ranges, -⟩ := h.live live
  cases hd : d.copies.rekey with
  | none =>
    rw [hd, hk] at moved
    cases moved
  | some x =>
    obtain ⟨same, k', found, able, rfl⟩ := h.derived.reconciled.goes x hd
    rw [hk, hd] at moved
    cases moved
    have stood := h.loaded.rekey
    rw [found] at stood
    split at stood
    · cases stood
    · rename_i kept
      refine ⟨k', stood.symm, kept, ?_, rfl⟩
      unfold Rekeyable rangeDefined at able ⊢
      rw [ranges, same]
      exact able

theorem Arrival.rekey_stays (h : Arrival [] s l d j t) (live : alive t.copies.watch.state = true) {k : RekeyRec}
    (hk : s.store.nv.rekey = some k) (able : Rekeyable s.store.nv k) :
    t.copies.rekey.isSome = true ∧ ∀ r : Fin 16, t.copies.ranges[r] = s.store.nv.ranges[r] := by
  obtain ⟨-, moved⟩ := h.rekey_live live
  obtain ⟨ranges, -⟩ := h.live live
  have whole : ∀ r : Fin 16, l.copies.ranges[r] = s.store.nv.ranges[r] := fun r => h.loaded.undamaged r rfl
  have found : l.copies.rekey = some k := h.loaded.rekey.trans hk
  have able : Rekeyable l.copies k := by
    unfold Rekeyable rangeDefined at able ⊢
    rw [whole]
    exact able
  have stays := h.derived.reconciled.stays k found able
  rw [moved, stays]
  exact ⟨rfl, fun r => by rw [ranges, (h.derived.reconciled.goes _ stays).1, whole]⟩

/-! ## The erase -/

/-- What a scrub at rest leaves of the journal and the watch. -/
theorem ScrubRests.at_rest {m u : State} {n : Nat} {x : Journal} (h : ScrubRests m n x u) :
    (x.frontier < m.copies.factory.capacity →
      u.copies.journal = some { x with step := 4 } ∧ u.copies.watch.state = .erasing)
    ∧ (m.copies.factory.capacity ≤ x.frontier →
      u.copies.journal = some { x with step := 5, result := some .complete } ∧ u.copies.watch.state = .erased) :=
  ⟨fun less => ⟨(h.goes less).2, (h.goes less).1.state⟩, fun full => ⟨(h.ends full).journal, (h.ends full).state⟩⟩

/-- R169: the journal that was lost is one of an erase from its beginning. -/
theorem Arrival.journal_lost (h : Arrival damage s l d j t) (lost : damage.contains .eraseJournal = true) :
    ¬alive t.copies.watch.state = true ∧ ∃ x, t.copies.journal = some x ∧ x.cause = .unknown ∧ 4 ≤ x.step := by
  have found : d.copies.journal = some ⟨.unknown, 0, 0, [], none⟩ :=
    h.derived.journal.trans (h.loaded.journal.trans (if_pos lost))
  refine ⟨fun live => ?_, ?_⟩
  · rw [(h.live live).2.2.2.2] at found
    cases found
  · obtain ⟨-, -, -, -, journal⟩ := h.finished.recs_eq
    rw [journal]
    have other : ∀ x, d.copies.journal = some x → x = ⟨.unknown, 0, 0, [], none⟩ := fun x hx =>
      Option.some.inj (hx.symm.trans found)
    cases h.outcome with
    | lives none_ _ _ => rw [none_] at found; cases found
    | erases _ none_ _ _ => rw [none_] at found; cases found
    | dead none_ _ _ => rw [none_] at found; cases found
    | done x hx step _ => rw [other x hx] at step; cases step
    | scrubs x hx step _ => rw [other x hx] at step; cases step
    | wipes x hx _ rests _ =>
      obtain rfl := other x hx
      by_cases scrub : d.copies.policy.scrubEnable = true
      · obtain ⟨goes, ends⟩ := (rests.scrubs scrub).at_rest
        by_cases less : 0 < d.copies.factory.capacity
        · exact ⟨_, (goes less).1, rfl, le_refl 4⟩
        · exact ⟨_, (ends (Nat.le_of_not_lt less)).1, rfl, by decide⟩
      · exact ⟨_, (rests.skips (by simpa using scrub)).journal, rfl, by decide⟩

/-- R169: an erase that the journal tells of goes on. -/
theorem Arrival.journal_goes_on (h : Arrival damage s l d j t) {x : Journal} (hx : s.store.nv.journal = some x)
    (kept : ¬damage.contains .eraseJournal = true) :
    (x.step = 5 → DoneRests d x j) ∧ (x.step = 4 → ScrubRests d 4 x j)
      ∧ (x.step ≤ 3 → EraseRests d 5 x j ∧ Wiped j ∧ alive j.copies.watch.state = false) := by
  have found : d.copies.journal = some x := h.derived.journal.trans (h.loaded.journal.trans ((if_neg kept).trans hx))
  have same : ∀ y, d.copies.journal = some y → y = x := fun y hy => Option.some.inj (hy.symm.trans found)
  cases h.outcome with
  | lives none_ _ _ => rw [none_] at found; cases found
  | erases _ none_ _ _ => rw [none_] at found; cases found
  | dead none_ _ _ => rw [none_] at found; cases found
  | done y hy step rests =>
    obtain rfl := same y hy
    exact ⟨fun _ => rests, fun _ => by omega, fun _ => by omega⟩
  | scrubs y hy step rests =>
    obtain rfl := same y hy
    exact ⟨fun _ => by omega, fun _ => rests, fun _ => by omega⟩
  | wipes y hy step rests wiped =>
    obtain rfl := same y hy
    exact ⟨fun s => absurd s step.1, fun s => absurd s step.2, fun _ => ⟨rests, wiped, rests.left.2.2⟩⟩

/-- R170: after the destruction of the keys every defined range is ERASED. -/
theorem Arrival.wiped (h : Arrival damage s l d j t) (wiped : Wiped j) (dead : alive j.copies.watch.state = false) :
    t.copies.rekey = none ∧ (∀ k : Fin 64, t.copies.wraps[k] = none)
      ∧ ∀ r : Fin 16, rangeDefined t.copies r = true → t.ranges[r].run = .erased ∧ t.copies.ranges[r].current = none
        ∧ t.copies.ranges[r].next = none ∧ t.copies.ranges[r].erased = true := by
  obtain ⟨ranges, wraps, -⟩ := h.finished.recs_eq
  refine ⟨h.finished.rests wiped.rekey, fun k => by rw [wraps]; exact wiped.wraps k, fun r defined => ?_⟩
  unfold rangeDefined at defined
  rw [ranges] at defined ⊢
  obtain ⟨current, next, erased⟩ := wiped.ranges r defined
  refine ⟨?_, current, next, erased⟩
  rcases h.finished.run r with marked | ⟨-, calm_, -⟩
  · rw [marked]
    unfold runOf
    rw [erased]
    rfl
  · rw [calm_alive calm_] at dead
    cases dead

/-! ## The whole -/

theorem Arrival.storeOk (h : Arrival damage s l d j t) : StoreOk t := by
  have after : afterWrites t = t.copies := h.finished.follows.stored
  have policy : policyUnderWay t = t.copies.policy := by
    unfold policyUnderWay
    rw [h.finished.sec]
    rfl
  refine ⟨?_, fun _ => by rw [after], h.finished.follows.inOrder⟩
  rw [policy, after]

end Clauses

/-- Settles O30: the records are loaded and derived, the jobs run, and auto-open opens or pends what it may; what is claimed
of each of these is a lemma about the states that they leave. -/
theorem coldStartLoadsTheRecords : Obligations.ColdStartLoadsTheRecords := by
  intro damage levels s whole
  obtain ⟨l, d, j, t, ran, slots, h⟩ := arrival levels s whole
  refine ⟨t, ran, ?_⟩
  obtain ⟨factory, policy, charged, digest, token, creds⟩ := h.records
  obtain ⟨score, state⟩ := h.score
  obtain ⟨ranges, -, -, watch, journal⟩ := h.finished.recs_eq
  have capacity : d.copies.factory.capacity = s.store.nv.factory.capacity := by rw [h.factory.2]
  refine ⟨⟨slots, h.storeOk⟩, ⟨factory, policy, charged, digest, token, creds, h.incidents_lost, ?told⟩, ⟨score, state⟩,
    h.wraps_go, fun live => (h.wraps_stay live).1, fun k e found live => (h.wraps_stay live).2 k e found, ?undamaged, ?damaged,
    fun r => ?run, fun r => ?pend, ?opened, fun live => ⟨h.rekey_ends live, fun k hk => ?_, ?_⟩, h.journal_lost,
    fun x hx kept => ?_⟩
  case told =>
    rintro x rfl told
    exact h.incident_told told
  case undamaged =>
    rintro live rfl
    exact h.ranges_undamaged live
  case damaged =>
    rintro r found rfl live
    rw [h.range_damaged live]
    unfold treatedRange
    refine ⟨fun zero => if_pos zero, fun other e he => ?_⟩
    rw [if_neg other, damagedExtent_blank s.store.nv (damagedRange_sole r found) he]
    refine ⟨fun stands => ?_, fun falls => ?_⟩
    · rw [if_pos stands]
    · rw [if_neg falls]
  case run =>
    obtain ⟨mark, run⟩ := h.runs r
    refine ⟨mark, ?_⟩
    rcases run with ⟨⟨x, opened⟩, claims⟩ | ⟨locked, whole⟩ | ⟨erased, gone⟩
    · rw [opened]
      exact claims
    · rw [locked]
      exact whole
    · rw [erased]
      exact gone
  case pend =>
    rw [h.pends r]
    unfold Openable Unbound
    cases t.copies.ranges[r].attributes.bindingRequired <;> cases t.copies.digest <;> simp
  case opened =>
    intro calm_ r e defined whole auto fresh under current unbound
    exact h.opens calm_ ⟨defined, whole, auto, by rw [fresh]; rfl⟩ unbound fresh under current
  · obtain ⟨k', found, kept, ⟨defined, whole, next⟩, e⟩ := h.rekey_goes_on live hk
    exact ⟨k', found, kept, defined, whole, next, e⟩
  · rintro k hk rfl defined whole next
    exact h.rekey_stays live hk ⟨defined, whole, next⟩
  · obtain ⟨done, scrubs, wipes⟩ := h.journal_goes_on hx kept
    rw [journal, watch]
    refine ⟨fun step => ⟨(done step).journal, (done step).state⟩, fun step => ?_, fun step => ?_⟩
    · obtain ⟨rests, wiped, dead⟩ := wipes step
      obtain ⟨rekey, wraps, erased⟩ := h.wiped wiped dead
      have same : t.copies.policy.scrubEnable = d.copies.policy.scrubEnable := by rw [h.policy, h.derived.policy]
      refine ⟨rekey, wraps, erased, ?_⟩
      rw [same, ← capacity]
      exact ⟨fun scrub => (rests.scrubs scrub).at_rest.1, fun scrub => (rests.scrubs scrub).at_rest.2,
        fun skip => ⟨(rests.skips skip).journal, (rests.skips skip).state⟩⟩
    · obtain ⟨goes, ends⟩ := (scrubs step).at_rest
      rw [← capacity]
      have same : { x with step := 4 } = x := by rw [← step]
      rw [same] at goes
      exact ⟨goes, ends⟩

end Sys2Proof.Machine
end
